-- ==== Sys2Proof/Word.lean ====
section
/-! DEFINITION. The word types of the Lorden module: bytes, registers, and lists of bytes (00_scope R4: bit 0 is the
least significant bit; multi-byte values are little-endian). -/

namespace Sys2Proof

abbrev Byte := BitVec 8
abbrev Half16 := BitVec 16
abbrev Word := BitVec 32
abbrev DWord := BitVec 64
abbrev Bytes := List Byte

/-- A sparse map: entries with strictly rising keys, none equal to the default that an unlisted key reads as. -/
abbrev Sparse (α : Type) := List (Nat × α)

end Sys2Proof
end

