-- ==== Sys2Proof/Machine/Sparse.lean ====
section
/-! DEFINITION. Sparse maps and byte memories in one canonical form: strictly rising keys and no entry equal to what an
unlisted key reads as. Every addressed store of the module (vats, plan stores, casks, windows, registers by number) is one. -/

namespace Sys2Proof

/-- The value at key k; d is what an unlisted key reads as. -/
def Sparse.get {α : Type} (d : α) : Sparse α → Nat → α
  | [], _ => d
  | (a, v) :: r, k => if k < a then d else if k = a then v else Sparse.get d r k

/-- Write v at key k, keeping the canonical form: writing d removes the entry. -/
def Sparse.set {α : Type} [DecidableEq α] (d : α) : Sparse α → Nat → α → Sparse α
  | [], k, v => if v = d then [] else [(k, v)]
  | (a, w) :: r, k, v =>
    if k < a then (if v = d then (a, w) :: r else (k, v) :: (a, w) :: r)
    else if k = a then (if v = d then r else (k, v) :: r)
    else (a, w) :: Sparse.set d r k v

/-- Every key of the map is at least lo, keys rise strictly and no entry is d. -/
def Sparse.wfFrom {α : Type} [DecidableEq α] (d : α) : Nat → Sparse α → Bool
  | _, [] => true
  | lo, (a, v) :: r => decide (lo ≤ a) && !(decide (v = d)) && Sparse.wfFrom d (a + 1) r

/-- The canonical form. -/
def Sparse.wf {α : Type} [DecidableEq α] (d : α) (m : Sparse α) : Bool := Sparse.wfFrom d 0 m

/-- Change the value at key k by f. -/
def Sparse.modify {α : Type} [DecidableEq α] (d : α) (m : Sparse α) (k : Nat) (f : α → α) : Sparse α :=
  Sparse.set d m k (f (Sparse.get d m k))

/-- A byte memory; an unlisted address reads as 0. -/
abbrev Mem := Sparse Byte

/-- The memory with nothing listed. -/
def Mem.empty : Mem := []

/-- Read one byte. -/
def Mem.read (m : Mem) (a : Nat) : Byte := Sparse.get 0#8 m a

/-- Write one byte. -/
def Mem.write (m : Mem) (a : Nat) (v : Byte) : Mem := Sparse.set 0#8 m a v

/-- The canonical form of a memory. -/
def Mem.wf (m : Mem) : Bool := Sparse.wf 0#8 m

/-- The n bytes from address a upward. -/
def Mem.readBytes (m : Mem) (a : Nat) : Nat → Bytes
  | 0 => []
  | n + 1 => Mem.read m a :: Mem.readBytes m (a + 1) n

/-- Write a list of bytes from address a upward. -/
def Mem.writeBytes : Mem → Nat → Bytes → Mem
  | m, _, [] => m
  | m, a, b :: bs => Mem.writeBytes (Mem.write m a b) (a + 1) bs

/-- Fill n bytes from a with 0: the entries of the range go. -/
def Mem.clearRange (m : Mem) (a n : Nat) : Mem := m.filter (fun e => !(decide (a ≤ e.1) && decide (e.1 < a + n)))

/-- The little-endian value of a list of bytes (00_scope R4). -/
def leNat : Bytes → Nat
  | [] => 0
  | b :: bs => b.toNat + 256 * leNat bs

/-- The n little-endian bytes of a value. -/
def natLe : Nat → Nat → Bytes
  | 0, _ => []
  | n + 1, v => BitVec.ofNat 8 v :: natLe n (v / 256)

/-- The big-endian value of a list of bytes, for the standards that keep their own order. -/
def beNat (bs : Bytes) : Nat := bs.foldl (fun acc b => acc * 256 + b.toNat) 0

/-- The n big-endian bytes of a value. -/
def natBe (n v : Nat) : Bytes := (natLe n v).reverse

/-- Read an n-byte little-endian value. -/
def Mem.readLe (m : Mem) (a n : Nat) : Nat := leNat (Mem.readBytes m a n)

/-- Read an n-byte little-endian value out of a list of bytes at an offset. -/
def Bytes.leAt (bs : Bytes) (off n : Nat) : Nat := leNat ((bs.drop off).take n)

/-- The bytes off .. off+n-1 of a list. -/
def Bytes.slice (bs : Bytes) (off n : Nat) : Bytes := (bs.drop off).take n

/-- n zero bytes. -/
def zeroBytes (n : Nat) : Bytes := List.replicate n 0#8

/-- Are all bytes zero? -/
def allZero (bs : Bytes) : Bool := bs.all (fun b => b == 0#8)

/-- The low n bits of v from bit lo. -/
def bitsOf (v lo n : Nat) : Nat := (v / 2 ^ lo) % 2 ^ n

/-- An n-bit two's complement field as an integer. -/
def signedOf (n v : Nat) : Int := if v % 2 ^ n < 2 ^ (n - 1) then ((v % 2 ^ n : Nat) : Int) else ((v % 2 ^ n : Nat) : Int) - (2 ^ n : Nat)

/-- Replace the element at index k of a list. -/
def listSet {α : Type} : List α → Nat → α → List α
  | [], _, _ => []
  | _ :: r, 0, v => v :: r
  | a :: r, k + 1, v => a :: listSet r k v

end Sys2Proof
end

