-- ==== Sys2Proof/Machine/Types.lean ====
section
/-! DEFINITION. The plain data of tuns, elements and rounding results (02_number_formats_and_the_tun). -/

namespace Sys2Proof.Machine
open Sys2Proof

/-- A tun (02_number_formats R25, R26, R28): the 128-bit integer V, the anchor, the sticky flags and the count. -/
structure Tun where
  v : BitVec 128
  anchor : Int
  tn : Bool
  tp : Bool
  tm : Bool
  tr : Bool
  tu : Bool
  count : Nat
  deriving DecidableEq, Repr

/-- The start of an accumulation at anchor a (R25). -/
def Tun.new (a : Int) : Tun := { v := 0#128, anchor := a, tn := false, tp := false, tm := false, tr := false, tu := false, count := 0 }

/-- The empty tun record: every byte 0. -/
def Tun.empty : Tun := { v := 0#128, anchor := 0, tn := false, tp := false, tm := false, tr := false, tu := false, count := 0 }

/-- The exact value of an element or of a product (R20, R24): NaN, an infinity with its sign, or (-1)^s × m × 2^e. -/
inductive Exact where
  | nan
  | inf (s : Bool)
  | fin (s : Bool) (m : Nat) (e : Int)
  deriving DecidableEq, Repr

/-- The layout of a format code (R18). -/
structure FmtP where
  width : Nat
  ebits : Nat
  mbits : Nat
  bias : Int
  isInt : Bool
  isMx : Bool
  deriving DecidableEq, Repr

/-- A rounded element and the flags it sets (R33, R36). -/
structure DrainOut where
  code : Nat
  dx : Bool
  dov : Bool
  dv : Bool
  deriving DecidableEq, Repr

/-- A drained MX block (R39). -/
structure MxOut where
  scale : Nat
  codes : List Nat
  dx : Bool
  dov : Bool
  dv : Bool
  deriving DecidableEq, Repr

/-- A combination of tun records (R30): the record, and which of the two breaches it met. -/
structure CombineOut where
  tun : Tun
  anchorBreach : Bool
  countBreach : Bool
  deriving DecidableEq, Repr

/-- A binary32 result and its flags, in the layout of LFLAGS (04_the_lathe R79): NV DZ OF UF NX. -/
structure FpOut where
  val : Word
  fl : BitVec 5
  deriving DecidableEq, Repr

end Sys2Proof.Machine
end

