-- ==== Sys2Proof/Machine/Num.lean ====
section
/-! DEFINITION. Number formats, products, tuns, combining and draining (02_number_formats_and_the_tun). -/

namespace Sys2Proof.Machine
open Sys2Proof

/-- The table of R18. Codes 0xE and 0xF are reserved and read as FP32 here; the checks of WellFormed refuse them. -/
def fmtP (fmt : BitVec 4) : FmtP :=
  match fmt.toNat with
  | 0x1 => { width := 16, ebits := 8, mbits := 7, bias := 127, isInt := false, isMx := false }
  | 0x2 => { width := 16, ebits := 5, mbits := 10, bias := 15, isInt := false, isMx := false }
  | 0x3 => { width := 8, ebits := 4, mbits := 3, bias := 7, isInt := false, isMx := false }
  | 0x4 => { width := 8, ebits := 5, mbits := 2, bias := 15, isInt := false, isMx := false }
  | 0x5 => { width := 8, ebits := 4, mbits := 3, bias := 7, isInt := false, isMx := true }
  | 0x6 => { width := 8, ebits := 5, mbits := 2, bias := 15, isInt := false, isMx := true }
  | 0x7 => { width := 6, ebits := 3, mbits := 2, bias := 3, isInt := false, isMx := true }
  | 0x8 => { width := 6, ebits := 2, mbits := 3, bias := 1, isInt := false, isMx := true }
  | 0x9 => { width := 4, ebits := 2, mbits := 1, bias := 1, isInt := false, isMx := true }
  | 0xA => { width := 8, ebits := 0, mbits := 7, bias := 0, isInt := true, isMx := false }
  | 0xB => { width := 4, ebits := 0, mbits := 3, bias := 0, isInt := true, isMx := false }
  | 0xC => { width := 8, ebits := 0, mbits := 7, bias := 0, isInt := true, isMx := true }
  | 0xD => { width := 4, ebits := 2, mbits := 1, bias := 1, isInt := false, isMx := false }
  | _ => { width := 32, ebits := 8, mbits := 23, bias := 127, isInt := false, isMx := false }

/-- Is the format code one of R18's (0xE and 0xF are reserved)? -/
def fmtOk (fmt : BitVec 4) : Bool := decide (fmt.toNat ≤ 0xD)

/-- E4M3, whose only special encodings are the two NaNs (R18). -/
def isE4M3 (fmt : BitVec 4) : Bool := fmt == 0x3#4 || fmt == 0x5#4

/-- Formats whose all-ones exponent holds infinity and NaN (R18): FP32, BF16, FP16, E5M2. -/
def hasIeeeSpecials (fmt : BitVec 4) : Bool :=
  fmt == 0x0#4 || fmt == 0x1#4 || fmt == 0x2#4 || fmt == 0x4#4 || fmt == 0x6#4

/-- decode of R20. -/
def decodeElem (code : Nat) (fmt : BitVec 4) : Exact :=
  let p := fmtP fmt
  if p.isInt then
    let v := signedOf p.width code
    .fin (decide (v < 0)) v.natAbs (if fmt == 0xC#4 then -6 else 0)
  else
    let s := (bitsOf code (p.width - 1) 1) == 1
    let ef := bitsOf code p.mbits p.ebits
    let mf := bitsOf code 0 p.mbits
    if isE4M3 fmt && ef == 15 && mf == 7 then .nan
    else if hasIeeeSpecials fmt && ef == 2 ^ p.ebits - 1 then (if mf == 0 then .inf s else .nan)
    else if ef == 0 then .fin s mf (1 - p.bias - p.mbits)
    else .fin s (2 ^ p.mbits + mf) ((ef : Int) - p.bias - p.mbits)

/-- form_product of R24 on decoded operands and their scale codes. -/
def formProductE (a : Exact) (ka : Nat) (b : Exact) (kb : Nat) : Exact :=
  if ka == 0xFF || kb == 0xFF then .nan
  else
    match a, b with
    | .nan, _ => .nan
    | _, .nan => .nan
    | .inf s, .inf t => .inf (s != t)
    | .inf s, .fin t m _ => if m == 0 then .nan else .inf (s != t)
    | .fin s m _, .inf t => if m == 0 then .nan else .inf (s != t)
    | .fin s m e, .fin t n f => .fin (s != t) (m * n) (e + f + ((ka : Int) - 127) + ((kb : Int) - 127))

/-- form_product of R24. -/
def formProduct (a : Nat) (fa : BitVec 4) (ka : Nat) (b : Nat) (fb : BitVec 4) (kb : Nat) : Exact :=
  formProductE (decodeElem a fa) ka (decodeElem b fb) kb

/-- An FP32 value as an addend (R28): the sign, significand and exponent of its decode. -/
def addendOf (v : Word) : Exact := decodeElem v.toNat 0x0#4

/-- Is m × 2^d at least 2^107? -/
def reaches107 (m : Nat) (d : Int) : Bool :=
  if 0 ≤ d then decide (2 ^ 107 ≤ m * 2 ^ d.toNat) else decide (2 ^ (107 + (-d).toNat) ≤ m)

/-- floor of ±m × 2^d. -/
def floorShift (s : Bool) (m : Nat) (d : Int) : Int :=
  let x : Int := if s then -(m : Int) else (m : Int)
  if 0 ≤ d then x * (2 ^ d.toNat : Nat) else Int.fdiv x (2 ^ (-d).toNat : Nat)

/-- Is m × 2^d an integer? -/
def shiftExact (m : Nat) (d : Int) : Bool :=
  if 0 ≤ d then true else m % 2 ^ (-d).toNat == 0

/-- The limit of R25 and R26. -/
def tunLimit : Nat := 2 ^ 20

/-- accumulate of R26 below the count limit. -/
def Tun.addTerm (t : Tun) (p : Exact) : Tun :=
  match p with
  | .nan => { t with count := t.count + 1, tn := true }
  | .inf s => if s then { t with count := t.count + 1, tm := true } else { t with count := t.count + 1, tp := true }
  | .fin s m e =>
    let d := e - t.anchor
    if reaches107 m d then { t with count := t.count + 1, tr := true }
    else
      { t with
        count := t.count + 1
        tu := t.tu || !(shiftExact m d)
        v := t.v + BitVec.ofInt 128 (floorShift s m d) }

/-- accumulate of R26: at 2^20 the product is not added and the breach is raised (second component). -/
def Tun.accumulate (t : Tun) (p : Exact) : Tun × Bool :=
  if t.count = tunLimit then (t, true) else (t.addTerm p, false)

/-- p2 of R59. -/
def p2mod7 (d : Int) : Nat := match (d.emod 3).toNat with
  | 0 => 1
  | 1 => 2
  | _ => 4

/-- residue_add of R59 for decoded operands: the predictor follows only the products that R26 adds. -/
def residueAdd (rho : Nat) (a b p : Exact) (t : Tun) : Nat :=
  match a, b, p with
  | .fin _ am _, .fin _ bm _, .fin s m e =>
    if t.count = tunLimit || reaches107 m (e - t.anchor) then rho
    else
      let r := ((am % 7) * (bm % 7) * p2mod7 (e - t.anchor)) % 7
      (rho + (if s then (7 - r) % 7 else r)) % 7
  | _, _, _ => rho

/-- signed(V) mod 7 as a value from 0 to 6 (R60). -/
def tunMod7 (t : Tun) : Nat := (t.v.toInt.emod 7).toNat

/-- The residue check of R60: a cell with TU set is not checked. -/
def residueOk (t : Tun) (rho : Nat) : Bool := t.tu || decide (tunMod7 t = rho)

/-- One record of combine (R30) at target anchor t. -/
def combineStep (t : Int) (out : CombineOut) (r : Tun) : CombineOut :=
  if out.anchorBreach then out
  else if r.anchor > t then { out with anchorBreach := true }
  else
    let d := (t - r.anchor).toNat
    let q := Int.fdiv r.v.toInt (2 ^ d : Nat)
    let tun : Tun :=
      { v := out.tun.v + BitVec.ofInt 128 q
        anchor := t
        tn := out.tun.tn || r.tn
        tp := out.tun.tp || r.tp
        tm := out.tun.tm || r.tm
        tr := out.tun.tr || r.tr
        tu := out.tun.tu || r.tu || !(decide (q * (2 ^ d : Nat) = r.v.toInt))
        count := out.tun.count + r.count }
    { out with tun := tun }

/-- combine of R30. -/
def combine (records : List Tun) (t : Int) : CombineOut :=
  let o := records.foldl (combineStep t) { tun := Tun.new t, anchorBreach := false, countBreach := false }
  if o.anchorBreach then o else { o with countBreach := decide (o.tun.count > tunLimit) }

/-- SIDE of R28. -/
def tunSide (t : Tun) : Nat :=
  t.count % 2 ^ 21 + (if t.tu then 2 ^ 21 else 0) + (if t.tr then 2 ^ 22 else 0) + (if t.tn then 2 ^ 23 else 0)
    + (if t.tp then 2 ^ 24 else 0) + (if t.tm then 2 ^ 25 else 0)

/-- The 32-byte tun record of R28. -/
def tunRecord (t : Tun) : Bytes :=
  natLe 16 t.v.toNat ++ natLe 4 (tunSide t) ++ natLe 2 (BitVec.ofInt 9 t.anchor).toNat ++ zeroBytes 10

/-- A tun read from a record of R28. -/
def recordTun (bs : Bytes) : Tun :=
  let side := Bytes.leAt bs 16 4
  { v := BitVec.ofNat 128 (Bytes.leAt bs 0 16)
    anchor := signedOf 9 (Bytes.leAt bs 20 2)
    tn := bitsOf side 23 1 == 1
    tp := bitsOf side 24 1 == 1
    tm := bitsOf side 25 1 == 1
    tr := bitsOf side 22 1 == 1
    tu := bitsOf side 21 1 == 1
    count := bitsOf side 0 21 }

/-- The contribution of a format to the default anchor (R29); none for FP32 and BF16. -/
def anchorPart (fmt : BitVec 4) : Option Int :=
  match fmt.toNat with
  | 0x2 => some (-24)
  | 0x3 => some (-9)
  | 0x4 => some (-16)
  | 0x5 => some (-9)
  | 0x6 => some (-16)
  | 0x7 => some (-4)
  | 0x8 => some (-3)
  | 0x9 => some (-1)
  | 0xA => some 0
  | 0xB => some 0
  | 0xC => some (-7)
  | 0xD => some (-1)
  | _ => none

/-- The default anchor of a pair (R29). -/
def defaultAnchor (fa fb : BitVec 4) : Option Int :=
  match anchorPart fa, anchorPart fb with
  | some a, some b => some (a + b)
  | _, _ => none

/-- The rate factor of a format in sixteenths (R18). -/
def rateFactor16 (fmt : BitVec 4) : Nat :=
  match fmt.toNat with
  | 0x0 => 1
  | 0x1 => 4
  | 0x2 => 4
  | 0x9 => 32
  | 0xB => 32
  | 0xD => 32
  | _ => 16

/-- round_int of R33 on y = n × 2^e. -/
def roundInt (n : Int) (e : Int) (rm : BitVec 2) (r16 : Nat) : Int :=
  if 0 ≤ e then n * (2 ^ e.toNat : Nat)
  else
    let k := (-e).toNat
    let mag := n.natAbs
    let t := mag / 2 ^ k
    let rem := mag % 2 ^ k
    let neg := decide (n < 0)
    let withSign : Nat → Int := fun v => if neg then -(v : Int) else (v : Int)
    match rm.toNat with
    | 0 =>
      if 2 * rem < 2 ^ k then withSign t
      else if 2 ^ k < 2 * rem then withSign (t + 1)
      else withSign (if t % 2 = 0 then t else t + 1)
    | 1 => withSign t
    | 2 => if neg && decide (rem ≠ 0) then withSign (t + 1) else withSign t
    | _ =>
      let f := rem * 2 ^ 16 / 2 ^ k
      withSign (if r16 < f then t + 1 else t)

/-- The largest finite magnitude of a format as m × 2^e (R18). -/
def largestFinite (fmt : BitVec 4) : Nat × Int :=
  let p := fmtP fmt
  if p.isInt then (2 ^ (p.width - 1) - 1, 0)
  else if isE4M3 fmt then (2 ^ p.mbits + 6, (15 : Int) - p.bias - p.mbits)
  else if hasIeeeSpecials fmt then (2 ^ (p.mbits + 1) - 1, (2 ^ p.ebits - 2 : Int) - p.bias - p.mbits)
  else (2 ^ (p.mbits + 1) - 1, (2 ^ p.ebits - 1 : Int) - p.bias - p.mbits)

/-- Is a × 2^d > b × 2^f? -/
def dyadicGt (a : Nat) (d : Int) (b : Nat) (f : Int) : Bool :=
  if d ≤ f then decide (a > b * 2 ^ (f - d).toNat) else decide (a * 2 ^ (d - f).toNat > b)

/-- The encoding of ±n × 2^q, with n × 2^q on the format's grid and no larger than its largest finite. -/
def encodeFinite (fmt : BitVec 4) (s : Bool) (n : Nat) (q : Int) : Nat :=
  let p := fmtP fmt
  let sign := if s then 2 ^ (p.width - 1) else 0
  if n < 2 ^ p.mbits then sign + n
  else
    let l := Nat.log2 n
    let mant := n / 2 ^ (l - p.mbits) - 2 ^ p.mbits
    let ef := (q + (l : Int) + p.bias).toNat
    sign + ef * 2 ^ p.mbits + mant

/-- The code of the largest finite magnitude with a sign. -/
def maxCode (fmt : BitVec 4) (s : Bool) : Nat :=
  let p := fmtP fmt
  if p.isInt then (if s then 2 ^ (p.width - 1) else 2 ^ (p.width - 1) - 1)
  else let (m, e) := largestFinite fmt; encodeFinite fmt s m e

/-- The canonical NaN of R36. -/
def nanCode (fmt : BitVec 4) : Nat :=
  match fmt.toNat with
  | 0x0 => 0x7FC00000
  | 0x1 => 0x7FC0
  | 0x2 => 0x7E00
  | 0x3 => 0x7F
  | 0x4 => 0x7F
  | 0x5 => 0x7F
  | 0x6 => 0x7F
  | _ => 0

/-- The infinity of R36 in the formats that have one. -/
def infCode (fmt : BitVec 4) (s : Bool) : Nat :=
  let p := fmtP fmt
  (if s then 2 ^ (p.width - 1) else 0) + (2 ^ p.ebits - 1) * 2 ^ p.mbits

/-- special of R33, by the table of R36. -/
def specialNan (fmt : BitVec 4) : DrainOut :=
  { code := nanCode fmt, dx := false, dov := false, dv := !(hasIeeeSpecials fmt || isE4M3 fmt) }

/-- special(±inf) of R33, by the table of R36. -/
def specialInf (fmt : BitVec 4) (s : Bool) (sat : Bool) : DrainOut :=
  if hasIeeeSpecials fmt then { code := infCode fmt s, dx := false, dov := false, dv := false }
  else if isE4M3 fmt then { code := if sat then maxCode fmt s else 0x7F, dx := false, dov := false, dv := true }
  else { code := maxCode fmt s, dx := false, dov := false, dv := true }

/-- The overflow result of R35. -/
def overflowOut (fmt : BitVec 4) (s : Bool) (rm : BitVec 2) (sat : Bool) : DrainOut :=
  let big := maxCode fmt s
  let unbounded := if hasIeeeSpecials fmt then infCode fmt s else if isE4M3 fmt then 0x7F else big
  let code :=
    if sat then big
    else match rm.toNat with
      | 1 => big
      | 2 => if s then unbounded else big
      | _ => unbounded
  { code := code, dx := true, dov := true, dv := false }

/-- The rounding of a non-zero finite x = n × 2^e into a non-MX format (R33 from e on). -/
def roundFinite (fmt : BitVec 4) (n : Int) (e : Int) (rm : BitVec 2) (sat : Bool) (r16 : Nat) : DrainOut :=
  let p := fmtP fmt
  let s := decide (n < 0)
  if p.isInt then
    let v := roundInt n e rm r16
    let hi : Int := (2 ^ (p.width - 1) : Nat) - 1
    let lo : Int := -(2 ^ (p.width - 1) : Nat)
    let c := if v > hi then hi else if v < lo then lo else v
    let clamped := decide (c ≠ v)
    { code := (BitVec.ofInt p.width c).toNat
      dx := clamped || !(shiftExact n.natAbs e)
      dov := clamped
      dv := false }
  else
    let ex := (Nat.log2 n.natAbs : Int) + e
    let emin := 1 - p.bias
    let q := (if ex > emin then ex else emin) - p.mbits
    let v := roundInt n (e - q) rm r16
    let inexact := !(shiftExact n.natAbs (e - q))
    if v = 0 then { code := if s then 2 ^ (p.width - 1) else 0, dx := true, dov := false, dv := false }
    else
      let (lm, le) := largestFinite fmt
      if dyadicGt v.natAbs q lm le then overflowOut fmt s rm sat
      else { code := encodeFinite fmt s v.natAbs q, dx := inexact, dov := false, dv := false }

/-- drain of R33 to a non-MX format. -/
def drainTun (t : Tun) (fmt : BitVec 4) (rm : BitVec 2) (sat : Bool) (dsc : Int) (r16 : Nat) : DrainOut :=
  if t.tn || t.tr || (t.tp && t.tm) then specialNan fmt
  else if t.tp then specialInf fmt false sat
  else if t.tm then specialInf fmt true sat
  else if t.v = 0#128 then { code := 0, dx := false, dov := false, dv := false }
  else roundFinite fmt t.v.toInt (t.anchor + dsc) rm sat r16

/-- emax_elem of R39. -/
def emaxElem (fmt : BitVec 4) : Int :=
  match fmt.toNat with
  | 0x5 => 8
  | 0x6 => 15
  | 0x7 => 4
  | 0x8 => 2
  | 0x9 => 2
  | _ => 0

/-- The element format that an MX format's elements round into under R33 (R39): the same layout. -/
def mxElemFmt (fmt : BitVec 4) : BitVec 4 := fmt

/-- One element of an MX block: y = n × 2^e rounded with SAT = 1, DO ignored; MXINT8 clamps to ±127 (R39). -/
def mxElem (fmt : BitVec 4) (n : Int) (e : Int) (rm : BitVec 2) (r16 : Nat) : Nat × Bool :=
  if n = 0 then (0, false)
  else if fmt == 0xC#4 then
    let v := roundInt n (e + 6) rm r16
    let c : Int := if v > 127 then 127 else if v < -127 then -127 else v
    ((BitVec.ofInt 8 c).toNat, decide (c ≠ v) || !(shiftExact n.natAbs (e + 6)))
  else
    let o := roundFinite (mxElemFmt fmt) n e rm true r16
    (o.code, o.dx)

/-- floor(log2) of the largest |V| × 2^anchor of a block; none when every V is 0. -/
def blockExp (ts : List Tun) : Option Int :=
  ts.foldl (fun acc t =>
    if t.v = 0#128 then acc
    else
      let e := (Nat.log2 t.v.toInt.natAbs : Int) + t.anchor
      match acc with
      | none => some e
      | some a => some (if e > a then e else a)) none

/-- mx_drain of R39. -/
def mxDrain (ts : List Tun) (fmt : BitVec 4) (rm : BitVec 2) (r16 : List Nat) : MxOut :=
  if ts.any (fun t => t.tn || t.tr || t.tp || t.tm) then
    { scale := 0xFF, codes := ts.map (fun _ => 0), dx := false, dov := false, dv := ts.any (fun t => t.tp || t.tm) }
  else
    let x0 : Int := match blockExp ts with
      | none => -127
      | some e => e - emaxElem fmt
    let x := if x0 < -127 then -127 else x0
    if x > 127 then { scale := 0xFF, codes := ts.map (fun _ => 0), dx := false, dov := true, dv := false }
    else
      let es := (ts.zip r16).map (fun tr => mxElem fmt tr.1.v.toInt (tr.1.anchor - x) rm tr.2)
      { scale := (x + 127).toNat, codes := es.map (fun c => c.1), dx := es.any (fun c => c.2), dov := false, dv := false }

/-- Element i of a packed array of w-bit elements (R23). -/
def packedElem (bs : Bytes) (w i : Nat) : Nat := bitsOf (Bytes.leAt bs (w * i / 8) 5) (w * i % 8) w

/-- Pack elements of width w into bytes (R23). -/
def packElems (w : Nat) (codes : List Nat) : Bytes :=
  natLe ((w * codes.length + 7) / 8) (codes.reverse.foldl (fun acc c => acc * 2 ^ w + c % 2 ^ w) 0)

end Sys2Proof.Machine
end

