-- ==== Sys2Proof/Syntax.lean ====
section
/-! DEFINITION. The commands: one constructor of Instr per row of the spec's table of operations and events, with the
row's operands. The table gives the rows no bits; a bay instruction carries the fields that 07_bay_instructions gives its
slot, a Cazer message the fields of its payload, an event what the outside world determines about it. -/

namespace Sys2Proof

/-- A bay by its logical coordinates on the 60 x 24 grid (00_scope R11). -/
structure BayId where
  x : Nat
  y : Nat
  deriving DecidableEq, Repr

/-- PRED of a slot (06_bay_sequencer R108): register Q0 to Q7, inverted when qn. -/
structure Pred where
  q : BitVec 3
  qn : Bool
  deriving DecidableEq, Repr

/-- What the error-correcting code finds on a fetch or a read: no error, a corrected one, an uncorrectable one. The stored
check bits are not modelled; the environment says which case meets the access. -/
inductive Ecc where
  | ok
  | corrected
  | uncorrectable
  deriving DecidableEq, Repr

/-- The press, or the quarter of a press, that a PRESS instruction names (07_bay_instructions R135). -/
structure PressSel where
  pr : BitVec 2
  qt : BitVec 2
  qe : Bool
  deriving DecidableEq, Repr

/-- Fields of LDA and LDB (R136, R137). -/
structure LoadF where
  half : Bool
  i : BitVec 4
  off : BitVec 17
  fmt : BitVec 4
  soff : BitVec 19
  deriving DecidableEq, Repr

/-- Fields of SETUP (R136, R138). -/
structure SetupF where
  fmtA : BitVec 4
  fmtB : BitVec 4
  anch : BitVec 9
  dflt : Bool
  npM1 : BitVec 15
  auto : Bool
  deriving DecidableEq, Repr

/-- Fields of DRAIN (R136, R141). -/
structure DrainF where
  fmt : BitVec 4
  rm : BitVec 2
  sat : Bool
  dsc : BitVec 7
  i : BitVec 4
  off : BitVec 17
  str : BitVec 8
  soff : BitVec 8
  deriving DecidableEq, Repr

/-- Fields of DRAINR (R136, R141). -/
structure DrainRF where
  i : BitVec 4
  off : BitVec 17
  str : BitVec 8
  deriving DecidableEq, Repr

/-- Fields of the LATHE slot above OPC (R144). -/
structure LatheF where
  msk : BitVec 3
  vd : BitVec 6
  va : BitVec 6
  vb : BitVec 6
  vc : BitVec 6
  ext : BitVec 10
  deriving DecidableEq, Repr

/-- Fields of CRD, CWR and (with cgrp the group) CBW (R150). -/
structure RackF where
  ci : BitVec 4
  vin : BitVec 4
  voff : BitVec 16
  lm1 : BitVec 6
  coff : BitVec 10
  deriving DecidableEq, Repr

/-- Fields of SOP, a sill operation (R150). -/
structure SopF where
  dix : BitVec 12
  vin : BitVec 4
  voff : BitVec 16
  deriving DecidableEq, Repr

/-- Fields of SEND and RECV (R151). -/
structure RouteF where
  rt : BitVec 10
  vin : BitVec 4
  voff : BitVec 10
  deriving DecidableEq, Repr

/-- What a read piece meets (09_casks R175, R176, R188): in time and clean, a beat corrected or uncorrectable at the cellar port, a symbol
corrected or an uncorrectable symbol pattern in the cask (with the stave where it is known), or absent from the return buffer at d_w - 24. -/
inductive PieceErr where
  | ok
  | beatCorrected
  | beatUncorrectable
  | symbolCorrected (stave : Nat)
  | uncorrectable (stave : Option Nat)
  | late
  deriving DecidableEq, Repr

/-- A node of the lath (08_joist R164): a bay's node, a field's hub, the plate hub. -/
inductive LathNode where
  | bay (b : BayId)
  | hub (field : Nat)
  | plate
  deriving DecidableEq, Repr

/-- The classes of R165. -/
inductive LathClass where
  | peg
  | cmd
  | fault
  | reg
  | tele
  | load
  deriving DecidableEq, Repr

/-- A lath message (R166): class, the header's TYPE, DKIND and DEST, its payload words (LEN of them), and the node that sent it. -/
structure LathMsg where
  cls : LathClass
  type : BitVec 8
  dkind : BitVec 2
  dest : BitVec 12
  payload : List Word
  src : LathNode
  deriving DecidableEq, Repr

/-- A LOAD message (R170): its target (a bay, or every bay of a broadcast group), the address word, the payload words and
the CRC-32C word it carries. -/
structure LoadMsg where
  group : Option Nat
  bay : BayId
  addr : Word
  words : List Word
  crc : Word
  deriving DecidableEq, Repr

/-- The payload of a clock command (12_clocks R260). -/
structure ClockCmd where
  count : Nat
  fcode : BitVec 8
  stop : Bool
  deriving DecidableEq, Repr

/-- References that the plate watches (R248). -/
inductive Ref where
  | ref25
  | ref156
  | pcie (port : Nat)
  | oscillator
  deriving DecidableEq, Repr

/-- One direction of one scarf link of a seam: logical row or column 0-11 (12 names the seam's lath crossing and 13 its stretch-wave wires
where wires are named), and whether toward the higher field. -/
structure ScarfLink where
  seam : Nat
  line : Nat
  up : Bool
  deriving DecidableEq, Repr

/-- What the sounding of a rollback finds on a faulting route (15_faults R312). -/
inductive PathFinding where
  | nothing
  | wire (link : ScarfLink) (group : Nat)
  | router (b : BayId)
  deriving DecidableEq, Repr

/-- Telemetry that has reached the trellis since its last control loop (14_trellis R281, R283): what is not listed brought no update, as when
the lath lost its TELE message. The sample of the HV terminal (V, 10 mA, W); of each regulator phase or point-of-load rail its rail, phase,
mV and mA (rails 0-9 VFAB by field, 10-29 VSILL by cask, 30-49 VSTV, 50-69 VSTQ, 70-89 VSPP, 90-93 VAUX, VPLATE, VPHY, VCELD; phase 24 of
a VFAB rail is the vertical regulator); bay sensors as field, bent, physical position, degrees; sill sensors; plate and module sensors
with their warning limits; the coolant. -/
structure TrellisInputs where
  vin : Nat
  iin : Nat
  powerW : Nat
  rails : List (Nat × Nat × Nat × Nat)
  bayT : List (Nat × Nat × Nat × Nat)
  sillT : List (Nat × Nat)
  plateT : List (Nat × Nat × Nat)
  inletT : Option Nat
  outletT : Option Nat
  copiesAgree : Bool
  deriving DecidableEq, Repr

/-- What the body of a grain map holds for raising (00_scope R11, 03_bays R43, 13_power R272): holes by field, bent and physical position,
CAL in mV by field and bent, failed cell columns by field, bent, position, press and column. -/
structure GrainBody where
  holes : List (Nat × Nat × Nat)
  cals : List (Nat × Nat × Nat)
  columns : List (Nat × Nat × Nat × Nat × Nat)
  deriving DecidableEq, Repr

/-- What raising meets in one field (16_raising R338-R343): the outside world's part of a RAISE or of the fast path. epochBad counts the
epoch loads whose report differs from the master (12_clocks R247); a link of line 12 is a seam's lath crossing, of line 13 its
stretch-wave wires. slicesBad lists failed trim slices by bent and slice (13_power R273), leakMa and leakT are the leakage calibration and
the field's temperature at it (14_trellis R294). -/
structure FieldFindings where
  field : Nat
  softstartOk : Bool
  tripped : Bool
  pllOk : Bool
  structOk : Bool
  badBays : List (Nat × Nat)
  badColumns : List (Nat × Nat × Nat × Nat)
  slicesBad : List (Nat × Nat)
  epochBad : Nat
  wiresBad : List (ScarfLink × Nat)
  alignFail : List Nat
  microOk : Bool
  clearOk : Bool
  cellarFail : Option (Nat × Nat)
  memtestOk : Bool
  overrun : Option Nat
  models : List Nat
  leakMa : Nat
  leakT : Nat
  deriving DecidableEq, Repr

/-- Who sends a Cazer message (18_cazer R370, R401): a mailbox slot, an MSG entry (at bus address addr, its request at haddr) of a
slot's cut list, or an MCTP endpoint over the sideband. -/
inductive Requester where
  | slot (port : Nat) (slot : Nat) (tag : DWord)
  | entry (port : Nat) (slot : Nat) (haddr : Nat) (addr : Nat) (tag : DWord)
  | sideband (eid : Nat) (tag : DWord)
  deriving DecidableEq, Repr

/-- KIND of a cut-list entry (17_host R362). -/
inductive CutKind where
  | segIn
  | segOut
  | msg
  deriving DecidableEq, Repr

/-- One cut-list entry as the device reads it: the bus address addr where it stands, its fields, the bytes at HADDR that a SEG_IN
or a MSG reads from host memory, whether host memory answers (dmaOk), and what the sill's check finds in the beats that a SEG_IN writes, from
its first piece on (09_casks R175). -/
structure CutEntry where
  addr : Nat
  kind : BitVec 8
  eflag : BitVec 8
  len : Nat
  haddr : Nat
  daddr : Nat
  rsvZero : Bool
  data : Bytes
  dmaOk : Bool
  beats : List Ecc
  deriving DecidableEq, Repr

/-- rack.open's payload (18_cazer R383). -/
structure RackOpenF where
  stream : Nat
  tap : BitVec 8
  key : Nat
  peer : BitVec 128
  peerPort : Nat
  localPort : Nat
  rcask : Nat
  off : Nat
  len : Nat
  object : BitVec 128
  deriving DecidableEq, Repr

/-- tap.config's payload (R396). -/
structure TapConfigF where
  tap : BitVec 8
  mode : BitVec 8
  mtu : Nat
  mac : BitVec 48
  ipv6 : BitVec 128
  ipv4 : BitVec 32
  deriving DecidableEq, Repr

/-- sound.run's payload (R394) and what the test finds. -/
structure SoundF where
  kind : BitVec 8
  sflag : BitVec 8
  a : Nat
  b : Nat
  c : Nat
  pass : Bool
  deriving DecidableEq, Repr

/-- The outcome of a sounding that the outside world determines: the staves (of a stress sounding: the casks or the Cellarmaster pairs)
and the wires (of a channel: the channel when it fails again after retraining; of a stress sounding: the seams) that it finds failing. -/
structure SoundFinding where
  staves : List Nat
  wires : List Nat
  deriving DecidableEq, Repr

/-- An Ethernet frame that the MAC receives (19_tap R406, R407), with the fields that decide what becomes of it. The
checksums and tags that only the wire shows are given as found. -/
structure Frame where
  tap : Nat
  sub : Nat
  fcsOk : Bool
  fecCorrected : Nat
  fecUncorrected : Nat
  vlan : Bool
  len : Nat
  dst : BitVec 48
  src : BitVec 48
  etherType : BitVec 16
  ipOk : Bool
  fragment : Bool
  extHeader : Bool
  udpChecksumOk : Bool
  srcIp : BitVec 128
  dstIp : BitVec 128
  isUdp : Bool
  srcPort : Nat
  dstPort : Nat
  payload : Bytes
  deriving DecidableEq, Repr

/-- Where a rack datagram came from (R409): sub-link, peer address and UDP ports. -/
structure PeerAddr where
  tap : Nat
  sub : Nat
  ip : BitVec 128
  sport : Nat
  dport : Nat
  deriving DecidableEq, Repr

/-- A rack datagram's header (R409), as its 32 bytes read. -/
structure RackHdr where
  magic : BitVec 16
  version : BitVec 8
  type : BitVec 8
  rflag : BitVec 8
  key : BitVec 8
  len : Nat
  session : DWord
  seq : Nat
  arg : Nat
  rsv : Word
  hcrc : Word
  deriving DecidableEq, Repr

/-- Where a Pour frame came from (20_pour R422): a datagram on a sub-link, or a host's cut list. -/
inductive PourSource where
  | datagram (tap : Nat) (sub : Nat) (ip : BitVec 128) (sport : Nat)
  | cutList (port : Nat)
  deriving DecidableEq, Repr

/-- A MCTP bus (23_module R487). -/
inductive SideBus where
  | i3c
  | smbus
  deriving DecidableEq, Repr

/-- The reset groups of a host port in 17_host R368. -/
inductive PortReset where
  | perst
  | hotReset
  | linkDown
  deriving DecidableEq, Repr

/-- Who asserts THERMTRIP_N (23_module R485). -/
inductive TripSource where
  | bay (b : BayId)
  | sill (cask : Nat)
  | external
  deriving DecidableEq, Repr

/-- JTAG instructions (21_seal R456). -/
inductive JtagOp where
  | idcode
  | bypass
  | extest
  | samplePreload
  | internalScan
  | memoryAccess
  deriving DecidableEq, Repr


/-- A reader of counters (00_scope R7). -/
inductive Reader where
  | port (p : Nat)
  | cellarmaster
  deriving DecidableEq, Repr

/-- Event counters by the unit that keeps them (05_vats R101, 06 R129, 08 R172, 09 R201, 10 R222, 12 R263, 15 R324, 17
R359, 19 R418). -/
inductive CounterUnit where
  | bay (b : BayId) (i : Nat)
  | hub (field : Nat) (i : Nat)
  | plateHub (i : Nat)
  | cask (c : Nat) (i : Nat)
  | island (field : Nat) (i : Nat)
  | plateRef (i : Nat)
  | lost
  | mbxDropped (port : Nat)
  | subLink (tap : Nat) (sub : Nat) (i : Nat)
  deriving DecidableEq, Repr

/-- Which counter a low-word read reads (00_scope R7): the module's energy count, the dropped-slot counter of the port, an event counter
of a unit. -/
inductive CounterName where
  | telEnergy
  | mbxDropped
  | unit (u : CounterUnit)
  deriving DecidableEq, Repr

/-- The state that PARK names: fields by RAISE_CMD, or a parcel by a vintage draw with PARK (11_same_bits R240). -/
inductive ParkTarget where
  | fields (mask : BitVec 10)
  | parcel (p : Nat)
  deriving DecidableEq, Repr

/-- Why a stave is marked failing (09_casks R198). -/
inductive StaveCause where
  | symbolCount
  | confinedUe
  deriving DecidableEq, Repr

/-- What a bundle's issue meets (06 R129, 09 R175): the quarters of its fetch, and the beats of a CWR or CBW in it at the sill. -/
structure IssueFound where
  quarters : List Ecc
  beats : List Ecc
  deriving DecidableEq, Repr

/-- CWR with what the sill's check finds in its beats (07 R150, 09 R175). -/
structure RackWriteF where
  f : RackF
  beats : List Ecc
  deriving DecidableEq, Repr

/-- The channel group of a CBW with what the sills' check finds in its beats (07 R150, 09 R175, R190). -/
structure GroupWriteF where
  grp : BitVec 6
  beats : List Ecc
  deriving DecidableEq, Repr

/-- How a sill operation ends (10 R207, R219): whether its end count found work left, and what its reads of pieces met. -/
structure SillFound where
  late : Bool
  found : List (Nat × PieceErr)
  deriving DecidableEq, Repr

/-- A bay's own voltage at its struts (13 R274), in mV. -/
structure StrutSense where
  b : BayId
  localMv : Nat
  deriving DecidableEq, Repr

/-- The bytes of a host's write with what the sill's check finds in their beats (09 R175, 17 R355). -/
structure HostWrite where
  data : Bytes
  beats : List Ecc
  deriving DecidableEq, Repr

/-- A landed segment of a stream, with what the sill's check finds in its beats (09 R175, 19 R415). -/
structure LandedSeg where
  seq : Nat
  beats : List Ecc
  deriving DecidableEq, Repr

/-- Every command of the table, in its order but for those of chapters 11 to 14 and the rows added last, which stand at
the end: the runtime numbers constructors in a byte, and the model's code builds only commands before these. -/
inductive Instr where
  -- the sequencer (06_bay_sequencer)
  | bundleIssue (b : BayId) (ecc : IssueFound) (pegEcc : Ecc)
  | loop (b : BayId) (lm1 : BitVec 11) (nm1 : BitVec 12)
  | peg (b : BayId) (idx : BitVec 12) (phase : BitVec 8) (phv : Bool) (ecc : Ecc)
  | endPlan (b : BayId) (idx : BitVec 12) (phase : BitVec 8) (phv : Bool) (ecc : Ecc)
  | crush (b : BayId) (phase : BitVec 8) (lead : BitVec 16)
  | iset (b : BayId) (p : Pred) (i : BitVec 4) (imm : BitVec 20)
  | iseth (b : BayId) (p : Pred) (i : BitVec 4) (imm : BitVec 12)
  | istep (b : BayId) (p : Pred) (i : BitVec 4) (imm : BitVec 20)
  | ild (b : BayId) (p : Pred) (i : BitVec 4) (vs : BitVec 6) (lane : BitVec 7)
  | qset (b : BayId) (p : Pred) (q : BitVec 3) (bit : Bool)
  | qmask (b : BayId) (p : Pred) (q : BitVec 3) (mk : BitVec 3) (lane : BitVec 7)
  | qiter (b : BayId) (p : Pred) (q : BitVec 3) (level : BitVec 3) (last : Bool)
  | pegOverdue (b : BayId)
  -- presses (03_bays_and_presses)
  | lda (b : BayId) (p : Pred) (sel : PressSel) (f : LoadF)
  | ldb (b : BayId) (p : Pred) (sel : PressSel) (f : LoadF)
  | setup (b : BayId) (sel : PressSel) (f : SetupF)
  | kstep (b : BayId) (sel : PressSel) (ha : Bool) (hb : Bool)
  | cellAccumulate (b : BayId) (pr : BitVec 2) (i : Nat) (j : Nat)
  | shim (b : BayId) (sel : PressSel) (lm1 : BitVec 6) (nom : BitVec 4) (min : BitVec 4)
  | drain (b : BayId) (p : Pred) (sel : PressSel) (f : DrainF)
  | drainr (b : BayId) (p : Pred) (sel : PressSel) (f : DrainRF)
  | drainRowCapture (b : BayId) (pr : BitVec 2) (copiesAgree : Bool)
  | taste (b : BayId) (sel : PressSel) (prb : BitVec 2) (qb : BitVec 2)
  | tasteRowCompare (b : BayId)
  | mode (b : BayId) (pr : BitVec 2) (quart : Bool)
  | clrf (b : BayId) (pm : BitVec 4) (vf : Bool)
  -- the lathe (04_the_lathe)
  | iadd (b : BayId) (p : Pred) (f : LatheF)
  | isub (b : BayId) (p : Pred) (f : LatheF)
  | imul (b : BayId) (p : Pred) (f : LatheF)
  | iand (b : BayId) (p : Pred) (f : LatheF)
  | ior (b : BayId) (p : Pred) (f : LatheF)
  | ixor (b : BayId) (p : Pred) (f : LatheF)
  | ishl (b : BayId) (p : Pred) (f : LatheF)
  | ishr (b : BayId) (p : Pred) (f : LatheF)
  | isra (b : BayId) (p : Pred) (f : LatheF)
  | imin (b : BayId) (p : Pred) (f : LatheF)
  | imax (b : BayId) (p : Pred) (f : LatheF)
  | icmpEq (b : BayId) (p : Pred) (f : LatheF)
  | icmpLt (b : BayId) (p : Pred) (f : LatheF)
  | icmpLtu (b : BayId) (p : Pred) (f : LatheF)
  | mov (b : BayId) (p : Pred) (f : LatheF)
  | sel (b : BayId) (p : Pred) (f : LatheF)
  | bcast (b : BayId) (p : Pred) (f : LatheF)
  | movc (b : BayId) (p : Pred) (f : LatheF)
  | fabs (b : BayId) (p : Pred) (f : LatheF)
  | fneg (b : BayId) (p : Pred) (f : LatheF)
  | fadd (b : BayId) (p : Pred) (f : LatheF)
  | fsub (b : BayId) (p : Pred) (f : LatheF)
  | fmul (b : BayId) (p : Pred) (f : LatheF)
  | ffma (b : BayId) (p : Pred) (f : LatheF)
  | fmin (b : BayId) (p : Pred) (f : LatheF)
  | fmax (b : BayId) (p : Pred) (f : LatheF)
  | fcmpEq (b : BayId) (p : Pred) (f : LatheF)
  | fcmpLt (b : BayId) (p : Pred) (f : LatheF)
  | fcmpLe (b : BayId) (p : Pred) (f : LatheF)
  | cvtI2f (b : BayId) (p : Pred) (f : LatheF)
  | cvtF2i (b : BayId) (p : Pred) (f : LatheF)
  | cvtUnpack (b : BayId) (p : Pred) (f : LatheF)
  | cvtPack (b : BayId) (p : Pred) (f : LatheF)
  | frcp (b : BayId) (p : Pred) (f : LatheF)
  | fsqrt (b : BayId) (p : Pred) (f : LatheF)
  | frsqrt (b : BayId) (p : Pred) (f : LatheF)
  | fexp (b : BayId) (p : Pred) (f : LatheF)
  | fexp2 (b : BayId) (p : Pred) (f : LatheF)
  | flog (b : BayId) (p : Pred) (f : LatheF)
  | flog2 (b : BayId) (p : Pred) (f : LatheF)
  | ftanh (b : BayId) (p : Pred) (f : LatheF)
  | fsigm (b : BayId) (p : Pred) (f : LatheF)
  | fsilu (b : BayId) (p : Pred) (f : LatheF)
  | fgelus (b : BayId) (p : Pred) (f : LatheF)
  | fgelut (b : BayId) (p : Pred) (f : LatheF)
  | rsum (b : BayId) (p : Pred) (f : LatheF)
  | rmax (b : BayId) (p : Pred) (f : LatheF)
  | tclr (b : BayId) (p : Pred) (f : LatheF)
  | tacc (b : BayId) (p : Pred) (f : LatheF)
  | tmac (b : BayId) (p : Pred) (f : LatheF)
  | xsum (b : BayId) (p : Pred) (f : LatheF)
  | tsum (b : BayId) (p : Pred) (f : LatheF)
  | tloadc (b : BayId) (p : Pred) (f : LatheF)
  | tstore (b : BayId) (p : Pred) (f : LatheF)
  | tdrain (b : BayId) (p : Pred) (f : LatheF)
  | cgen (b : BayId) (p : Pred) (f : LatheF)
  | lfrd (b : BayId) (p : Pred) (f : LatheF)
  | lfclr (b : BayId) (p : Pred) (f : LatheF)
  | vld (b : BayId) (p : Pred) (f : LatheF)
  | vst (b : BayId) (p : Pred) (f : LatheF)
  | latheResultLand (b : BayId) (copiesAgree : Bool)
  -- the vat (05_vats)
  | vfillPattern (b : BayId) (p : Pred) (i : BitVec 4) (nm1 : BitVec 17)
  | vfillTun (b : BayId) (p : Pred) (i : BitVec 4) (nm1 : BitVec 17)
  | vcopy (b : BayId) (p : Pred) (i : BitVec 4) (nm1 : BitVec 17)
  | vmode (b : BayId) (bsel : BitVec 14) (mode : BitVec 3) (reg : Bool)
  | vpower (b : BayId) (bsel : BitVec 14) (state : BitVec 2) (reg : Bool)
  | bankSleep (b : BayId)
  | bankWake (b : BayId)
  -- racking and the sills (09_casks, 10_work_in_the_sills)
  | crd (b : BayId) (p : Pred) (f : RackF)
  | cwr (b : BayId) (p : Pred) (f : RackWriteF)
  | cbw (b : BayId) (p : Pred) (ci : BitVec 4) (vin : BitVec 4) (voff : BitVec 16) (lm1 : BitVec 6) (grp : GroupWriteF)
  | crdDelivery (b : BayId) (errs : List PieceErr)
  | gather (b : BayId) (p : Pred) (f : SopF)
  | scatter (b : BayId) (p : Pred) (f : SopF)
  | scatterAdd (b : BayId) (p : Pred) (f : SopF)
  | dotSweep (b : BayId) (p : Pred) (f : SopF)
  | softblend (b : BayId) (p : Pred) (f : SopF)
  | digest (b : BayId) (p : Pred) (f : SopF)
  | fill (b : BayId) (p : Pred) (f : SopF)
  | copy (b : BayId) (p : Pred) (f : SopF)
  | sillOpResult (b : BayId) (lanesAgree : Bool) (f : SillFound)
  -- the joist mesh and the lath (08_joist_mesh_and_lath)
  | send (b : BayId) (p : Pred) (f : RouteF)
  | recv (b : BayId) (p : Pred) (f : RouteF)
  | flitArrive (b : BayId) (flips : List Nat)
  | lathMessageReceive (node : LathNode) (m : LathMsg) (ecc : List Ecc)
  | pegCheck (parcel : Nat)
  | plan (m : LoadMsg)
  | pegtab (m : LoadMsg)
  | micro (m : LoadMsg)
  -- raising (16_raising)
  | claim (port : Nat)
  | verifyFw (port : Nat)
  | startCmst (port : Nat)
  | cmstReady
  | verifyConfig (port : Nat) (grainMap : Bytes) (body : GrainBody) (shortedHubs : List Nat)
  | raise (port : Nat) (fields : BitVec 10) (memtest : Bool) (found : List FieldFindings)
  | unpark (port : Nat) (fields : BitVec 10) (found : List FieldFindings)
  | raiseStepTimeout (field : Nat)
  | raiseDone (port : Nat)
  -- host ports (17_host_ports_and_mailboxes)
  | perstN (port : Nat) (kind : PortReset)
  | flr (port : Nat)
  | give (port : Nat) (slot : Nat) (hostMem : List (Nat × Byte))
  | bar2Write (port : Nat) (off : Nat) (d : HostWrite)
  | bar2Read (port : Nat) (off : Nat) (len : Nat)
  | bar2ReadTimeout (port : Nat) (off : Nat) (len : Nat)
  | segIn (port : Nat) (parcel : Nat) (e : CutEntry)
  | segOut (port : Nat) (parcel : Nat) (e : CutEntry)
  | msg (port : Nat) (slot : Nat) (e : CutEntry)
  | counterLowRead (r : Reader) (c : CounterName)
  | counterSatClear (u : CounterUnit) (sameCycleEvent : Bool)
  | registerWrite (port : Nat) (off : Nat) (value : Word)
  | trlFastCap (port : Nat) (value : Word)
  | fastCapEffect
  | prtFsw (port : Nat) (value : Word)
  | prtInjGo (port : Nat) (value : Word)
  | injection
  -- Cazer messages (18_cazer_messages)
  | sysInfo (rq : Requester)
  | sysPrincipalMove (rq : Requester) (newPort : Nat) (nonce : Bytes) (keyId : Nat) (sigR : Nat) (sigS : Nat)
  | parcelCreate (rq : Requester) (parcel : Nat) (owner : Nat) (c0 : Nat) (r0 : Nat) (w : Nat) (h : Nat)
      (taps : BitVec 8) (found : List FieldFindings)
  | parcelDelete (rq : Requester) (parcel : Nat)
  | parcelAssign (rq : Requester) (parcel : Nat) (owner : Nat)
  | parcelPark (rq : Requester) (parcel : Nat)
  | parcelResume (rq : Requester) (parcel : Nat) (found : List FieldFindings)
  | parcelStatus (rq : Requester) (parcel : Nat)
  | imageLoad (rq : Requester) (parcel : Nat) (imageBytes : Nat) (stream : Bytes) (crcSeen : List (BayId × List Word))
  | imageUnload (rq : Requester) (parcel : Nat)
  | imageInfo (rq : Requester) (parcel : Nat) (cut : Option CutEntry)
  | caskWindowSet (rq : Requester) (parcel : Nat) (page : Nat) (rcask : Nat) (offGib : Nat)
  | caskWindowClear (rq : Requester) (parcel : Nat) (page : Nat)
  | caskTransfer (rq : Requester) (parcel : Nat) (cut : List CutEntry)
  | caskRegionClose (rq : Requester) (parcel : Nat) (rcask : Nat) (base : Nat)
  | regionDigestDone (cask : Nat) (base : Nat)
  | caskStaveFail (rq : Requester) (cask : Nat) (stave : Nat)
  | caskStatus (rq : Requester) (parcel : Nat) (cask : Nat)
  | staveFailing (cask : Nat) (stave : Nat) (cause : StaveCause)
  | staveSpared (cask : Nat)
  | restStarved (cask : Nat) (forced : Nat) (delays : Bool)
  | vatRetentionScrub (b : BayId) (ce : List Nat) (ue : List Nat)
  | planScrub (b : BayId) (ce : Nat) (ue : Nat)
  | patrolScrub (cask : Nat) (off : Nat) (err : PieceErr)
  | rackOpen (rq : Requester) (parcel : Nat) (f : RackOpenF)
  | rackClose (rq : Requester) (parcel : Nat) (stream : Nat)
  | rackStatus (rq : Requester) (parcel : Nat) (stream : Nat)
  | runStart (rq : Requester) (parcel : Nat) (runKey : BitVec 128) (imageDigest : BitVec 384)
  | runAbort (rq : Requester) (parcel : Nat) (serial : Nat)
  | runResult (rq : Requester) (parcel : Nat) (serial : Nat)
  | vintageDrawRequest (rq : Requester) (parcel : Nat)
  | vintageExport (rq : Requester) (parcel : Nat) (vflag : BitVec 8) (stream : Nat) (cut : List CutEntry)
  | vintageRestore (rq : Requester) (parcel : Nat) (stream : Bytes)
  | vintageStatus (rq : Requester) (parcel : Nat)
  | powerCapSet (rq : Requester) (capW : Nat) (pflag : Word)
  | powerShareSet (rq : Requester) (parcel : Nat) (weight : Nat) (floorW : Nat)
  | powerLeaseSet (rq : Requester) (capW : Nat) (durationS : Nat) (expiryCapW : Nat)
  | powerContractSet (rq : Requester) (targetW : Nat) (rateUp : Nat) (deadlineNs : Nat)
  | powerForecast (rq : Requester)
  | powerStatus (rq : Requester)
  | powerSidebandSet (rq : Requester) (eid : Nat)
  | soundRun (rq : Requester) (parcel : Nat) (f : SoundF) (found : SoundFinding)
  | faultLog (rq : Requester) (fromSeq : Nat) (max : Nat) (cut : Option CutEntry)
  | faultSummary (rq : Requester)
  | faultLogClear (rq : Requester) (cflag : Word)
  | faultCounters (rq : Requester) (parcel : Nat) (unit : BitVec 8) (x : Nat) (y : Nat) (idx : Nat)
  | tapConfig (rq : Requester) (parcel : Nat) (f : TapConfigF)
  | tapKeySet (rq : Requester) (parcel : Nat) (key : Nat) (keyBytes : Bytes)
  | tapStatus (rq : Requester) (parcel : Nat) (tap : BitVec 8)
  -- tap links (19_tap_links)
  | tapLinkChange (tap : Nat) (sub : Nat) (up : Bool)
  | frameReceive (f : Frame)
  | arpRequest (tap : Nat) (sub : Nat) (srcMac : BitVec 48) (srcIp : BitVec 32) (target : BitVec 32)
  | neighbourSolicitation (tap : Nat) (sub : Nat) (srcMac : BitVec 48) (srcIp : BitVec 128) (target : BitVec 128)
  | echoRequest (tap : Nat) (sub : Nat) (v6 : Bool) (srcIp : BitVec 128) (dstIp : BitVec 128) (body : Bytes)
  | readReq (a : PeerAddr) (h : RackHdr) (object : BitVec 128) (total : Nat) (count : Nat)
  | data (a : PeerAddr) (h : RackHdr) (body : Bytes)
  | sack (a : PeerAddr) (h : RackHdr) (bitmap : BitVec 256)
  | credit (a : PeerAddr) (h : RackHdr)
  | fail (a : PeerAddr) (h : RackHdr)
  | offer (parcel : Nat) (stream : Nat)
  | segmentLanded (parcel : Nat) (stream : Nat) (seg : LandedSeg)
  | rackCreditTimer (parcel : Nat) (stream : Nat) (sackTimer : Bool)
  | rackRerequest (parcel : Nat) (stream : Nat) (seq : Nat)
  | rackBusyRetry (parcel : Nat) (stream : Nat)
  | offerResend (parcel : Nat) (stream : Nat)
  -- the Pour service (20_pour_service)
  | pourStart (rq : Requester) (parcel : Nat) (udpPort : Nat) (maxSeq : Nat) (taps : BitVec 8)
  | pourStop (rq : Requester) (parcel : Nat) (sflag : BitVec 8)
  | pourSubmit (rq : Requester) (parcel : Nat) (frames : Bytes)
  | pourCancel (rq : Requester) (parcel : Nat) (ids : List Nat)
  | pourStatus (rq : Requester) (parcel : Nat)
  | pourLabel (rq : Requester) (parcel : Nat) (seqId : Nat)
  | request (parcel : Nat) (src : PourSource) (frame : Bytes)
  | append (parcel : Nat) (src : PourSource) (frame : Bytes)
  | cancelFrame (parcel : Nat) (src : PourSource) (frame : Bytes)
  | fetch (parcel : Nat) (src : PourSource) (frame : Bytes)
  | pourIncompleteTimeout (parcel : Nat) (seqId : Nat)
  | pourStepStart (parcel : Nat)
  | pourStepEnd (parcel : Nat)
  -- the seal (21_seal_and_licences)
  | sealAttest (rq : Requester) (nonce : Bytes)
  | sealCertGet (rq : Requester) (cut : Option CutEntry)
  | sealLicenceInstall (rq : Requester) (licence : Bytes)
  | sealKeysAdd (rq : Requester) (keyId : Nat) (use : Word) (pubkey : Bytes)
  | sealKeysRemove (rq : Requester) (keyId : Nat)
  | sealKeysList (rq : Requester)
  | sealDebugUnlock (rq : Requester) (token : Bytes)
  | perturbEnable (rq : Requester) (parcel : Nat)
  | perturbDisable (rq : Requester) (parcel : Nat)
  -- module hardware (23_module_hardware) and the rows added last
  | setEndpointId (bus : SideBus) (eid : BitVec 8)
  | linkUp (port : Nat) (speed : BitVec 4) (width : BitVec 4) (refclk : Bool)
  | d3hot (port : Nat) (enter : Bool)
  | stagingWindowWrite (port : Nat) (off : Nat) (data : Bytes)
  | slotWrite (port : Nat) (slot : Nat) (off : Nat) (data : Bytes)
  | pluggablePresence (tap : Nat) (present : Bool) (copper : Bool) (identified : Bool)
  | regExchangeRetry (node : LathNode)
  | summaryWrite
  | hvEnHoldEnd
  | stretchInjection
  | jtagInstruction (op : JtagOp)
  | setdasa (dynamicAddr : BitVec 7) (enter : Bool)
  -- holds, vintages, invocations (11_same_bits_same_count)
  | stopDecision (parcel : Nat)
  | parcelStop (parcel : Nat)
  | restart (parcel : Nat) (lead : Nat)
  | stopResume (parcel : Nat)
  | vintageValid (parcel : Nat)
  | park (t : ParkTarget)
  | invocationStart (parcel : Nat)
  | invocationComplete (parcel : Nat)
  | labelSigned
  | rollback (parcel : Nat) (found : PathFinding)
  | cmstLockstep (pair : Nat)
  | sealLockstep
  | entropyHealthFail
  -- clocks (12_clocks_and_crossings)
  | switch (field : Nat) (c : ClockCmd)
  | cancel (field : Nat) (c : ClockCmd)
  | align (seam : Nat) (epoch : Nat)
  | epochLoad (field : Nat) (epoch : Nat)
  | alignCheck (seam : Nat) (sigmas : List Int)
  | switchUnlocked (field : Nat)
  | switchAtCount (field : Nat)
  | switched (field : Nat)
  | stretchLocal (field : Nat)
  | stretchWave (field : Nat)
  | crossingOverrun (link : ScarfLink) (sigma : Int)
  | refLoss (r : Ref)
  | refRestored (r : Ref)
  | ptmExchange (offsetNs : Int)
  -- power (13_power_delivery)
  | hvEnAssert
  | hvEnDeassert
  | plateResetExit
  | modResetN (widthNs : Nat)
  | thermtripN (src : TripSource)
  | inputLoss (pulled : Bool)
  | inputReturned
  | inputRestored
  | rideThroughEnd
  | converterDegraded (k : Nat)
  | busCollapse
  | insulationCheck (plusKohm : Nat) (minusKohm : Nat)
  | phaseDegraded (field : Nat) (phase : Nat)
  | fallbackActive (field : Nat)
  | verticalDegraded (field : Nat)
  | trimDegraded (field : Nat) (bent : Nat) (slice : Nat)
  | bentRetired (field : Nat) (bent : Nat) (slice : Nat)
  | strutInject (x : StrutSense)
  | crackCheck (field : Nat) (drops : List (Nat × Nat)) (currents : List (Nat × Nat))
  | fieldShort (field : Nat)
  | fieldSupplyLost (field : Nat)
  | plateLathLost
  -- the trellis (14_trellis_power_control)
  | trellisControlLoop (t : TrellisInputs)
  | trellisReload
  | forecastPublish
  | phaseLearn (parcel : Nat)
  | crushHint (parcel : Nat) (phase : BitVec 8) (count : Nat)
  | leaseExpired
  | contractMissed (lessee : Bool)
  deriving DecidableEq, Repr

end Sys2Proof
end

