-- ==== Sys2Proof/WellFormed.lean ====
section
/-! DEFINITION. Which commands are well formed: the bay exists on the grid, and a bay instruction holds no reserved value, no
value its layout forbids, and 0 in every field it does not use (07_bay_instructions R132-R151). A slot that breaks R132 issues
as a NOP; the same check reads both a fetched slot and an instruction commanded on its own. -/

namespace Sys2Proof
open Sys2Proof.Machine

/-- The bay lies on the 60 x 24 grid (00_scope R11). -/
def BayId.ok (b : BayId) : Bool := decide (b.x < 60) && decide (b.y < 24)

/-- QT is used only when QE is 1 (07 R135). -/
def PressSel.ok (s : PressSel) : Bool := s.qe || s.qt == 0#2

/-- A format of R18 that is MX. -/
def mxFmt (f : BitVec 4) : Bool := fmtOk f && (fmtP f).isMx

/-- LDA, LDB (07 R137, 03 R52): a known format, SOFF 0 without scales, no FP32 quarter panel. -/
def LoadF.ok (s : PressSel) (f : LoadF) : Bool :=
  s.ok && fmtOk f.fmt && (mxFmt f.fmt || f.soff == 0#19) && !(s.qe && f.fmt == 0#4)

/-- An anchor of R25. -/
def anchorOk (a : Int) : Bool := decide (-192 ≤ a) && decide (a ≤ 63)

/-- SETUP (07 R138). -/
def SetupF.ok (s : PressSel) (f : SetupF) : Bool :=
  s.ok && fmtOk f.fmtA && fmtOk f.fmtB && !(s.qe && (f.fmtA == 0#4 || f.fmtB == 0#4)) &&
  (if f.dflt then f.anch == 0#9 && (defaultAnchor f.fmtA f.fmtB).isSome else anchorOk f.anch.toInt)

/-- DRAIN (07 R141, 03 R52): SOFF 0 without scales, no MX quarter drain. -/
def DrainF.ok (s : PressSel) (f : DrainF) : Bool :=
  s.ok && fmtOk f.fmt && (mxFmt f.fmt || f.soff == 0#8) && !(s.qe && mxFmt f.fmt)

/-- The fields a lathe instruction uses (07 R145); a three-bit use names a mask or a lane tun. -/
structure LUse where
  usesMk : Bool
  d : Nat
  a : Nat
  b : Nat
  c : Nat
  ext : Nat
  deriving DecidableEq, Repr

/-- Every field fits in the number of bits its instruction uses of it. -/
def LatheF.fits (f : LatheF) (u : LUse) : Bool :=
  (u.usesMk || f.msk == 0#3) && decide (f.vd.toNat < 2 ^ u.d) && decide (f.va.toNat < 2 ^ u.a) && decide (f.vb.toNat < 2 ^ u.b) &&
  decide (f.vc.toNat < 2 ^ u.c) && decide (f.ext.toNat < 2 ^ u.ext)

def useD : LUse := { usesMk := false, d := 6, a := 0, b := 0, c := 0, ext := 0 }
def useDA : LUse := { usesMk := true, d := 6, a := 6, b := 0, c := 0, ext := 0 }
def useDAB : LUse := { usesMk := true, d := 6, a := 6, b := 6, c := 0, ext := 0 }
def useCmp : LUse := { usesMk := true, d := 3, a := 6, b := 6, c := 0, ext := 0 }

/-- CGEN's register groups (04 R82): multiples of 4 that do not overlap VD's group. -/
def LatheF.cgenOk (f : LatheF) : Bool :=
  f.fits useDAB && f.vd.toNat % 4 == 0 && f.va.toNat % 4 == 0 && f.vb.toNat % 4 == 0 && f.vd != f.va && f.vd != f.vb

/-- A MOVER selector in mask form has bits 21:12 at 0 (07 R148). -/
def selOk (bsel : BitVec 14) (reg : Bool) : Bool := !reg || decide (bsel.toNat < 16)

/-- CI is even (07 R150). -/
def ciOk (ci : BitVec 4) : Bool := ci.toNat % 2 == 0

/-- Is a command well formed? Commands other than bay instructions are judged by their own meanings. -/
def Instr.wf : Instr → Bool
  | .bundleIssue b _ _ => b.ok
  | .loop b _ _ => b.ok
  | .peg b _ _ _ _ => b.ok
  | .endPlan b _ _ _ _ => b.ok
  | .crush b _ lead => b.ok && decide (0x100 ≤ lead.toNat)
  | .iset b _ _ _ => b.ok
  | .iseth b _ _ _ => b.ok
  | .istep b _ _ _ => b.ok
  | .ild b _ _ _ _ => b.ok
  | .qset b _ _ _ => b.ok
  | .qmask b _ _ _ _ => b.ok
  | .qiter b _ _ _ _ => b.ok
  | .pegOverdue b => b.ok
  | .lda b _ s f => b.ok && f.ok s
  | .ldb b _ s f => b.ok && f.ok s
  | .setup b s f => b.ok && f.ok s
  | .kstep b s _ _ => b.ok && s.ok
  | .cellAccumulate b _ i j => b.ok && decide (i < 32) && decide (j < 32)
  | .shim b s _ nom min => b.ok && s.ok && decide (min.toNat ≤ nom.toNat)
  | .drain b _ s f => b.ok && f.ok s
  | .drainr b _ s _ => b.ok && s.ok
  | .drainRowCapture b _ _ => b.ok
  | .taste b s prb qb => b.ok && s.ok && (s.qe || qb == 0#2) && prb != s.pr
  | .tasteRowCompare b => b.ok
  | .mode b _ _ => b.ok
  | .clrf b _ _ => b.ok
  | .iadd b _ f | .isub b _ f | .imul b _ f | .iand b _ f | .ior b _ f | .ixor b _ f | .ishl b _ f | .ishr b _ f
  | .isra b _ f | .imin b _ f | .imax b _ f => b.ok && f.fits useDAB
  | .icmpEq b _ f | .icmpLt b _ f | .icmpLtu b _ f => b.ok && f.fits useCmp
  | .mov b _ f => b.ok && f.fits useDA
  | .sel b _ f => b.ok && f.fits { useDAB with c := 3 }
  | .bcast b _ f => b.ok && f.fits { useDA with ext := 7 }
  | .movc b _ f => b.ok && f.fits { useDA with a := 0, ext := 3 } && decide (f.ext.toNat ≤ 4)
  | .fabs b _ f | .fneg b _ f => b.ok && f.fits useDA
  | .fadd b _ f | .fsub b _ f | .fmul b _ f => b.ok && f.fits useDAB
  | .ffma b _ f => b.ok && f.fits { useDAB with c := 6 }
  | .fmin b _ f | .fmax b _ f => b.ok && f.fits useDAB
  | .fcmpEq b _ f | .fcmpLt b _ f | .fcmpLe b _ f => b.ok && f.fits useCmp
  | .cvtI2f b _ f => b.ok && f.fits useDA
  | .cvtF2i b _ f => b.ok && f.fits { useDA with b := 2 }
  | .cvtUnpack b _ f => b.ok && f.fits { useDA with b := 4 } && fmtOk (BitVec.ofNat 4 f.vb.toNat)
  | .cvtPack b _ f => b.ok && f.fits { useDA with b := 6, c := 1, ext := 7 } && fmtOk (BitVec.ofNat 4 f.vb.toNat)
  | .frcp b _ f | .fsqrt b _ f | .frsqrt b _ f | .fexp b _ f | .fexp2 b _ f | .flog b _ f | .flog2 b _ f | .ftanh b _ f
  | .fsigm b _ f | .fsilu b _ f | .fgelus b _ f | .fgelut b _ f | .rsum b _ f | .rmax b _ f => b.ok && f.fits useDA
  | .tclr b _ f => b.ok && f.fits { useD with d := 3, ext := 9 } && anchorOk (signedOf 9 f.ext.toNat)
  | .tacc b _ f => b.ok && f.fits { useDA with d := 3 }
  | .tmac b _ f => b.ok && f.fits { useDAB with d := 3 }
  | .xsum b _ f => b.ok && f.fits { useDA with d := 3 }
  | .tsum b _ f => b.ok && f.fits { useD with d := 3, a := 3 }
  | .tloadc b _ f => b.ok && f.fits { useD with d := 3, b := 4, c := 6, ext := 10 }
  | .tstore b _ f => b.ok && f.fits { useD with d := 0, a := 3, b := 4, c := 6, ext := 10 }
  | .tdrain b _ f =>
    b.ok && f.fits { useDA with a := 3, b := 6, c := 1, ext := 7 } && fmtOk (BitVec.ofNat 4 f.vb.toNat)
      && !(mxFmt (BitVec.ofNat 4 f.vb.toNat))
  | .cgen b _ f => b.ok && f.cgenOk
  | .lfrd b _ f => b.ok && f.fits useD
  | .lfclr b _ f => b.ok && f.fits { useD with d := 0 }
  | .vld b _ f => b.ok && f.fits { useD with b := 4, c := 6, ext := 10 }
  | .vst b _ f => b.ok && f.fits { useD with d := 0, a := 6, b := 4, c := 6, ext := 10 }
  | .latheResultLand b _ => b.ok
  | .vfillPattern b _ _ _ | .vfillTun b _ _ _ | .vcopy b _ _ _ => b.ok
  | .vmode b bsel md reg => b.ok && selOk bsel reg && decide (md.toNat ≤ 4)
  | .vpower b bsel _ reg => b.ok && selOk bsel reg
  | .bankSleep b | .bankWake b => b.ok
  | .crd b _ f => b.ok && ciOk f.ci
  | .cwr b _ f => b.ok && ciOk f.f.ci
  | .cbw b _ ci _ _ _ _ => b.ok && ciOk ci
  | .crdDelivery b _ => b.ok
  | .gather b _ _ | .scatter b _ _ | .scatterAdd b _ _ | .dotSweep b _ _ | .softblend b _ _ | .digest b _ _ | .fill b _ _
  | .copy b _ _ => b.ok
  | .sillOpResult b _ _ => b.ok
  | .send b _ _ | .recv b _ _ => b.ok
  | .flitArrive b _ => b.ok
  | .lathMessageReceive .. | .pegCheck .. | .plan .. | .pegtab .. | .micro .. | .stopDecision .. | .parcelStop .. | .restart ..
  | .stopResume .. | .vintageValid .. | .park .. | .invocationStart .. | .invocationComplete .. | .labelSigned .. | .rollback ..
  | .cmstLockstep .. | .sealLockstep .. | .entropyHealthFail .. | .switch .. | .cancel .. | .align .. | .epochLoad ..
  | .alignCheck .. | .switchUnlocked .. | .switchAtCount .. | .switched .. | .stretchLocal .. | .stretchWave ..
  | .crossingOverrun .. | .refLoss .. | .refRestored .. | .ptmExchange .. | .hvEnAssert .. | .hvEnDeassert ..
  | .plateResetExit .. | .modResetN .. | .thermtripN .. | .inputLoss .. | .inputReturned .. | .inputRestored ..
  | .rideThroughEnd .. | .converterDegraded .. | .busCollapse .. | .insulationCheck .. | .phaseDegraded .. | .fallbackActive ..
  | .verticalDegraded .. | .trimDegraded .. | .bentRetired .. | .strutInject .. | .crackCheck .. | .fieldShort ..
  | .fieldSupplyLost .. | .plateLathLost .. | .trellisControlLoop .. | .trellisReload .. | .forecastPublish .. | .phaseLearn ..
  | .crushHint .. | .leaseExpired .. | .contractMissed .. | .claim .. | .verifyFw .. | .startCmst .. | .cmstReady ..
  | .verifyConfig .. | .raise .. | .unpark .. | .raiseStepTimeout .. | .raiseDone .. | .perstN .. | .flr .. | .give ..
  | .bar2Write .. | .bar2Read .. | .bar2ReadTimeout .. | .segIn .. | .segOut .. | .msg .. | .counterLowRead ..
  | .counterSatClear .. | .registerWrite .. | .trlFastCap .. | .fastCapEffect .. | .prtFsw .. | .prtInjGo .. | .injection ..
  | .sysInfo .. | .sysPrincipalMove .. | .parcelCreate .. | .parcelDelete .. | .parcelAssign .. | .parcelPark ..
  | .parcelResume .. | .parcelStatus .. | .imageLoad .. | .imageUnload .. | .imageInfo .. | .caskWindowSet ..
  | .caskWindowClear .. | .caskTransfer .. | .caskRegionClose .. | .regionDigestDone .. | .caskStaveFail .. | .caskStatus ..
  | .staveFailing .. | .staveSpared .. | .restStarved .. | .vatRetentionScrub .. | .planScrub .. | .patrolScrub .. | .rackOpen ..
  | .rackClose .. | .rackStatus .. | .runStart .. | .runAbort .. | .runResult .. | .vintageDrawRequest .. | .vintageExport ..
  | .vintageRestore .. | .vintageStatus .. | .powerCapSet .. | .powerShareSet .. | .powerLeaseSet .. | .powerContractSet ..
  | .powerForecast .. | .powerStatus .. | .powerSidebandSet .. | .soundRun .. | .faultLog .. | .faultSummary ..
  | .faultLogClear .. | .faultCounters .. | .tapConfig .. | .tapKeySet .. | .tapStatus .. | .tapLinkChange .. | .frameReceive ..
  | .arpRequest .. | .neighbourSolicitation .. | .echoRequest .. | .readReq .. | .data .. | .sack .. | .credit .. | .fail ..
  | .offer .. | .segmentLanded .. | .rackCreditTimer .. | .rackRerequest .. | .rackBusyRetry .. | .offerResend .. | .pourStart ..
  | .pourStop .. | .pourSubmit .. | .pourCancel .. | .pourStatus .. | .pourLabel .. | .request .. | .append .. | .cancelFrame ..
  | .fetch .. | .pourIncompleteTimeout .. | .pourStepStart .. | .pourStepEnd .. | .sealAttest .. | .sealCertGet ..
  | .sealLicenceInstall .. | .sealKeysAdd .. | .sealKeysRemove .. | .sealKeysList .. | .sealDebugUnlock .. | .perturbEnable ..
  | .perturbDisable .. | .setEndpointId .. | .linkUp .. | .d3hot .. | .stagingWindowWrite .. | .slotWrite ..
  | .pluggablePresence .. | .regExchangeRetry .. | .summaryWrite .. | .hvEnHoldEnd .. | .stretchInjection ..
  | .jtagInstruction .. | .setdasa .. => true

end Sys2Proof
end

