-- ==== Sys2Proof/Decode.lean ====
section
/-! DEFINITION. Reading a bundle's six slots (06_bay_sequencer R107, 07_bay_instructions R132-R151), and the host's
decodeTableWord. The table of operations gives no row any bits, so no word spells a command; the bits of the bay instructions
are those of their slots. -/

namespace Sys2Proof
open Sys2Proof.Machine

/-- Bits hi..lo of a slot. -/
def slotBits (w lo n : Nat) : Nat := bitsOf w lo n

/-- The bundle's slots (06 R107). -/
def ctrlSlot (w : BitVec 256) : Nat := bitsOf w.toNat 0 32
def pressSlot (w : BitVec 256) : Nat := bitsOf w.toNat 32 64
def latheSlot (w : BitVec 256) : Nat := bitsOf w.toNat 96 48
def moverSlot (w : BitVec 256) : Nat := bitsOf w.toNat 144 32
def rackSlot (w : BitVec 256) : Nat := bitsOf w.toNat 176 48
def routeSlot (w : BitVec 256) : Nat := bitsOf w.toNat 224 32

/-- PRED (06 R108). -/
def slotPred (w : Nat) : Pred := { q := BitVec.ofNat 3 w, qn := bitsOf w 3 1 == 1 }

/-- Keep an instruction that the checks of R132 pass. -/
def keepWf (i : Instr) : Option Instr := if i.wf then some i else none

/-- An instruction that is never predicated carries PRED 0 (06 R117, R120). -/
def unpred (w : Nat) (o : Option Instr) : Option Instr := if bitsOf w 0 4 == 0 then o else none

/-- A field that must be 0. -/
def zeroAbove (w lo n : Nat) (o : Option Instr) : Option Instr := if bitsOf w lo n == 0 then o else none

/-- CTRL (07 R134). e and pe are what the error-correcting code finds on the peg table entry. -/
def decodeCtrl (b : BayId) (pe : Ecc) (w : Nat) : Option Instr :=
  let p := slotPred w
  let i4 := BitVec.ofNat 4 (slotBits w 8 4)
  match slotBits w 4 4 with
  | 1 => unpred w (zeroAbove w 31 1 (keepWf (.loop b (BitVec.ofNat 11 (slotBits w 8 11)) (BitVec.ofNat 12 (slotBits w 19 12)))))
  | 2 => unpred w (zeroAbove w 29 3 (keepWf
      (.peg b (BitVec.ofNat 12 (slotBits w 8 12)) (BitVec.ofNat 8 (slotBits w 20 8)) (slotBits w 28 1 == 1) pe)))
  | 3 => unpred w (zeroAbove w 29 3 (keepWf
      (.endPlan b (BitVec.ofNat 12 (slotBits w 8 12)) (BitVec.ofNat 8 (slotBits w 20 8)) (slotBits w 28 1 == 1) pe)))
  | 4 => unpred w (keepWf (.crush b (BitVec.ofNat 8 (slotBits w 8 8)) (BitVec.ofNat 16 (slotBits w 16 16))))
  | 5 => keepWf (.iset b p i4 (BitVec.ofNat 20 (slotBits w 12 20)))
  | 6 => zeroAbove w 24 8 (keepWf (.iseth b p i4 (BitVec.ofNat 12 (slotBits w 12 12))))
  | 7 => keepWf (.istep b p i4 (BitVec.ofNat 20 (slotBits w 12 20)))
  | 8 => zeroAbove w 25 7 (keepWf (.ild b p i4 (BitVec.ofNat 6 (slotBits w 12 6)) (BitVec.ofNat 7 (slotBits w 18 7))))
  | 9 => zeroAbove w 12 20 (keepWf (.qset b p (BitVec.ofNat 3 (slotBits w 8 3)) (slotBits w 11 1 == 1)))
  | 10 => zeroAbove w 21 11 (keepWf
      (.qmask b p (BitVec.ofNat 3 (slotBits w 8 3)) (BitVec.ofNat 3 (slotBits w 11 3)) (BitVec.ofNat 7 (slotBits w 14 7))))
  | 11 => zeroAbove w 15 17 (keepWf
      (.qiter b p (BitVec.ofNat 3 (slotBits w 8 3)) (BitVec.ofNat 3 (slotBits w 11 3)) (slotBits w 14 1 == 1)))
  | _ => none

/-- The press that a PRESS slot names (07 R135). -/
def slotSel (w : Nat) : PressSel :=
  { pr := BitVec.ofNat 2 (slotBits w 8 2), qt := BitVec.ofNat 2 (slotBits w 10 2), qe := slotBits w 12 1 == 1 }

/-- Fields of LDA and LDB. -/
def slotLoad (w : Nat) : LoadF :=
  { half := slotBits w 13 1 == 1, i := BitVec.ofNat 4 (slotBits w 14 4), off := BitVec.ofNat 17 (slotBits w 18 17),
    fmt := BitVec.ofNat 4 (slotBits w 35 4), soff := BitVec.ofNat 19 (slotBits w 39 19) }

/-- PRESS (07 R136). -/
def decodePress (b : BayId) (w : Nat) : Option Instr :=
  let p := slotPred w
  let s := slotSel w
  match slotBits w 4 4 with
  | 1 => zeroAbove w 58 6 (keepWf (.lda b p s (slotLoad w)))
  | 2 => zeroAbove w 58 6 (keepWf (.ldb b p s (slotLoad w)))
  | 3 => unpred w (zeroAbove w 47 17 (keepWf (.setup b s
      { fmtA := BitVec.ofNat 4 (slotBits w 13 4), fmtB := BitVec.ofNat 4 (slotBits w 17 4), anch := BitVec.ofNat 9 (slotBits w 21 9),
        dflt := slotBits w 30 1 == 1, npM1 := BitVec.ofNat 15 (slotBits w 31 15), auto := slotBits w 46 1 == 1 })))
  | 4 => unpred w (zeroAbove w 15 49 (keepWf (.kstep b s (slotBits w 13 1 == 1) (slotBits w 14 1 == 1))))
  | 5 => unpred w (zeroAbove w 27 37 (keepWf (.shim b s (BitVec.ofNat 6 (slotBits w 13 6)) (BitVec.ofNat 4 (slotBits w 19 4))
      (BitVec.ofNat 4 (slotBits w 23 4)))))
  | 6 => keepWf (.drain b p s
      { fmt := BitVec.ofNat 4 (slotBits w 13 4), rm := BitVec.ofNat 2 (slotBits w 17 2), sat := slotBits w 19 1 == 1,
        dsc := BitVec.ofNat 7 (slotBits w 20 7), i := BitVec.ofNat 4 (slotBits w 27 4), off := BitVec.ofNat 17 (slotBits w 31 17),
        str := BitVec.ofNat 8 (slotBits w 48 8), soff := BitVec.ofNat 8 (slotBits w 56 8) })
  | 7 => zeroAbove w 42 22 (keepWf (.drainr b p s
      { i := BitVec.ofNat 4 (slotBits w 13 4), off := BitVec.ofNat 17 (slotBits w 17 17), str := BitVec.ofNat 8 (slotBits w 34 8) }))
  | 8 => unpred w (zeroAbove w 17 47 (keepWf (.taste b s (BitVec.ofNat 2 (slotBits w 13 2)) (BitVec.ofNat 2 (slotBits w 15 2)))))
  | 9 => unpred w (zeroAbove w 14 50 (zeroAbove w 10 3 (keepWf (.mode b s.pr (slotBits w 13 1 == 1)))))
  | 10 => unpred w (zeroAbove w 18 46 (zeroAbove w 8 5 (keepWf (.clrf b (BitVec.ofNat 4 (slotBits w 13 4)) (slotBits w 17 1 == 1)))))
  | _ => none

/-- Fields of the LATHE slot (07 R144). -/
def slotLathe (w : Nat) : LatheF :=
  { msk := BitVec.ofNat 3 (slotBits w 11 3), vd := BitVec.ofNat 6 (slotBits w 14 6), va := BitVec.ofNat 6 (slotBits w 20 6),
    vb := BitVec.ofNat 6 (slotBits w 26 6), vc := BitVec.ofNat 6 (slotBits w 32 6), ext := BitVec.ofNat 10 (slotBits w 38 10) }

/-- The lathe instruction of an operation code (07 R145), codes 0x01 to 0x20. -/
def latheOpLow (b : BayId) (p : Pred) (f : LatheF) (opc : Nat) : Option Instr :=
  match opc with
  | 0x01 => some (.iadd b p f) | 0x02 => some (.isub b p f) | 0x03 => some (.imul b p f) | 0x04 => some (.iand b p f)
  | 0x05 => some (.ior b p f) | 0x06 => some (.ixor b p f) | 0x07 => some (.ishl b p f) | 0x08 => some (.ishr b p f)
  | 0x09 => some (.isra b p f) | 0x0A => some (.imin b p f) | 0x0B => some (.imax b p f) | 0x0C => some (.icmpEq b p f)
  | 0x0D => some (.icmpLt b p f) | 0x0E => some (.icmpLtu b p f) | 0x10 => some (.mov b p f) | 0x11 => some (.sel b p f)
  | 0x12 => some (.bcast b p f) | 0x13 => some (.movc b p f) | 0x14 => some (.fabs b p f) | 0x15 => some (.fneg b p f)
  | 0x18 => some (.fadd b p f) | 0x19 => some (.fsub b p f) | 0x1A => some (.fmul b p f) | 0x1B => some (.ffma b p f)
  | 0x1C => some (.fmin b p f) | 0x1D => some (.fmax b p f) | 0x1E => some (.fcmpEq b p f) | 0x1F => some (.fcmpLt b p f)
  | 0x20 => some (.fcmpLe b p f)
  | _ => none

/-- Codes 0x21 to 0x45. -/
def latheOpHigh (b : BayId) (p : Pred) (f : LatheF) (opc : Nat) : Option Instr :=
  match opc with
  | 0x21 => some (.cvtI2f b p f) | 0x22 => some (.cvtF2i b p f) | 0x23 => some (.cvtUnpack b p f) | 0x24 => some (.cvtPack b p f)
  | 0x28 => some (.frcp b p f) | 0x29 => some (.fsqrt b p f) | 0x2A => some (.frsqrt b p f) | 0x2B => some (.fexp b p f)
  | 0x2C => some (.fexp2 b p f) | 0x2D => some (.flog b p f) | 0x2E => some (.flog2 b p f) | 0x2F => some (.ftanh b p f)
  | 0x30 => some (.fsigm b p f) | 0x31 => some (.fsilu b p f) | 0x32 => some (.fgelus b p f) | 0x33 => some (.fgelut b p f)
  | 0x34 => some (.rsum b p f) | 0x35 => some (.rmax b p f) | 0x38 => some (.tclr b p f) | 0x39 => some (.tacc b p f)
  | 0x3A => some (.tmac b p f) | 0x3B => some (.xsum b p f) | 0x3C => some (.tsum b p f) | 0x3D => some (.tloadc b p f)
  | 0x3E => some (.tstore b p f) | 0x3F => some (.tdrain b p f) | 0x40 => some (.cgen b p f) | 0x41 => some (.lfrd b p f)
  | 0x42 => some (.lfclr b p f) | 0x44 => some (.vld b p f) | 0x45 => some (.vst b p f)
  | _ => none

/-- LATHE (07 R144, R145). -/
def decodeLathe (b : BayId) (w : Nat) : Option Instr :=
  let p := slotPred w
  let f := slotLathe w
  let opc := slotBits w 4 7
  match latheOpLow b p f opc with
  | some i => keepWf i
  | none => (latheOpHigh b p f opc).bind keepWf

/-- MOVER (07 R147, R148). -/
def decodeMover (b : BayId) (w : Nat) : Option Instr :=
  let p := slotPred w
  let i4 := BitVec.ofNat 4 (slotBits w 8 4)
  let nm := BitVec.ofNat 17 (slotBits w 12 17)
  let sel := BitVec.ofNat 14 (slotBits w 8 14)
  match slotBits w 4 4 with
  | 1 => zeroAbove w 29 3 (keepWf (.vfillPattern b p i4 nm))
  | 2 => zeroAbove w 29 3 (keepWf (.vfillTun b p i4 nm))
  | 3 => zeroAbove w 29 3 (keepWf (.vcopy b p i4 nm))
  | 4 => unpred w (zeroAbove w 26 6 (keepWf (.vmode b sel (BitVec.ofNat 3 (slotBits w 22 3)) (slotBits w 25 1 == 1))))
  | 5 => unpred w (zeroAbove w 25 7 (keepWf (.vpower b sel (BitVec.ofNat 2 (slotBits w 22 2)) (slotBits w 24 1 == 1))))
  | _ => none

/-- Fields of CRD and CWR. -/
def slotRack (w : Nat) : RackF :=
  { ci := BitVec.ofNat 4 (slotBits w 8 4), vin := BitVec.ofNat 4 (slotBits w 12 4), voff := BitVec.ofNat 16 (slotBits w 16 16),
    lm1 := BitVec.ofNat 6 (slotBits w 32 6), coff := BitVec.ofNat 10 (slotBits w 38 10) }

/-- The sill operation that a descriptor's OPK names (10 R204); a descriptor that is not there makes a void operation. -/
def sopInstr (b : BayId) (p : Pred) (f : SopF) (opk : Nat) : Instr :=
  match opk with
  | 2 => .scatter b p f
  | 3 => .scatterAdd b p f
  | 4 => .dotSweep b p f
  | 5 => .softblend b p f
  | 6 => .digest b p f
  | 7 => .fill b p f
  | 8 => .copy b p f
  | _ => .gather b p f

/-- RACK (07 R150); opk gives the OPK of a descriptor, beats what the sill's check finds in the beats of a write. -/
def decodeRack (b : BayId) (opk : Nat → Nat) (beats : List Ecc) (w : Nat) : Option Instr :=
  let p := slotPred w
  let f := slotRack w
  match slotBits w 4 4 with
  | 1 => keepWf (.crd b p f)
  | 2 => keepWf (.cwr b p { f := f, beats := beats })
  | 3 => zeroAbove w 44 4 (keepWf (.cbw b p f.ci f.vin f.voff f.lm1 { grp := BitVec.ofNat 6 (slotBits w 38 6), beats := beats }))
  | 4 => zeroAbove w 40 8 (keepWf (sopInstr b p
      { dix := BitVec.ofNat 12 (slotBits w 8 12), vin := BitVec.ofNat 4 (slotBits w 20 4), voff := BitVec.ofNat 16 (slotBits w 24 16) }
      (opk (slotBits w 8 12))))
  | _ => none

/-- ROUTE (07 R151). -/
def decodeRoute (b : BayId) (w : Nat) : Option Instr :=
  let p := slotPred w
  let f : RouteF :=
    { rt := BitVec.ofNat 10 (slotBits w 8 10), vin := BitVec.ofNat 4 (slotBits w 18 4), voff := BitVec.ofNat 10 (slotBits w 22 10) }
  match slotBits w 4 4 with
  | 1 => keepWf (.send b p f)
  | 2 => keepWf (.recv b p f)
  | _ => none

/-- Is a slot invalid under R132 (not a NOP of all zeros, and no instruction)? -/
def slotBad (w : Nat) (o : Option Instr) : Bool := o.isNone && w != 0

/-- The command that a word spells by the table's bits: the table gives every row none. -/
def decodeTableWord (_nbits _w : Nat) : Option Instr := none

end Sys2Proof
end

