-- ==== Sys2Proof/Machine/BayTypes.lean ====
section
/-! DEFINITION. The plain data of one bay: press, lathe, vat, sequencer, racking unit and router (03 R40, 04 R64, 05 R87-R104,
06 R121, 08 R154, 09 R181, 10 R204). -/

namespace Sys2Proof.Machine
open Sys2Proof

/-- Bytes on a path, with the indices of the 8-byte granules among them that carry poison (05_vats R100). -/
structure Chunk where
  bytes : Bytes
  bad : List Nat
  deriving DecidableEq, Repr

/-- The source of VAT_UNCORRECTABLE (05_vats R100). -/
inductive VSrc where
  | ecc
  | closedRead
  | conflict
  | poison
  deriving DecidableEq, Repr

/-- A port of the crossbar (05_vats R89), and the bank controls of VMODE (07 R149). -/
inductive VPort where
  | feed (pr : Nat) (opB : Bool)
  | drain (pr : Nat)
  | latheRead
  | latheWrite
  | routerRead
  | routerWrite
  | rackRead
  | rackWrite
  | moverRead
  | moverWrite
  | bankCtl
  deriving DecidableEq, Repr

/-- The result of a read, and where it goes. -/
inductive Sink where
  | none
  | half (pr : Nat) (opB : Bool) (half : Nat) (ctl : Nat) (off : Nat)
  | vreg (vd : Nat)
  | tload (lt : Nat) (w : Nat)
  | copy (dst : Nat)
  | flit (rt : Nat) (f : Nat)
  | cwr (tag : Nat) (k : Nat)
  | sop (tag : Nat) (k : Nat)
  deriving DecidableEq, Repr

/-- One access of a crossbar port at one count (05_vats R89, R90). A read carries no data; off keeps the occupancy and does
nothing else (06 R119). -/
structure Access where
  at_ : Int
  port : VPort
  addr : Nat
  len : Nat
  wr : Option Chunk
  on : Bool
  sink : Sink
  body : Bool
  banks : List Nat
  mode : BitVec 3
  deriving DecidableEq, Repr

/-- Power states of a bank (05_vats R97). -/
inductive BankPower where
  | active
  | nap
  | retain
  | off
  deriving DecidableEq, Repr

/-- One bank's controls (05_vats R93, R97, R98): the state it is in, the count at which a pending wake ends, and a pending
sleep with the count at which it takes effect. -/
structure Bank where
  mode : BitVec 3
  power : BankPower
  wakeAt : Option Int
  sleep : Option (BankPower × Int)
  deriving DecidableEq, Repr

def Bank.init : Bank := { mode := 0#3, power := .active, wakeAt := none, sleep := none }

/-- A mover operation in progress (05_vats R91, R92): PATTERN or TUN data of a VFILL, or the source of a VCOPY. -/
inductive MoverKind where
  | pattern (v : Word)
  | tun (anchor : Int)
  | copy (src : Nat)
  deriving DecidableEq, Repr

structure MoverOp where
  kind : MoverKind
  dst : Nat
  n : Nat
  u : Int
  on : Bool
  body : Bool
  deriving DecidableEq, Repr

/-- The vat (05_vats): 8 MiB, the granules that hold an error (1 the poison code, 2 a single-bit error, 3 a double-bit error),
the banks, the mover, VFLAGS, residency. proFault: a fault was raised in the prologue or by its writes (R103). inject: a bank whose next
access meets an injected error of the given granule code (15 R328). -/
structure Vat where
  mem : Mem
  gran : Sparse Nat
  banks : Sparse Bank
  mover : Option MoverOp
  vflags : BitVec 4
  residentMask : DWord
  residentValid : Bool
  residentPend : Bool
  proFault : Bool
  inject : Option (Nat × Nat)
  deriving DecidableEq, Repr

def Vat.init : Vat :=
  { mem := [], gran := [], banks := [], mover := none, vflags := 0#4, residentMask := 0#64, residentValid := false,
    residentPend := false, proFault := false, inject := none }

/-- The control bits of a panel half or of a quarter half (03 R46, R51, R53). -/
structure HalfCtl where
  valid : Bool
  held : Bool
  poison : Option (Nat × VSrc)
  fmt : BitVec 4
  deriving DecidableEq, Repr

def HalfCtl.init : HalfCtl := { valid := false, held := false, poison := none, fmt := 0#4 }

/-- An armed set-up (07 R138). -/
structure Setup where
  fmtA : BitVec 4
  fmtB : BitVec 4
  anchor : Int
  panels : Nat
  auto : Bool
  deriving DecidableEq, Repr

/-- A k-step panel that occupies its cells (07 R139); a panel with no set-up adds nothing (R138). -/
structure Run where
  start : Int
  dur : Nat
  ha : Nat
  hb : Nat
  setup : Option Setup
  first : Bool
  last : Bool
  deriving DecidableEq, Repr

/-- A shim in progress (03 R55, R57). A shim whose QE does not match its press's mode only occupies its cells (07 R135): its
intensities are 0. -/
structure Shim where
  stop : Int
  nom : Nat
  min : Nat
  deriving DecidableEq, Repr

/-- The cells of one quarter (index 0 to 3) or of the whole press (index 4): the armed set-up, the accumulation in progress with
its panels left, the panel running, the shim. -/
structure PQuarter where
  armed : Option Setup
  acc : Option (Setup × Nat)
  run : Option Run
  shim : Option Shim
  deriving DecidableEq, Repr

def PQuarter.init : PQuarter := { armed := none, acc := none, run := none, shim := none }

/-- A press (03): mode, cells by index, the end counts of the latest accumulations with the index of their cells (newest first), half
controls by 8 × operand + 4 × half + quarter, half bytes by
8192 × (2 × operand + half) + offset with the scale word from offset 4096, cell tuns, residues and latches by 32 i + j, DFLAGS,
the envelope window, the applied shim budget, the steered column of R43, and PEGNO at the last comparison that passed on the press (15 R313), 0
for none. -/
structure Press where
  quart : Bool
  quarters : Sparse PQuarter
  ends : List (Nat × Int)
  ctl : Sparse HalfCtl
  store : Sparse (Option Byte)
  undef : Option Nat
  tuns : Sparse Tun
  rho : Sparse Nat
  latch : Sparse Tun
  latchRho : Sparse Nat
  dflags : BitVec 4
  win : Int
  level : Nat
  prevLevel : Nat
  beta : Nat
  column : Option Nat
  passed : Nat
  deriving DecidableEq, Repr

def Press.init : Press :=
  { quart := false, quarters := [], ends := [], ctl := [], store := [], undef := none, tuns := [], rho := [], latch := [], latchRho := [],
    dflags := 0#4, win := 0, level := 0, prevLevel := 0, beta := 16, column := none, passed := 0 }

/-- One k-step in flight (03 R47): its count, its cells, its operands with their scale codes, and the cells it has reached. -/
structure Wave where
  pr : Nat
  v : Int
  r0 : Nat
  c0 : Nat
  n : Nat
  anchor : Int
  first : Bool
  last : Bool
  a : List (Exact × Nat)
  b : List (Exact × Nat)
  done : List Nat
  deriving DecidableEq, Repr

/-- A drain in progress (03 R48, R49). -/
structure DrainRun where
  d : Int
  pr : Nat
  qe : Bool
  q : Nat
  recd : Bool
  fmt : BitVec 4
  rm : BitVec 2
  sat : Bool
  dsc : Int
  base : Nat
  rb : Nat
  sbase : Nat
  on : Bool
  next : Nat
  scales : List Nat
  body : Bool
  deriving DecidableEq, Repr

/-- A taste comparison in progress (03 R62). -/
structure TasteRun where
  d : Int
  pr : Nat
  prb : Nat
  qe : Bool
  q : Nat
  qb : Nat
  next : Nat
  found : Bool
  on : Bool
  deriving DecidableEq, Repr

/-- A panel load whose words are still to be read (03 R46). -/
structure LoadRun where
  u : Int
  pr : Nat
  opB : Bool
  half : Nat
  qe : Bool
  q : Nat
  fmt : BitVec 4
  base : Nat
  b : Nat
  sbase : Nat
  s : Nat
  on : Bool
  next : Nat
  deriving DecidableEq, Repr

/-- What a lathe instruction writes when it lands (04 R65, R76). -/
inductive LDest where
  | vreg (vd : Nat) (mask : BitVec 128) (vals : List Word) (lfl : BitVec 5) (dfl : BitVec 4)
  | mreg (m : Nat) (mask : BitVec 128) (bits : BitVec 128) (lfl : BitVec 5)
  | vregs4 (vd : Nat) (mask : BitVec 128) (vals : List (List Word))
  | tclr (lt : Nat) (mask : BitVec 128) (anchor : Int)
  | tterms (lt : Nat) (mask : BitVec 128) (terms : List Exact)
  | xsum (lt : Nat) (terms : List Exact)
  | tsum (lt : Nat) (out : CombineOut)
  | tload (lt : Nat) (w : Nat) (bytes : Bytes)
  | lfclr
  deriving DecidableEq, Repr

/-- Something that happens in the bay at a later count. -/
inductive BEv where
  | lathe (d : LDest)
  | idx (i : Nat) (v : Word)
  | pred (q : Nat) (b : Bool)
  | arm (pr : Nat) (q : Nat) (su : Setup)
  | mode (pr : Nat) (quart : Bool)
  | clrf (pm : BitVec 4) (vf : Bool)
  | halfBegin (pr : Nat) (ctl : Nat) (fmt : BitVec 4) (on : Bool)
  | halfLand (pr : Nat) (off : Nat) (bytes : Bytes)
  | halfPoison (pr : Nat) (ctl : Nat) (addr : Nat) (src : VSrc)
  | halfValid (pr : Nat) (ctl : Nat)
  | dflags (pr : Nat) (fl : BitVec 4)
  | fault (code : Nat) (idx : Nat) (detail : List (Nat × Nat))
  | bankSleep (bank : Nat)
  | bankWake (bank : Nat)
  | flitIn (routeId : Nat) (f : Nat) (void : Bool) (poison : Bool) (data : Bytes) (parity : Nat)
  deriving DecidableEq, Repr

/-- An entry of the bay's agenda: the count, the phase within the count, the event. -/
structure Due where
  at_ : Int
  phase : Nat
  ev : BEv
  deriving DecidableEq, Repr

/-- A flit that has reached the bay's router (08 R157). -/
structure FlitIn where
  at_ : Int
  routeId : Nat
  f : Nat
  void : Bool
  poison : Bool
  data : Bytes
  parity : Nat
  deriving DecidableEq, Repr

/-- A route table entry (08 R154). -/
structure RouteEnt where
  kind : Nat
  yx : Bool
  nflits : Nat
  peerX : Nat
  peerY : Nat
  lambda : Nat
  routeId : Nat
  deriving DecidableEq, Repr

def RouteEnt.none : RouteEnt := { kind := 0, yx := false, nflits := 0, peerX := 0, peerY := 0, lambda := 0, routeId := 0 }

/-- A SEND or a RECV in progress (08 R157). -/
structure RouteRun where
  send : Bool
  u : Int
  rt : Nat
  ent : RouteEnt
  base : Nat
  on : Bool
  next : Nat
  body : Bool
  deriving DecidableEq, Repr

/-- A racking transaction in progress (09 R182): a read with its return buffer, or a write whose vat words are still to be
read. Kind 1 CRD, 2 CWR, 3 CBW. beats is what the sill's check meets in a write's beats, eight to a piece (09 R175). -/
structure RackRun where
  tag : Nat
  kind : Nat
  u : Int
  cask : Nat
  off : Nat
  pieces : Nat
  inter : Bool
  grp : Nat
  vaddr : Nat
  on : Bool
  next : Nat
  nextBuf : Nat
  buf : List (Nat × Chunk)
  body : Bool
  beats : List Ecc
  deriving DecidableEq, Repr

/-- A sill descriptor (10 R204), its 64 bytes decoded. -/
structure SillDesc where
  opk : Nat
  cask : Nat
  rho : Nat
  opt : Nat
  inl : Nat
  outl : Nat
  n : Nat
  rb : Nat
  a : Nat
  b : Nat
  c : Nat
  fmtA : BitVec 4
  fmtB : BitVec 4
  mode : Nat
  e : Nat
  anchA : Int
  anchB : Int
  scale : Word
  pattern : Word
  t : Nat
  deriving DecidableEq, Repr

def SillDesc.none : SillDesc :=
  { opk := 0, cask := 0, rho := 0, opt := 0, inl := 0, outl := 0, n := 0, rb := 0, a := 0, b := 0, c := 0, fmtA := 0#4,
    fmtB := 0#4, mode := 0, e := 0, anchA := 0, anchB := 0, scale := 0#32, pattern := 0#32, t := 0 }

/-- A write piece on its way into a cask (09 R182, R183); seq is the issue order of its bay. -/
structure CaskWrite where
  cask : Nat
  off : Nat
  at_ : Int
  bayIx : Nat
  seq : Nat
  bytes : Bytes
  poison : Bool
  deriving DecidableEq, Repr

/-- A cask as it stands at a count (10 R210): its bytes, its poisoned pieces, the writes on their way. -/
structure CaskSnap where
  mem : Mem
  poison : Sparse Bool
  writes : List CaskWrite
  deriving DecidableEq, Repr

/-- A sill operation in progress (10 R207): its descriptor, issue count, first work frame, end count, operand block so far, the cask at 9 k0
(R210) and result words still to be written. -/
structure SopRun where
  tag : Nat
  dix : Nat
  desc : SillDesc
  u : Int
  k0 : Int
  e : Option Int
  vaddr : Nat
  on : Bool
  next : Nat
  operand : List (Nat × Chunk)
  snap : Option CaskSnap
  ended : Bool
  nextOut : Nat
  result : Option Chunk
  late : Bool
  body : Bool
  deriving DecidableEq, Repr

/-- The lathe (04 R64). -/
structure Lathe where
  v : Sparse Word
  m : Sparse (BitVec 128)
  lt : Sparse Tun
  lflags : BitVec 5
  dflags : BitVec 4
  runKey : BitVec 128
  deriving DecidableEq, Repr

def Lathe.init : Lathe := { v := [], m := [], lt := [], lflags := 0#5, dflags := 0#4, runKey := 0#128 }

/-- An entry of the loop stack (06 R116). total is N, which FIRST of QITER needs: the LOOP at start - 1 holds it. -/
structure LoopEnt where
  start : Nat
  fin : Nat
  left : Nat
  total : Nat
  deriving DecidableEq, Repr

/-- The sequencer (06 R121), and whether it issues: count is the invocation count of the next bundle, negative in the
prologue. -/
structure Seq where
  pc : BitVec 14
  stack : List LoopEnt
  idx : Sparse Word
  pred : Sparse Bool
  cfd : Word
  lastPeg : Int
  pegno : Nat
  phase : BitVec 8
  crush : Option (BitVec 8 × Int)
  issuing : Bool
  body : Bool
  bodyEntry : BitVec 14
  count : Int
  ticked : Int
  overdue : Bool
  deriving DecidableEq, Repr

def Seq.init : Seq :=
  { pc := 0#14, stack := [], idx := [], pred := [], cfd := 0xFFFFFFFF#32, lastPeg := 0, pegno := 0, phase := 0#8, crush := none,
    issuing := false, body := true, bodyEntry := 0#14, count := 0, ticked := 0, overdue := false }

/-- The breach record (03 R54). -/
structure BreachRec where
  cause : Nat
  count : Int
  unit : Nat
  deriving DecidableEq, Repr

/-- An event counter (00_scope R9): COUNT and SAT. -/
structure EvCnt where
  n : Nat
  sat : Bool
  deriving DecidableEq, Repr

def EvCnt.init : EvCnt := { n := 0, sat := false }

/-- The lath node of a bay (08 R170, R171): GROUPS and LOAD_CRC. -/
structure LathState where
  groups : DWord
  loadCrc : Word
  deriving DecidableEq, Repr

/-- A bay. beta is the shim budget its presses move toward, which changes at its pegs (03 R57). -/
structure Bay where
  seq : Seq
  plan : Sparse (BitVec 256)
  pegtab : Sparse Word
  micro : Sparse Word
  routes : Sparse RouteEnt
  descs : Sparse SillDesc
  presses : Sparse Press
  waves : List Wave
  drains : List DrainRun
  taste : Option TasteRun
  loads : List LoadRun
  lathe : Lathe
  vat : Vat
  accs : List Access
  carry : List Access
  agenda : List Due
  flits : List FlitIn
  route : List RouteRun
  racks : List RackRun
  sops : List SopRun
  lath : LathState
  breach : BreachRec
  counters : Sparse EvCnt
  tag : Nat
  free : Nat
  beta : Nat
  deriving DecidableEq, Repr

def Bay.init : Bay :=
  { seq := Seq.init, plan := [], pegtab := [], micro := [], routes := [], descs := [], presses := [], waves := [], drains := [],
    taste := none, loads := [], lathe := Lathe.init, vat := Vat.init, accs := [], carry := [], agenda := [], flits := [],
    route := [], racks := [], sops := [], lath := { groups := 0#64, loadCrc := 0#32 },
    breach := { cause := 0, count := 0, unit := 0 }, counters := [], tag := 0, free := 0, beta := 16 }

/-- Kinds of a cask region (09 R178). -/
inductive RegionKind where
  | interleaved
  | channelLocal
  | replicated
  deriving DecidableEq, Repr

/-- Uses of a cask region (09 R179). -/
inductive RegionUse where
  | weight
  | landing
  | kv
  | scratch
  | vintage
  deriving DecidableEq, Repr

/-- A cask region (09 R178, R179, R197) with the digest the sill keeps. -/
structure Region where
  base : Nat
  size : Nat
  kind : RegionKind
  use_ : RegionUse
  chan : Nat
  lb : Nat
  digest : BitVec 384
  digestValid : Bool
  closing : Bool
  written : Bool
  deriving DecidableEq, Repr

/-- A window of a cask's schedule (09 R191): first frame, length, and REST (else LAND). -/
structure Window where
  first : Nat
  len : Nat
  rest : Bool
  deriving DecidableEq, Repr

/-- What a bay needs to know about the rest of the module at an issue. rel is the relative number of the field's first cask (11 R242), regions
holds the regions of the field's two casks and allRegions those of the parcel's casks by relative number. -/
structure BCtx where
  id : BayId
  px : Nat
  py : Nat
  field : Nat
  rel : Nat
  regions : List (List Region)
  allRegions : List (List Region)
  grpCask : Sparse Nat
  grpChan : Sparse Nat
  period : List Nat
  windows : List (List Window)
  betaTarget : Nat
  inParcel : Bool
  deriving DecidableEq, Repr

/-- What leaves the bay in a step, in order. -/
inductive BOut where
  | breach (cause : Nat) (count : Int) (unit : Nat)
  | fault (code : Nat) (count : Int) (idx : Nat) (detail : List (Nat × Nat))
  | token (pegno : Nat) (ok : Bool) (phase : BitVec 8) (phv : Bool) (count : Int) (endPeg : Bool)
  | crush (phase : BitVec 8) (count : Int)
  | readPiece (tag : Nat) (w : Nat) (cask : Nat) (off : Nat) (at_ : Int)
  | writePiece (tag : Nat) (cask : Nat) (off : Nat) (at_ : Int) (data : Chunk) (beats : List Ecc)
  | bcast (tag : Nat) (grp : Nat) (off : Nat) (at_ : Int) (data : Chunk) (beats : List Ecc)
  | pieceErr (cask : Nat) (off : Nat) (err : PieceErr) (at_ : Int)
  | sopStart (tag : Nat) (cask : Nat)
  | sopEnd (r : SopRun) (agree : Bool) (found : List (Nat × PieceErr))
  | flit (ent : RouteEnt) (f : Nat) (leave : Int) (void : Bool) (poison : Bool) (data : Bytes)
  deriving DecidableEq, Repr

/-- A bay with what has left it in this step. -/
structure BayM where
  bay : Bay
  out : List BOut
  deriving DecidableEq, Repr

end Sys2Proof.Machine
end

