-- ==== Sys2Proof/Machine/ModTypes.lean ====
section
/-! DEFINITION. The plain data of the module outside the bays: fields and their islands, seams, casks, the image and the
invocation of a parcel, its vintages, rack streams and Pour service, the host ports, the tap ports, raising, the trellis, the
seal, the fault log and the pins (08 to 23). -/

namespace Sys2Proof.Machine
open Sys2Proof

/-- States of a field (16 R337). -/
inductive FState where
  | dark
  | raising
  | raised
  | parked
  | unparking
  | failed
  deriving DecidableEq, Repr

/-- A bent (13 R272, R273; 16 R340): its spare position, its hole set, its failed trim slices by number, whether it is retired, ESC and CAL in
mV, and the steering of R43 by 4 × physical position + press. -/
structure Bent where
  spare : Nat
  holes : List Nat
  slices : List Nat
  retired : Bool
  esc : Nat
  cal : Nat
  deriving DecidableEq, Repr

def Bent.init : Bent := { spare := 12, holes := [], slices := [], retired := false, esc := 0, cal := 0 }

/-- The clock island of a field (12 R246-R261): the live and the standby PLL by FCODE, whether the standby is locked, the FREF
epoch and a pending EPOCH_LOAD, a pending SWITCH, whether SWITCH_UNLOCKED was sent for it, the stretch count ST, and the switch for
which SWITCHED is still to be sent. -/
structure Island where
  live : BitVec 8
  standby : BitVec 8
  locked : Bool
  epoch : Nat
  epochLoad : Option Nat
  switch : Option ClockCmd
  unlocked : Bool
  st : BitVec 4
  switchedDue : Option ClockCmd
  deriving DecidableEq, Repr

def Island.init : Island :=
  { live := 0x18#8, standby := 0x18#8, locked := false, epoch := 0, epochLoad := none, switch := none, unlocked := false, st := 0#4,
    switchedDue := none }

/-- The supply of a field (13 R268-R276): VFAB, dropped lateral phases, the lateral and the vertical path, the current cap in
amperes, the 48 bump-group models in micro-ohms, the open and the suspect groups, the leakage calibration in mA with the temperature it was
measured at, the moment at which VFAB has settled (14 R284), the struts' charge voltage with those of the bays that are precharged (until) and those that injection has drawn down (mV,
until they are recharged), and the present 100 ms of crack detection: its start, and by group the sum of the excess in millionths, the
samples and the sum of the current in mA. -/
structure Supply where
  vfab : Bool
  badPhases : List Nat
  latFailed : Bool
  verFailed : Bool
  shorted : Bool
  lost : Bool
  capA : Nat
  models : List Nat
  openGroups : List Nat
  suspectGroups : List Nat
  leakMa : Nat
  leakT : Nat
  mv : Nat
  boostMv : Nat
  settleNs : Nat
  strutMv : Nat
  strutPre : Sparse Nat
  strutLow : Sparse (Nat × Nat)
  crackNs : Option Nat
  crack : Sparse (Int × Nat × Nat)
  deriving DecidableEq, Repr

def Supply.init : Supply :=
  { vfab := false, badPhases := [], latFailed := false, verFailed := false, shorted := false, lost := false, capA := 700,
    models := [], openGroups := [], suspectGroups := [], leakMa := 0, leakT := 0, mv := 0, boostMv := 0, settleNs := 0, strutMv := 1350, strutPre := [],
    strutLow := [], crackNs := none, crack := [] }

/-- A field: its raising status (16 R335, R337), its hub, island, supply, bents, peg clock (15 R316) and event counters of the
island (12 R263) and the hub (08 R172). -/
structure Field where
  st : FState
  step : Nat
  fast : Bool
  newHoles : Nat
  src : Nat
  code : Nat
  failRaise : Bool
  tripped : Bool
  calib : Bool
  hub : Bool
  cellarUp : Bool
  island : Island
  supply : Supply
  bents : Sparse Bent
  columns : List (Nat × Nat × Nat × Nat)
  pegClock : Nat
  cnt : Sparse EvCnt
  hubCnt : Sparse EvCnt
  deriving DecidableEq, Repr

def Field.init : Field :=
  { st := .dark, step := 0, fast := false, newHoles := 0, src := 0, code := 0, failRaise := false, tripped := false, calib := false,
    hub := false, cellarUp := false, island := Island.init, supply := Supply.init, bents := [], columns := [], pegClock := 0,
    cnt := [], hubCnt := [] }

/-- A seam between two fields (12 R254-R257, 15 R317): its SEAM group's reset, the ALIGN epoch until the monitors have checked, the write and
read pointers of its FIFOs, the separation sigma0 of each reader (by 2 × line, + 1 toward the lower field) and read pointer shifts, the
OVERRUN flags, alignment attempts, retirement, its overruns by peg clock, steered wires, links with no spare left, and the LATH
group's reset. -/
structure Seam where
  released : Bool
  alignAt : Option Nat
  wptr : Nat
  rptr : Nat
  sigma0 : Sparse Int
  shifts : Sparse Int
  overrun : List ScarfLink
  tries : Nat
  retired : Bool
  overruns : List Nat
  wires : List (ScarfLink × Nat)
  linkFailed : List ScarfLink
  lathReleased : Bool
  deriving DecidableEq, Repr

def Seam.init : Seam :=
  { released := false, alignAt := none, wptr := 0, rptr := 10, sigma0 := [], shifts := [], overrun := [], tries := 0, retired := false,
    overruns := [], wires := [], linkFailed := [], lathReleased := false }

/-- A suspect count with the peg clock of its last fault (15 R316). -/
structure Suspect where
  n : Nat
  last : Nat
  deriving DecidableEq, Repr

def Suspect.init : Suspect := { n := 0, last := 0 }

/-- CEL_GRP_CASK_n and CEL_GRP_CHAN_n of a cask port or of the cellar gateway (09 R189). -/
structure Gateway where
  grpCask : Sparse Nat
  grpChan : Sparse Nat
  deriving DecidableEq, Repr

def Gateway.init : Gateway := { grpCask := [], grpChan := [] }

/-- A cask (09 R173-R201, 10 R202, R220). mem is its bytes by channel × 3 GiB + channel-local address, poison the pieces that
carry the marker, both by physical piece address; symTimes is (stave, moment in ns) of the corrected symbols of the last hour; ledgerFrac holds
the parts of 7,800 of a cellar cycle that the rest ledger has still to count, forced whether refresh is forced (R193) and delays whether that keeps reads
back; inject is an injected
error that the next access to its channel, or to any where none is named, meets (15 R328). -/
structure Cask where
  mem : Mem
  poison : Sparse Bool
  regions : List Region
  rails : Bool
  selfRefresh : Bool
  portUp : Bool
  sclk : Nat
  ceiling : Nat
  reserve : Option Nat
  failing : List Nat
  copying : Option Nat
  symTimes : List (Nat × Nat)
  period : Nat
  windows : List Window
  ledger : Nat
  ledgerFrac : Nat
  forced : Bool
  delays : Bool
  inject : Option (Option Nat × PieceErr)
  sflags : BitVec 9
  cnt : Sparse EvCnt
  writes : List CaskWrite
  journal : List (Nat × Bytes × Bool)
  suspect : Suspect
  excluded : Bool
  grp : Gateway
  deriving DecidableEq, Repr

def Cask.init : Cask :=
  { mem := [], poison := [], regions := [], rails := false, selfRefresh := false, portUp := false, sclk := 16, ceiling := 16,
    reserve := some 16, failing := [], copying := none, symTimes := [], period := 0, windows := [], ledger := 0, ledgerFrac := 0,
    forced := false, delays := false, inject := none,
    sflags := 0#9, cnt := [], writes := [], journal := [], suspect := Suspect.init, excluded := false,
    grp := Gateway.init }

/-- An await of the image with its landed flag and write-lock (11 R230, R235; 22 R467), cask by relative number. -/
structure Await where
  rcask : Nat
  off : Nat
  len : Nat
  due : Nat
  landed : Bool
  locked : Bool
  got : List (Nat × Nat)
  deriving DecidableEq, Repr

/-- A body or prologue run of the peg table (22 R466). -/
structure PegRun where
  first : Nat
  interval : Nat
  repeat_ : Nat
  deriving DecidableEq, Repr

/-- An entry of the phase table (22 R468) or of the learned phase table (14 R294). -/
structure PhaseEnt where
  phase : Nat
  sigma : Nat
  tref : Nat
  irise : Nat
  pdyn : Nat
  pleak : Nat
  pcask : Nat
  occ : Nat
  deriving DecidableEq, Repr

/-- A Pour declaration (20 R419, 22 R475); cask offsets in DADDR form. -/
structure PourDecl where
  stepCount : Nat
  rows : Nat
  prefillRows : Nat
  slots : Nat
  vocab : Nat
  maxPos : Nat
  rowsPerPage : Nat
  maxBlocks : Nat
  nsets : Nat
  sampler : Nat
  stepTable : Nat
  pageMap : Nat
  records : Nat
  tokenBlock : Nat
  pool : List (Nat × Nat)
  setCask : List Nat
  deriving DecidableEq, Repr

/-- A loaded image (22): its bytes, and what the running of it needs at once. marks holds the phase markers of the body by count (06 R126). -/
structure Image where
  bytes : Bytes
  digest : BitVec 384
  pourClass : Bool
  shape : Nat
  features : Nat
  sillOps : Bool
  prologue : Bool
  interval : Nat
  bodyCount : Nat
  prologueCount : Nat
  runs : List PegRun
  pruns : List PegRun
  phases : List PhaseEnt
  taste : Nat
  labelIn : List (Nat × Nat × Nat)
  labelOut : List (Nat × Nat × Nat)
  sources : List (Nat × Nat)
  pour : Option PourDecl
  marks : List (Int × BitVec 8)
  deriving DecidableEq, Repr

/-- A router output that a flit has still to pass (08 R156, R159): the router's bay, the direction (0 east, 1 west, 2 south, 3 north), the
count at which the flit holds it, the scarf link it leads over. -/
structure Hop where
  x : Nat
  y : Nat
  dir : Nat
  at_ : Int
  link : Option ScarfLink
  deriving DecidableEq, Repr

/-- A flit on its way through the mesh (08 R157-R160): what it carries, its destination bay with the count at which it reaches that router,
the outputs still before it, and the scarf FIFO whose entry holds it with that entry's number (12 R255). -/
structure Flight where
  routeId : Nat
  f : Nat
  void : Bool
  poison : Bool
  data : Bytes
  parity : Nat
  dst : Nat
  arrive : Int
  path : List Hop
  fifo : Option (ScarfLink × Nat)
  deriving DecidableEq, Repr

/-- What a vintage carries (11 R236): the bays, the unacknowledged writes and SFLAGS of the casks, the awaits' flags, the pointers of the
crossings inside the parcel with the flits under way (places relative to the parcel's first bay), and the header fields of R239;
tag names the part of the records' payload that is the stepping's own. -/
structure Vintage where
  valid : Bool
  generation : Nat
  imageDigest : BitVec 384
  runKey : BitVec 128
  count : Nat
  pegno : Nat
  auto : Bool
  park : Bool
  holdCount : Nat
  shape : Nat
  bays : List (Nat × Bay)
  writes : List (Nat × List CaskWrite)
  sflags : List (Nat × BitVec 9)
  awaits : List (Bool × Bool)
  crossings : List (Nat × Nat)
  flights : List Flight
  bodyDigest : BitVec 384
  weightsDigest : BitVec 384
  headerDigest : BitVec 384
  tag : Nat
  deriving DecidableEq, Repr

def Vintage.none : Vintage :=
  { valid := false, generation := 0, imageDigest := 0, runKey := 0, count := 0, pegno := 0, auto := false, park := false,
    holdCount := 0, shape := 0, bays := [], writes := [], sflags := [], awaits := [], crossings := [], flights := [], bodyDigest := 0, weightsDigest := 0,
    headerDigest := 0, tag := 0 }

/-- A bay's peg token (08 R167). -/
structure TokenPart where
  bay : Nat
  pegno : BitVec 16
  ok : Bool
  phase : BitVec 8
  phv : Bool
  deriving DecidableEq, Repr

/-- One summary of peg tokens from a field (08 R167): the tokens it combines. ord numbers the peg from the invocation's first. -/
structure TokenSum where
  field : Nat
  ord : Nat
  parts : List TokenPart
  isEnd : Bool
  deriving DecidableEq, Repr

/-- The reasons of a stop (11 R230, 15 R310). -/
structure StopWhy where
  hold : Bool
  vintage : Bool
  park : Bool
  forced : Bool
  fault : Bool
  abort : Bool
  deriving DecidableEq, Repr

/-- A decided stop (11 R230-R234): its peg, the count, the reasons, whether the parcel stands at it, the vintage state, the
stop cycle Z that a restart named, the module's own time at the stop, the stop cycles and the time at each island's last frequency switch
within it, and the levels that the presses stepped down from (by 4 × bay + press, 03 R58). -/
structure Stop where
  peg : Nat
  count : Nat
  why : StopWhy
  reached : Bool
  drawn : Bool
  z : Option Nat
  atNs : Nat
  since : List (Nat × Nat × Nat)
  levels : Sparse Nat
  deriving DecidableEq, Repr

/-- A fault that a rollback must answer (15 R310-R312). -/
structure FaultRec where
  code : Nat
  unit : Nat
  x : Nat
  y : Nat
  idx : Nat
  peg : Nat
  seq : Nat
  cask : Option Nat
  stave : Option Nat
  injected : Bool
  deriving DecidableEq, Repr

/-- States of an invocation in its ledger (18 R387). -/
inductive Ledger where
  | empty
  | complete
  | aborted
  deriving DecidableEq, Repr

/-- The invocation of a parcel (11, 18 R385-R388). -/
structure Inv where
  serial : Nat
  started : Bool
  waitTrellis : Bool
  runKey : BitVec 128
  prologueRan : Bool
  startNs : Nat
  holdCount : Nat
  rollbacks : Nat
  restores : Nat
  ledger : Ledger
  checked : Nat
  decided : Nat
  endSeen : Bool
  endNs : Nat
  tokens : List TokenSum
  bayTok : Sparse Nat
  stop : Option Stop
  later : List Stop
  inputDigest : BitVec 384
  fault : Option FaultRec
  dfault : Option (Nat × Nat × Nat × Nat)
  vintageReq : Bool
  parkReq : Bool
  abortReq : Bool
  digestsHeld : Bool
  ofPour : Bool
  deriving DecidableEq, Repr

/-- A completion record (18 R386), with its label's bytes; signed once the label waits for no signature (21 R457). -/
structure Completion where
  serial : Nat
  status : Nat
  faultCode : Nat
  labelState : Nat
  flags : Nat
  pegno : Nat
  fabricCount : Nat
  prologueCount : Nat
  holdCount : Nat
  startNs : Nat
  endNs : Nat
  rollbacks : Nat
  label : Bytes
  signed : Bool
  deriving DecidableEq, Repr

/-- A rack stream (18 R383, 19 R412-R416). State 1 running, 2 complete, 3 failed; a closed stream is no longer listed. arrived
holds the segments of the landing buffer, retry the re-requests of each segment, credit the limit L and sentCredit the last one
sent, unsacked the landed segments that no SACK has shown yet, busy whether a BUSY refusal waits for its retry. -/
structure Rack where
  f : RackOpenF
  state : Nat
  session : DWord
  landed : Sparse Bool
  arrived : List (Nat × Bytes)
  retry : Sparse Nat
  credit : Nat
  sentCredit : Nat
  unsacked : List Nat
  busy : Bool
  retries : EvCnt
  crcErrors : EvCnt
  deriving DecidableEq, Repr

/-- An export over a stream (19 R417): the stream that lends its peer and keys and a copy of its parameters, the session, the
bytes (none before the vintage is drawn), OFFERs sent, whether the peer has asked, its credit limit, segments asked and not yet
sent. -/
structure Export where
  stream : Nat
  f : RackOpenF
  session : DWord
  bytes : Bytes
  offers : Nat
  started : Bool
  credit : Nat
  requested : List Nat
  rq : Requester
  park : Bool
  deriving DecidableEq, Repr

/-- States of a Pour sequence (20 R427, R434). -/
inductive PourSt where
  | incomplete
  | queued
  | prefill
  | decode
  | ended
  deriving DecidableEq, Repr

/-- A Pour sequence (20 R424-R436). prompt holds the token of each index that has arrived (got of them), head the REQUEST payload's
bytes 0 to 47, done the positions computed, served the step that last served it and admitted its admission (0 before the first),
pages (block, set, page), rowAt its rows in the present step as first row and count, waits whether its label waits for the seal's signature (21 R457). -/
structure PourSeq where
  id : Nat
  st : PourSt
  seed : Nat
  temp : Nat
  topP : Nat
  topK : Nat
  maxNew : Nat
  nprompt : Nat
  stop : List Nat
  head : Bytes
  src : PourSource
  replyIp : BitVec 128
  replyPort : Nat
  prompt : Sparse (Option Nat)
  got : Nat
  tokens : List Nat
  done : Nat
  slot : Nat
  served : Nat
  admitted : Nat
  pages : List (Nat × Nat × Nat)
  rowAt : Option (Nat × Nat)
  holds : Nat
  digestsHeld : Bool
  cancelled : Bool
  reason : Nat
  label : Option Bytes
  waits : Bool
  deriving DecidableEq, Repr

/-- The Pour service of a parcel (20 R421, R427, R440): its sequences with the never-admitted ones in arrival order, the ended ones that
are kept, steps completed, tokens sent, the next admission number. -/
structure Pour where
  serving : Bool
  draining : Bool
  stopping : Bool
  udpPort : Nat
  maxSeq : Nat
  taps : BitVec 8
  seqs : List PourSeq
  kept : List PourSeq
  steps : Nat
  tokens : Nat
  nextOrder : Nat
  deriving DecidableEq, Repr

def Pour.init : Pour :=
  { serving := false, draining := false, stopping := false, udpPort := 0, maxSeq := 0, taps := 0#8, seqs := [], kept := [],
    steps := 0, tokens := 0, nextOrder := 1 }

/-- TEL_PARCEL STATE (14 R303). -/
inductive PState where
  | none
  | idle
  | running
  | parking
  | parked
  | resuming
  deriving DecidableEq, Repr

/-- Who parked a parcel (14 R297, R298). -/
inductive ParkBy where
  | host
  | trellis
  | thermal
  | refLoss
  deriving DecidableEq, Repr

/-- One occurrence of a phase as the trellis measures it (14 R294): the phase, its start, samples, and the sums in mW of the dynamic, leakage
and cask power of each sample as referred to 1.8 GHz and 695 mV, with the sums of the temperature and of the VFAB current of a field in A; before
is the mean current of the occurrence before it. -/
structure Occurrence where
  phase : BitVec 8
  sinceNs : Nat
  untilNs : Nat
  n : Nat
  dyn : Nat
  leak : Nat
  cask : Nat
  temp : Nat
  amps : Nat
  before : Option Nat
  deriving DecidableEq, Repr

def Occurrence.start (phase : BitVec 8) (now : Nat) (before : Option Nat) : Occurrence :=
  { phase := phase, sinceNs := now, untilNs := now, n := 0, dyn := 0, leak := 0, cask := 0, temp := 0, amps := 0, before := before }

/-- The trellis's state of a parcel (14 R287-R299): weight and floor, its share, the shim budget and the sill clock in force and those
that the next peg brings, its attributed power, its phase, the FCODE that heat allows with the moment of the last thermal step and
whether a throttle stands, the FCODE it would rise to with the moment since which that has fitted, since when it is above 110 degrees, the
learned phase table, a hint, the phase's present occurrence and the one that has ended, a rise that waits for VFAB to settle with the count that
PRT_FSW named for it (12 R261, 15 R328). -/
structure PTrellis where
  weight : Nat
  floor : Nat
  share : Nat
  beta : Nat
  betaNext : Nat
  sclkNext : Nat
  power : Nat
  phase : BitVec 8
  ceil : Nat
  ceilNs : Nat
  hot : Bool
  fitNs : Option (Nat × Nat)
  hotNs : Option Nat
  learned : Sparse PhaseEnt
  hint : Option (BitVec 8 × Nat)
  occNow : Option Occurrence
  occEnd : Option Occurrence
  rising : Option (Nat × Option Nat)
  deriving DecidableEq, Repr

def PhaseEnt.none : PhaseEnt := { phase := 0, sigma := 0, tref := 0, irise := 0, pdyn := 0, pleak := 0, pcask := 0, occ := 0 }

def PTrellis.init : PTrellis :=
  { weight := 16, floor := 0, share := 0, beta := 16, betaNext := 16, sclkNext := 16, power := 0, phase := 0#8, ceil := 0x48, ceilNs := 0,
    hot := false, fitNs := none, hotNs := none, learned := [], hint := none, occNow := none, occEnd := none,
    rising := none }

/-- A parcel (17 R364, 18 R378). -/
structure Parcel where
  st : PState
  owner : Nat
  c0 : Nat
  r0 : Nat
  w : Nat
  h : Nat
  taps : BitVec 8
  test : Bool
  serial : Nat
  parkedBy : Option ParkBy
  image : Option Image
  awaits : List Await
  inv : Option Inv
  records : List Completion
  vint : List Vintage
  base : Option Nat
  nextSlot : Nat
  tr : PTrellis
  racks : List (Nat × Rack)
  exp : Option Export
  keys : List (Nat × Bytes)
  pour : Pour
  deriving DecidableEq, Repr

def Parcel.init : Parcel :=
  { st := .none, owner := 0, c0 := 0, r0 := 0, w := 0, h := 0, taps := 0#8, test := false, serial := 1, parkedBy := none, image := none,
    awaits := [], inv := none, records := [], vint := [], base := none, nextSlot := 0, tr := PTrellis.init, racks := [], exp := none, keys := [],
    pour := Pour.init }

/-- A raising command in progress (16 R336, R338). -/
structure RaiseCmd where
  op : Nat
  port : Nat
  fields : BitVec 10
  memtest : Bool
  atNs : Nat
  deriving DecidableEq, Repr

/-- The RAISE block and the staging window (16 R330-R336). -/
structure Raising where
  stage : Nat
  owner : Option Nat
  cmdRej : Bool
  lastOp : Nat
  cmd : Option RaiseCmd
  finishing : Bool
  errStep : Nat
  errField : Nat
  errOp : Nat
  errCode : Nat
  fwLen : Nat
  fwVer : Nat
  grainOk : Bool
  licOk : Bool
  done : Bool
  staging : Mem
  locked : Bool
  deriving DecidableEq, Repr

def Raising.init : Raising :=
  { stage := 0, owner := none, cmdRej := false, lastOp := 0, cmd := none, finishing := false, errStep := 0, errField := 15, errOp := 0,
    errCode := 0, fwLen := 0, fwVer := 0, grainOk := false, licOk := false, done := false, staging := [], locked := false }

/-- What leaves the module, in order: the trace of its outputs. -/
inductive OutEv where
  | msix (port : Nat) (vector : Nat)
  | dmaWrite (port : Nat) (addr : Nat) (bytes : Bytes)
  | readData (port : Nat) (bytes : Bytes) (poisoned : Bool)
  | unsupported (port : Nat)
  | completerAbort (port : Nat)
  | sideband (eid : Nat) (bytes : Bytes)
  | mctpReply (bus : SideBus) (bytes : Bytes)
  | datagram (tap : Nat) (sub : Nat) (dstIp : BitVec 128) (sport : Nat) (dport : Nat) (payload : Bytes)
  | arpReply (tap : Nat) (sub : Nat) (dstMac : BitVec 48) (dstIp : BitVec 32) (mac : BitVec 48)
  | ndpAdvert (tap : Nat) (sub : Nat) (dstMac : BitVec 48) (dstIp : BitVec 128) (mac : BitVec 48)
  | echoReply (tap : Nat) (sub : Nat) (v6 : Bool) (dstIp : BitVec 128) (body : Bytes)
  | lath (parcel : Nat) (type : Nat) (words : List Nat)
  | lathNode (node : LathNode) (m : LathMsg)
  | stopCmd (parcel : Nat) (count : Nat) (why : StopWhy)
  | restartCmd (parcel : Nat) (z : Nat)
  | loadNak (b : BayId) (m : LoadMsg)
  | loadResend (m : LoadMsg)
  | clockCmd (field : Nat) (type : Nat) (c : ClockCmd)
  | switched (field : Nat)
  | ptm (port : Nat) (wall : DWord)
  | stretch (field : Nat)
  | strut (b : BayId)
  | jtag (op : JtagOp)
  | thermtrip
  deriving DecidableEq, Repr

/-- A host port (17 R349-R361). held is what waits for the port's return to D0 (R351); posted holds the BAR2 writes in the gateway's buffer, oldest
first, each within a page, and reads the BAR2 reads not yet served (09 R196, 17 R355). -/
structure Port where
  linkUp : Bool
  perst : Bool
  speed : Nat
  width : Nat
  refmode : Nat
  refLost : Bool
  d3hot : Bool
  err : BitVec 5
  win : Sparse Word
  own : DWord
  done : DWord
  gen : Sparse Nat
  slots : Mem
  dropped : EvCnt
  evtPend : BitVec 16
  evtEn : BitVec 16
  msix : Mem
  mask : BitVec 96
  pba : BitVec 96
  held : List OutEv
  posted : List (Nat × Bytes × List Ecc)
  reads : List (Nat × Nat)
  deriving DecidableEq, Repr

def Port.init : Port :=
  { linkUp := false, perst := true, speed := 0, width := 0, refmode := 0, refLost := false, d3hot := false, err := 0#5, win := [],
    own := 0#64, done := 0#64, gen := [], slots := [], dropped := EvCnt.init, evtPend := 0#16, evtEn := 0#16, msix := [],
    mask := BitVec.allOnes 96, pba := 0#96, held := [], posted := [], reads := [] }

/-- A sub-link of a tap port (19 R404, R418). -/
structure SubLink where
  link : Bool
  cnt : Sparse EvCnt
  neigh : List (BitVec 128 × BitVec 48)
  deriving DecidableEq, Repr

def SubLink.init : SubLink := { link := false, cnt := [], neigh := [] }

/-- A tap port (19 R403-R408, 23 R482). -/
structure Tap where
  mode : Nat
  mtu : Nat
  mac : BitVec 48
  ipv6 : BitVec 128
  ipv4 : BitVec 32
  present : Bool
  copper : Bool
  identified : Bool
  subs : Sparse SubLink
  deriving DecidableEq, Repr

def Tap.init : Tap :=
  { mode := 0, mtu := 1500, mac := 0, ipv6 := 0, ipv4 := 0, present := false, copper := false, identified := false, subs := [] }

/-- An entry of the fault log (15 R325), its DETAIL as fields of a size and a value. -/
structure LogEnt where
  seq : Nat
  wall : Nat
  count : Nat
  pegno : Nat
  code : Nat
  parcel : Nat
  eflag : Nat
  unit : Nat
  x : Nat
  y : Nat
  idx : Nat
  action : Nat
  suspectFrom : Nat
  detail : List (Nat × Nat)
  deriving DecidableEq, Repr

/-- One record of the summary (15 R324, 18 R395). -/
structure SumRec where
  code : Nat
  unit : Nat
  x : Nat
  y : Nat
  idx : Nat
  count : Nat
  first : Nat
  last : Nat
  deriving DecidableEq, Repr

/-- The escalation state that the summary holds (15 R324). Bents by 12 × field + bent. -/
structure Esc where
  esc : Sparse Nat
  ceil : Sparse Nat
  holes : List (Nat × Nat)
  columns : List (Nat × Nat × Nat × Nat)
  staves : List (Nat × Nat)
  bents : List Nat
  seams : List Nat
  casks : List Nat
  shorted : List Nat
  deriving DecidableEq, Repr

def Esc.init : Esc :=
  { esc := [], ceil := [], holes := [], columns := [], staves := [], bents := [], seams := [], casks := [], shorted := [] }

/-- The fault log and its summary (15 R324). -/
structure FaultLog where
  ring : List LogEnt
  next : Nat
  lost : EvCnt
  recs : List SumRec
  esc : Esc
  trips : List LogEnt
  lastWrite : Option Nat
  deriving DecidableEq, Repr

def FaultLog.init : FaultLog :=
  { ring := [], next := 1, lost := EvCnt.init, recs := [], esc := Esc.init, trips := [], lastWrite := none }

/-- A licence (21 R453). -/
structure Licence where
  serial : Nat
  fields : Nat
  parcels : Nat
  tapLanes : Nat
  powerMax : Nat
  features : Nat
  deriving DecidableEq, Repr

/-- A registered key (21 R455). -/
structure RegKey where
  id : Nat
  use_ : Nat
  pub : Bytes
  deriving DecidableEq, Repr

/-- The seal (21): what is volatile, and what the module record flash keeps (R446): licence and key partitions, the counters. -/
structure Seal where
  ready : Bool
  halted : Bool
  entropyFails : Nat
  mr : List (BitVec 384)
  fwFloor : Nat
  pkgFloor : Nat
  debugCounter : Nat
  storeEpoch : Nat
  licence : Option Licence
  licFlash : Bytes
  keys : List RegKey
  keysFlash : List RegKey
  scope : Nat
  nonce : Option (Bytes × Nat)
  microDigest : BitVec 384
  sillDigest : BitVec 384
  identity : Bool
  deriving DecidableEq, Repr

def Seal.init : Seal :=
  { ready := false, halted := false, entropyFails := 0, mr := [0, 0, 0, 0, 0, 0, 0, 0], fwFloor := 0, pkgFloor := 0, debugCounter := 0,
    storeEpoch := 0, licence := none, licFlash := [], keys := [], keysFlash := [], scope := 0, nonce := none, microDigest := 0,
    sillDigest := 0, identity := true }

/-- A ramp contract (14 R290-R292). State 0 none, 1 active, 2 met, 3 missed, 4 withdrawn. win counts its 20 ms windows, sum and cnt
the samples of the present one, seen the causes of R293 that fell during it. -/
structure Contract where
  target : Nat
  rateUp : Nat
  deadline : Nat
  p0 : Nat
  arrived : Nat
  state : Nat
  reason : Nat
  lessee : Bool
  level : Nat
  win : Nat
  sum : Nat
  cnt : Nat
  seen : List Nat
  deriving DecidableEq, Repr

/-- A telemetry reading that the trellis holds (14 R281, R283): power in mW or degrees, the warning limit of a plate sensor, its moment. -/
structure Reading where
  v : Nat
  limit : Nat
  ns : Nat
  deriving DecidableEq, Repr

def Reading.init : Reading := { v := 0, limit := 0, ns := 0 }

/-- One window of 1 ms of the wall timebase (14 R282): its number, the terminal samples with their sum in W and the highest, and the sum of
all rail powers at those samples in mW. -/
structure PowerWin where
  no : Nat
  n : Nat
  sum : Nat
  peak : Nat
  rails : Nat
  deriving DecidableEq, Repr

/-- The trellis (14): the terms of R285, contracts, TRL_FAST_CAP, thermal cuts of 10 %, windows over the cap, TRL_EVT, the telemetry
mirror by offset (R302), energy in microjoules, module and base power, forecast bins, mismatches, the last readings of its sensors (R281;
by 64 × rail + phase, 10000 + 156 × field + 13 × bent + position, 12000 + cask, 13000 + plate sensor, 13998 inlet, 13999 outlet), the
stale ones already reported, the last terminal sample and the last 100 power windows, the present one first. -/
structure Trellis where
  hostCap : Option Nat
  lease : Option (Nat × Nat × Nat)
  leaseCap : Option Nat
  contractP : Option Contract
  contractL : Option Contract
  latest : Option Contract
  fastCap : Word
  fastActive : Word
  fastDue : Option Nat
  thermalCut : Nat
  warnNs : Option Nat
  overs : Nat
  evt : BitVec 9
  mirror : Sparse Word
  energyUj : Nat
  power : Nat
  base : Nat
  bins : List (Nat × Nat)
  binsNs : Nat
  mismatches : List Nat
  reloading : Bool
  failed : Bool
  started : Bool
  sideEid : Nat
  sensors : Sparse Reading
  stale : List Nat
  vin : Nat
  iin : Nat
  wins : List PowerWin
  deriving DecidableEq, Repr

/-- TEL_CAP resets to the licence term (R303). -/
def Trellis.init : Trellis :=
  { hostCap := none, lease := none, leaseCap := none, contractP := none, contractL := none, latest := none, fastCap := 0, fastActive := 0,
    fastDue := none, thermalCut := 0, warnNs := none, overs := 0, evt := 0#9, mirror := [(8, 0x00040000#32)], energyUj := 0, power := 0,
    base := 0, bins := [], binsNs := 0, mismatches := [], reloading := false, failed := false, started := false, sideEid := 0, sensors := [],
    stale := [], vin := 0, iin := 0, wins := [] }

/-- The power path and the references (12 R246-R250, 13 R264-R269), the hub counters of the plate, REG exchanges without a reply, the fields
whose plate link of the lath is out of reset, the counters' latches by reader (00 R7). -/
structure Plate where
  inputLoss : Option Nat
  returned : Bool
  disconnect : Bool
  conv : BitVec 4
  bus : Bool
  plateRails : Bool
  plateReset : Bool
  insulation : Nat
  ref25Lost : Bool
  ref156Lost : Bool
  oscLost : Bool
  holdover : Bool
  sync : Bool
  master : Nat
  wall : DWord
  slewPpm : Int
  slewFrac : Nat
  lathPlate : List Nat
  refCnt : Sparse EvCnt
  hubCnt : Sparse EvCnt
  regOut : List (LathNode × LathMsg)
  cmstPairs : List Nat
  cmstFailed : Bool
  cmstRunning : Bool
  latches : Sparse Word
  deriving DecidableEq, Repr

def Plate.init : Plate :=
  { inputLoss := none, returned := true, disconnect := false, conv := 15#4, bus := false, plateRails := false, plateReset := true,
    insulation := 0, ref25Lost := false, ref156Lost := false, oscLost := false, holdover := false, sync := false, master := 0, wall := 0#64,
    slewPpm := 0, slewFrac := 0, lathPlate := [], refCnt := [], hubCnt := [], regOut := [], cmstPairs := [], cmstFailed := false, cmstRunning := false, latches := [] }

/-- The pins and the sideband (23 R483-R488). -/
structure Pins where
  hvEn : Bool
  hvEnWait : Bool
  hvOffNs : Option Nat
  pwrOk : Bool
  modResetLow : Bool
  alert : Bool
  therm : Option TripSource
  tripRec : List TripSource
  sbStrap : BitVec 3
  sbAddr : BitVec 3
  eidI3c : BitVec 8
  eidSmb : BitVec 8
  i3cDyn : Option (BitVec 7)
  deriving DecidableEq, Repr

def Pins.init : Pins :=
  { hvEn := false, hvEnWait := false, hvOffNs := none, pwrOk := false, modResetLow := false, alert := false, therm := none,
    tripRec := [], sbStrap := 0#3, sbAddr := 0#3, eidI3c := 0#8, eidSmb := 0#8, i3cDyn := none }

/-- An armed injection (15 R327, R328): whether the next peg has passed, and the target. -/
structure Armed where
  pegSeen : Bool
  deriving DecidableEq, Repr

/-- The perturbation block (15 R327, R328); live names the bay and the bank whose access has met an injected error, until its fault is raised. -/
structure Prt where
  ctrl : Word
  cellar : Word
  holdPeg : Word
  hold : Word
  stretch : Word
  xphase : Word
  land : Word
  fsw : Word
  fswLo : Word
  fswHi : Word
  injTgt : Word
  injCtrl : Word
  armed : Option Armed
  live : Option (Nat × Nat)
  deriving DecidableEq, Repr

def Prt.init : Prt :=
  { ctrl := 0, cellar := 0, holdPeg := 0, hold := 0, stretch := 0, xphase := 0, land := 0, fsw := 0, fswLo := 0, fswHi := 0, injTgt := 0,
    injCtrl := 0, armed := none, live := none }

/-- A request whose answer waits for an event (18 R378-R397); a draw's names the decided peg that takes it (11 R230). -/
inductive WaitFor where
  | parked
  | resumed
  | runStart (serial : Nat)
  | vintage (peg : Option Nat)
  | digest (cask : Nat) (base : Nat)
  | pourStop
  | pourCancel (n : Nat)
  | exportEnd (cut : List CutEntry) (park : Bool)
  | tapLink (tap : Nat)
  | sound (f : SoundF) (found : SoundFinding)
  | transfer (done fail : Nat) (rest : List CutEntry)
  deriving DecidableEq, Repr

def WaitFor.isVintage : WaitFor → Bool
  | .vintage _ => true
  | _ => false
def WaitFor.isExport : WaitFor → Bool
  | .exportEnd _ _ => true
  | _ => false

/-- rq is none once a port reset has discarded the answer (17 R368). -/
structure Wait where
  rq : Option Requester
  msg : Nat
  parcel : Nat
  arrivedNs : Nat
  what : WaitFor
  deriving DecidableEq, Repr

/-- A command that the block has not taken up yet: a request that waits for the posted writes of its port or for its turn in a queue (17 R356, R367), or
a write of a port that waits for posted-write credits (R355). keys names its queues, 4 parcels and 0xFF for the module; now says that it is immediate. -/
structure Held where
  port : Option Nat
  slot : Option Nat
  write : Bool
  keys : List Nat
  now : Bool
  cmd : Instr
  deriving DecidableEq, Repr

end Sys2Proof.Machine
end

