-- ==== Sys2Proof/Config.lean ====
section
/-! DEFINITION. What the manual leaves open: values with no body, so that no proof can see what they are, and the keys that
Skaxo holds outside the manual. Each names its log entry. -/

namespace Sys2Proof.Config

/-- A byte the manual leaves open: a panel half's after a MODE that took effect (03_bays_and_presses R51 "the bytes of the
halves become undefined"), and data that a read delivers poisoned (05_vats R100). Applied to the bay, to the epoch of the event
and to the byte's index. Log entry 4. -/
opaque freeByte : Nat → Nat → Nat → Byte

/-- A fresh value of the device's random sources or of a result the manual does not state: 21_seal R441 (DRBG, entropy),
19_tap R409 (SESSION). Applied to the state's counter of free values. Log entry 5. -/
opaque freeNat : Nat → Nat

/-- The integers r and s of an ECDSA signature the seal makes (11_same_bits R242, 21_seal R451): they rest on a private key
and on a per-signature secret that the manual does not give. Applied to the signing key's name and the signed digest.
Log entry 6. -/
opaque signature : Nat → Nat → Nat × Nat

/-- The device identity public key and the alias public key as 97-byte points (21_seal R444), derived from the unique
device secret, which the manual does not give. Argument: 0 the identity key, otherwise the CDI's measurements. Log entry 6. -/
opaque devicePublicKey : Nat → Bytes

/-- Skaxo's public keys, as affine coordinates on brainpoolP384r1 (21_seal R448, R449, R453, R456): 0 firmware, 1
manufacturing (grain maps), 2 licence, 3 debug. The manual does not give their values. Log entry 7. -/
opaque skaxoKey : Nat → Nat × Nat

/-- The certificates of 21_seal R445 in DER (alias, device and intermediate), whose octets the manual does not give.
Log entry 6. -/
opaque certChain : Nat → Bytes

/-- The digest of the seal ROM that extends MR0 (21_seal R450). The manual does not give it. Log entry 7. -/
opaque sealRomDigest : BitVec 384

/-- The module serial number (18_cazer R376), 16 ASCII bytes set at manufacture. Log entry 7. -/
opaque serialNo : Bytes

/-- Skaxo's PCI Vendor ID (17_host R349: "This manual does not state its numeric value"). Log entry 7. -/
opaque vendorId : BitVec 16

/-- The payload of a vintage record "in the stepping's own layout" (11_same_bits R236): the bytes that stand for a record's
state. Applied to the record's kind and place, to the parts of it whose form the manual fixes (the 32-byte tun records of 02 R28,
pieces, flags, pointers), and to the state's counter of free values at the draw. Log entry 8. -/
opaque recordPayload : Nat → Nat → List Bytes → Nat → Bytes

/-- What the records of a vintage drawn elsewhere hold, read back from their payload (11_same_bits R236): the state of the bays, the
writes on their way in each cask, SFLAGS, the awaits' flags and locks, the crossings' pointers and the flits under way. Log entry 8. -/
opaque vintageBays : Bytes → List (Nat × Machine.Bay)
opaque vintageWrites : Bytes → List (Nat × List Machine.CaskWrite)
opaque vintageSflags : Bytes → List (Nat × BitVec 9)
opaque vintageAwaits : Bytes → List (Bool × Bool)
opaque vintageCrossings : Bytes → List (Nat × Nat)
opaque vintageFlights : Bytes → List Machine.Flight

/-- Whether a MOD_RESET_N pulse between 1 us and 10 us acts (23_module R486 "may or may not act"). Applied to the width in
nanoseconds. Log entry 9. -/
opaque shortResetActs : Nat → Bool

/-- Whether the seal reconstructs its unique device secret when its ROM starts (21_seal R443): it rests on the PUF and on helper data that
the manual does not give. Applied to the state's counter of free values. Log entry 7. -/
opaque pufReads : Nat → Bool

end Sys2Proof.Config
end

