-- ==== Sys2Proof/Machine/Fp32.lean ====
section
/-! DEFINITION. IEEE 754 binary32 as implemented, conversions and the counter generator (04_the_lathe R68-R70, R78, R80-R81).
Flags stand in the layout of LFLAGS: NV 4, DZ 3, OF 2, UF 1, NX 0 (R79). -/

namespace Sys2Proof.Machine
open Sys2Proof

/-- Every NaN the lathe produces (R69). -/
def fpNan : Word := 0x7FC00000#32
/-- ±∞. -/
def fpInf (s : Bool) : Word := if s then 0xFF800000#32 else 0x7F800000#32
/-- ±0. -/
def fpZero (s : Bool) : Word := if s then 0x80000000#32 else 0#32
/-- 1.0 (R72 ONE). -/
def fpOne : Word := 0x3F800000#32

def flNone : BitVec 5 := 0#5
def flNV : BitVec 5 := 0x10#5
def flDZ : BitVec 5 := 0x08#5
def flOF : BitVec 5 := 0x04#5
def flUF : BitVec 5 := 0x02#5
def flNX : BitVec 5 := 0x01#5

/-- A NaN operand? -/
def isNan (v : Word) : Bool := decide (v.toNat % 2 ^ 31 > 0x7F800000)
/-- A signalling NaN: mantissa bit 22 clear (R69). -/
def isSnan (v : Word) : Bool := isNan v && bitsOf v.toNat 22 1 == 0
/-- The flag an operand raises when it is a signalling NaN. -/
def snanFl (v : Word) : BitVec 5 := if isSnan v then flNV else flNone

/-- A result without flags. -/
def fpOf (v : Word) : FpOut := { val := v, fl := flNone }

/-- Round to nearest, ties to even, of m × 2^(-k). -/
def rneShift (m k : Nat) : Nat :=
  let t := m / 2 ^ k
  let rem := m % 2 ^ k
  if k = 0 then m
  else if 2 * rem < 2 ^ k then t
  else if 2 ^ k < 2 * rem then t + 1
  else t + t % 2

/-- Round m × 2^d to the nearest integer; exact when 0 ≤ d. -/
def rneInt (m : Nat) (d : Int) : Nat := if 0 ≤ d then m * 2 ^ d.toNat else rneShift m (-d).toNat

/-- The binary32 nearest to ±m × 2^e (m not 0), ties to even, with tininess detected after rounding (R68, R71). -/
def roundExact (s : Bool) (m : Nat) (e : Int) (inexactIn : Bool) : FpOut :=
  let l := (Nat.log2 m : Int) + e
  let q := (if l > -126 then l else -126) - 23
  let n := rneInt m (e - q)
  let inexact := inexactIn || !(shiftExact m (e - q))
  let tiny :=
    if l ≥ -126 then false
    else if l = -127 then decide (rneInt m (e + 150) < 2 ^ 24)
    else true
  if dyadicGt n q (2 ^ 24 - 1) 104 then { val := fpInf s, fl := flOF ||| flNX }
  else
    { val := BitVec.ofNat 32 (encodeFinite 0x0#4 s n q)
      fl := if inexact then (if tiny then flUF ||| flNX else flNX) else flNone }

/-- The binary32 nearest to ±(m + θ) × 2^e with 0 < θ < 1, m having at least 26 bits: the exact value is not a binary32. -/
def roundSticky (s : Bool) (m : Nat) (e : Int) : FpOut := roundExact s (2 * m + 1) (e - 1) true

/-- The value of a finite signed dyadic sum; a zero sum takes the sign zs. -/
def roundSigned (n : Int) (e : Int) (zs : Bool) : FpOut :=
  if n = 0 then fpOf (fpZero zs) else roundExact (decide (n < 0)) n.natAbs e false

/-- ±m as an integer. -/
def signedMag (s : Bool) (m : Nat) : Int := if s then -(m : Int) else (m : Int)

/-- The exact sum of two exact values, rounded once; f are flags already raised. -/
def fpSum (a b : Exact) (f : BitVec 5) : FpOut :=
  match a, b with
  | .nan, _ => { val := fpNan, fl := f }
  | _, .nan => { val := fpNan, fl := f }
  | .inf s, .inf t => if s = t then { val := fpInf s, fl := f } else { val := fpNan, fl := f ||| flNV }
  | .inf s, .fin _ _ _ => { val := fpInf s, fl := f }
  | .fin _ _ _, .inf t => { val := fpInf t, fl := f }
  | .fin s m e, .fin t n g =>
    let lo := if e < g then e else g
    let x := signedMag s (m * 2 ^ (e - lo).toNat) + signedMag t (n * 2 ^ (g - lo).toNat)
    let o := roundSigned x lo (if m = 0 && n = 0 then s && t else false)
    { val := o.val, fl := o.fl ||| f }

/-- The exact product of two values; NV for 0 × ∞. -/
def exactMul (a b : Exact) : Exact × BitVec 5 :=
  match a, b with
  | .nan, _ => (.nan, flNone)
  | _, .nan => (.nan, flNone)
  | .inf s, .inf t => (.inf (s != t), flNone)
  | .inf s, .fin t m _ => if m = 0 then (.nan, flNV) else (.inf (s != t), flNone)
  | .fin s m _, .inf t => if m = 0 then (.nan, flNV) else (.inf (s != t), flNone)
  | .fin s m e, .fin t n g => (.fin (s != t) (m * n) (e + g), flNone)

/-- Round an exact value. -/
def fpRound (a : Exact) (f : BitVec 5) : FpOut :=
  match a with
  | .nan => { val := fpNan, fl := f }
  | .inf s => { val := fpInf s, fl := f }
  | .fin s m e => if m = 0 then { val := fpZero s, fl := f } else let o := roundExact s m e false; { val := o.val, fl := o.fl ||| f }

/-- FADD (R68). -/
def fpAdd (a b : Word) : FpOut := fpSum (addendOf a) (addendOf b) (snanFl a ||| snanFl b)

/-- FNEG: flip bit 31 (R66). -/
def fpNeg (a : Word) : Word := a ^^^ 0x80000000#32
/-- FABS: clear bit 31 (R66). -/
def fpAbs (a : Word) : Word := a &&& 0x7FFFFFFF#32

/-- Negate an exact value. -/
def Exact.neg : Exact → Exact
  | .nan => .nan
  | .inf s => .inf (!s)
  | .fin s m e => .fin (!s) m e

/-- FSUB (R68). -/
def fpSub (a b : Word) : FpOut := fpSum (addendOf a) (addendOf b).neg (snanFl a ||| snanFl b)

/-- FMUL (R68). -/
def fpMul (a b : Word) : FpOut :=
  let p := exactMul (addendOf a) (addendOf b)
  fpRound p.1 (p.2 ||| snanFl a ||| snanFl b)

/-- FFMA: one rounding of a × b + c; 0 × ∞ is NaN with NV whatever c is (R68). -/
def fpFma (a b c : Word) : FpOut :=
  let p := exactMul (addendOf a) (addendOf b)
  fpSum p.1 (addendOf c) (p.2 ||| snanFl a ||| snanFl b ||| snanFl c)

/-- The order of two numbers neither of which is a NaN, with −0 below +0 (R70). -/
def fpTotalLt (a b : Word) : Bool :=
  let key : Word → Int := fun v => if v.toNat < 2 ^ 31 then (v.toNat : Int) else -((v.toNat : Int) - 2 ^ 31) - 1
  decide (key a < key b)

/-- FMIN (R70). -/
def fpMin (a b : Word) : FpOut :=
  let f := snanFl a ||| snanFl b
  if isNan a || isNan b then { val := fpNan, fl := f } else { val := if fpTotalLt b a then b else a, fl := f }

/-- FMAX (R70). -/
def fpMax (a b : Word) : FpOut :=
  let f := snanFl a ||| snanFl b
  if isNan a || isNan b then { val := fpNan, fl := f } else { val := if fpTotalLt a b then b else a, fl := f }

/-- The sign-magnitude value of a number that is not a NaN, with −0 equal to +0. -/
def fpKey (v : Word) : Int := if v.toNat < 2 ^ 31 then (v.toNat : Int) else -((v.toNat : Int) - 2 ^ 31)

/-- FCMP.EQ, FCMP.LT and FCMP.LE, quiet (R70): the bit and the flag. -/
def fpCmp (rel : Int → Int → Bool) (a b : Word) : Bool × BitVec 5 :=
  (if isNan a || isNan b then false else rel (fpKey a) (fpKey b), snanFl a ||| snanFl b)

/-- CVT.I2F (R78). -/
def cvtI2F (v : Word) : FpOut := roundSigned v.toInt 0 false

/-- CVT.F2I (R78) under RM, with the random word of R34 for RM 0x3. -/
def cvtF2I (v : Word) (rm : BitVec 2) (r16 : Nat) : FpOut :=
  match addendOf v with
  | .nan => { val := 0#32, fl := flNV }
  | .inf s => { val := if s then 0x80000000#32 else 0x7FFFFFFF#32, fl := flNV }
  | .fin s m e =>
    let r := roundInt (signedMag s m) e rm r16
    if r > 2 ^ 31 - 1 then { val := 0x7FFFFFFF#32, fl := flNV }
    else if r < -(2 ^ 31) then { val := 0x80000000#32, fl := flNV }
    else { val := BitVec.ofInt 32 r, fl := if shiftExact m e then flNone else flNX }

/-- One element of CVT.UNPACK: the exact value as FP32 under scale code k; beyond the range ±∞ with OF (R78). -/
def unpackElem (code : Nat) (fmt : BitVec 4) (k : Nat) : FpOut :=
  if k = 0xFF then fpOf fpNan
  else
    match decodeElem code fmt with
    | .nan => fpOf fpNan
    | .inf s => fpOf (fpInf s)
    | .fin s m e =>
      let o := fpRound (.fin s m (e + ((k : Int) - 127))) flNone
      { val := o.val, fl := o.fl &&& flOF }

/-- The tun that holds an FP32 value (R78 CVT.PACK): its integer and exponent exactly, or its special flag. -/
def tunOfFp (v : Word) : Tun :=
  match addendOf v with
  | .nan => { Tun.empty with tn := true }
  | .inf s => if s then { Tun.empty with tm := true } else { Tun.empty with tp := true }
  | .fin s m e => { Tun.empty with v := BitVec.ofInt 128 (signedMag s m), anchor := e }

/-- One bit word of the round constants of CGEN (R81). -/
def cgenKC : List Nat :=
  [0x5A3C96E1, 0xC3B52D47, 0x1F86E4A9, 0x7D205BC3, 0xE6F10A5D, 0x38A9C714, 0xB24E6F8B, 0x0C97D236, 0x95D348FE, 0x4B6AB170]

/-- The four words of the counter generator's state. -/
structure CgenX where
  x0 : Word
  x1 : Word
  x2 : Word
  x3 : Word
  deriving DecidableEq, Repr

/-- rotl(w, 16) of R80. -/
def rot16 (w : Word) : Word := w.rotateLeft 16

/-- One round of R80 under the round keys u and v. -/
def cgenRound (x : CgenX) (u v : Word) : CgenX :=
  let a := x.x0 * 0x10010011#32
  let b := x.x2 * 0x01101001#32
  { x0 := rot16 b ^^^ x.x1 ^^^ u, x1 := b, x2 := rot16 a ^^^ x.x3 ^^^ v, x3 := a }

/-- The rounds of R80; even rounds take k[0], k[1], odd rounds k[2], k[3]. -/
def cgenRounds (k : CgenX) : List Nat → Bool → CgenX → CgenX
  | [], _, x => x
  | c :: cs, odd, x =>
    let kc := BitVec.ofNat 32 c
    let u := (if odd then k.x2 else k.x0) ^^^ kc
    let v := (if odd then k.x3 else k.x1) ^^^ kc
    cgenRounds k cs (!odd) (cgenRound x u v)

/-- cgen(K, C) of R80. -/
def cgen (k c : CgenX) : CgenX := cgenRounds k cgenKC false c

/-- The words of a 128-bit value. -/
def CgenX.ofBits (v : BitVec 128) : CgenX :=
  { x0 := BitVec.ofNat 32 v.toNat, x1 := BitVec.ofNat 32 (v.toNat / 2 ^ 32),
    x2 := BitVec.ofNat 32 (v.toNat / 2 ^ 64), x3 := BitVec.ofNat 32 (v.toNat / 2 ^ 96) }

/-- The 128-bit value x3 : x2 : x1 : x0. -/
def CgenX.toNat (x : CgenX) : Nat := x.x0.toNat + 2 ^ 32 * x.x1.toNat + 2 ^ 64 * x.x2.toNat + 2 ^ 96 * x.x3.toNat

/-- Where a stochastic rounding is made: the unit and quarter of R83 and the bay's parcel-relative place. -/
structure RoundSite where
  px : Nat
  py : Nat
  unit : Nat
  quarter : Nat
  count : Nat
  deriving DecidableEq, Repr

/-- The counter of R83 for the element group ⌊j/8⌋. -/
def roundCounter (r : RoundSite) (index : Nat) : CgenX :=
  { x0 := BitVec.ofNat 32 index
    x1 := BitVec.ofNat 32 r.count
    x2 := BitVec.ofNat 32 (r.px % 64 + 64 * (r.py % 32) + 2048 * (r.unit % 8) + 16384 * (r.quarter % 4))
    x3 := BitVec.ofNat 32 (r.count / 2 ^ 32 % 2 ^ 28 + 2 ^ 28) }

/-- The 16 random bits of element j (R34, R83): field j mod 8 of the counter of ⌊j/8⌋. -/
def roundRandom (key : BitVec 128) (r : RoundSite) (j : Nat) : Nat :=
  bitsOf (cgen (CgenX.ofBits key) (roundCounter r (j / 8))).toNat (16 * (j % 8)) 16

end Sys2Proof.Machine
end

