-- ==== Sys2Proof/Machine/BayVat.lean ====
section
/-! DEFINITION. The bay's agenda and registers, and the vat: reads, plain and accumulating writes, bank conflicts, power states
(05_vats R87-R101, 00_scope R9). -/

namespace Sys2Proof.Machine
open Sys2Proof

/-- Count k events (00_scope R9): the counter saturates at 2^48 - 1 and SAT holds that it has. -/
def EvCnt.add (c : EvCnt) (k : Nat) : EvCnt :=
  if k = 0 then c
  else if 2 ^ 48 - 1 ≤ c.n + k then { n := 2 ^ 48 - 1, sat := true } else { c with n := c.n + k }

/-- The bay counters by number (05 R101, 06 R129, 08 R172). -/
def cntVatCe : Nat := 0
def cntVatUe : Nat := 1
def cntClosedWrite : Nat := 2
def cntClosedRead : Nat := 3
def cntPlanCe : Nat := 4
def cntPlanUe : Nat := 5
def cntLathCe : Nat := 6
def cntLathUe : Nat := 7
def cntLoadNak : Nat := 8

def Bay.counter (b : Bay) (i : Nat) : EvCnt := Sparse.get EvCnt.init b.counters i

/-- Add k to a bay counter. -/
def Bay.count (b : Bay) (i k : Nat) : Bay :=
  { b with counters := Sparse.modify EvCnt.init b.counters i (fun c => c.add k) }

/-- Insert into a list kept in the order of (count, phase), after the entries of the same order. -/
def dueInsert (d : Due) : List Due → List Due
  | [] => [d]
  | x :: xs => if d.at_ < x.at_ || (d.at_ = x.at_ && d.phase < x.phase) then d :: x :: xs else x :: dueInsert d xs

/-- Put an event on the agenda. -/
def Bay.due (b : Bay) (c : Int) (phase : Nat) (e : BEv) : Bay :=
  { b with agenda := dueInsert { at_ := c, phase := phase, ev := e } b.agenda }

/-- Emit. -/
def BayM.emit (m : BayM) (o : BOut) : BayM := { m with out := m.out ++ [o] }

/-- Change the bay. -/
def BayM.upd (m : BayM) (f : Bay → Bay) : BayM := { m with bay := f m.bay }

/-- A fault was raised by work of the prologue (05 R103): RESIDENT_VALID will not be set. -/
def BayM.proFault (m : BayM) (prologue : Bool) : BayM :=
  if prologue then m.upd (fun b => { b with vat := { b.vat with proFault := true } }) else m

/-- A detected fault leaves the bay now; one of the prologue is noted (05 R103). -/
def BayM.raise (m : BayM) (code : Nat) (count : Int) (idx : Nat) (detail : List (Nat × Nat)) : BayM :=
  (m.proFault (!m.bay.seq.body)).emit (.fault code count idx detail)

/-- A schedule breach (03 R54): the bay keeps the first one in its breach record and sends a token for it. -/
def BayM.breach (m : BayM) (cause : Nat) (count : Int) (unit : Nat) : BayM :=
  let m := m.proFault (!m.bay.seq.body)
  if m.bay.breach.cause = 0 then
    (m.upd (fun b => { b with breach := { cause := cause, count := count, unit := unit } })).emit (.breach cause count unit)
  else m

/-- Breach causes of R54. -/
def brOperandInvalid : Nat := 1
def brBufferOverwrite : Nat := 2
def brTunCount : Nat := 3
def brCombine : Nat := 4
def brDrainWindow : Nat := 5
def brDrainBusy : Nat := 6
def brModeConflict : Nat := 7
def brEnvelope : Nat := 8
def brClosedWrite : Nat := 9
def brBankConflict : Nat := 10
def brReadLate : Nat := 11

/-- Units of a breach record: presses 0-3, lathe 4, vat 5, racking unit 6, router 7 (the manual gives no numbers; log entry 11). -/
def unitLathe : Nat := 4
def unitVat : Nat := 5
def unitRack : Nat := 6
def unitRouter : Nat := 7

/-- Raise a detected fault at a later count. -/
def Bay.faultAt (b : Bay) (c : Int) (code idx : Nat) (detail : List (Nat × Nat)) : Bay :=
  b.due c 0 (.fault code idx detail)

/-- The number that stands for the source of R100 in a fault's detail (DESIGN CHOICE, log entry 52: the spec names the sources and numbers
none). -/
def VSrc.code : VSrc → Nat
  | .ecc => 0
  | .closedRead => 1
  | .conflict => 2
  | .poison => 3

/-- Registers. -/
def Bay.idxReg (b : Bay) (i : Nat) : Word := Sparse.get 0#32 b.seq.idx i
/-- Q0 always reads 1 (06 R118). -/
def Bay.predReg (b : Bay) (q : Nat) : Bool := if q = 0 then true else Sparse.get false b.seq.pred q
/-- A write to Q0 has no effect (06 R118). -/
def Bay.setPred (b : Bay) (q : Nat) (v : Bool) : Bay :=
  if q = 0 then b else { b with seq := { b.seq with pred := Sparse.set false b.seq.pred q v } }
def Bay.setIdx (b : Bay) (i : Nat) (v : Word) : Bay :=
  { b with seq := { b.seq with idx := Sparse.set 0#32 b.seq.idx i v } }
/-- Is an instruction with this PRED on (06 R118)? -/
def Bay.isOn (b : Bay) (p : Pred) : Bool := (b.predReg p.q.toNat) != p.qn
def Bay.press (b : Bay) (i : Nat) : Press := Sparse.get Press.init b.presses i
def Bay.setPress (b : Bay) (i : Nat) (p : Press) : Bay := { b with presses := Sparse.set Press.init b.presses i p }
def Press.quarter (p : Press) (i : Nat) : PQuarter := Sparse.get PQuarter.init p.quarters i
def Press.setQuarter (p : Press) (i : Nat) (q : PQuarter) : Press :=
  { p with quarters := Sparse.set PQuarter.init p.quarters i q }

/-- A vat address of 23 bits with its low bits below the alignment cleared (06 R115, 07 R133). -/
def Bay.vatAddr (b : Bay) (i off align : Nat) : Nat :=
  let a := ((b.idxReg i).toNat + off) % 2 ^ 32 % 2 ^ 23
  a / align * align

/-- Bank of an address (05 R87). -/
def bankOf (a : Nat) : Nat := a / 64 % 64
/-- Granule index of an address. -/
def granOf (a : Nat) : Nat := a / 8 % 2 ^ 20

def Vat.bank (v : Vat) (i : Nat) : Bank := Sparse.get Bank.init v.banks i
def Vat.setBank (v : Vat) (i : Nat) (k : Bank) : Vat := { v with banks := Sparse.set Bank.init v.banks i k }
def Vat.granCode (v : Vat) (g : Nat) : Nat := Sparse.get 0 v.gran g
/-- A bank accepts access when it is ACTIVE and no wake is pending (05 R97, R98). -/
def Bank.awake (k : Bank) : Bool := decide (k.power = .active)

/-- Add to a list without repeats. -/
def addNew (l : List Nat) (x : Nat) : List Nat := if l.contains x then l else l ++ [x]

/-- The granule addresses of an access. -/
def granAddrs (addr len : Nat) : List Nat := (List.range (len / 8)).map (fun i => (addr + 8 * i) % 2 ^ 23)

/-- The word indices (64 bytes) that an access touches. -/
def wordsOf (addr len : Nat) : List Nat := (granAddrs addr len).foldl (fun l a => addNew l (a / 64)) []

/-- The banks an access occupies in its access fc. -/
def Access.occupies (a : Access) : List Nat :=
  match a.port with
  | .bankCtl => a.banks
  | _ => (wordsOf a.addr a.len).foldl (fun l w => addNew l (w % 64)) []

/-- The result of reading one range; ue lists the addresses of the granules found uncorrectable. -/
structure RdRes where
  data : Chunk
  ce : Nat
  ue : List Nat
  closed : Nat
  src : Option (Nat × VSrc)
  deriving DecidableEq, Repr

/-- Read granule i of an access (05 R97, R99, R100). -/
def readGran (site epoch : Nat) (v : Vat) (addr : Nat) (conflict : Bool) (r : RdRes) (i : Nat) : RdRes :=
  let a := (addr + 8 * i) % 2 ^ 23
  let code := v.granCode (granOf a)
  let asleep := !(v.bank (bankOf a)).awake
  let src : Option VSrc :=
    if conflict then some .conflict
    else if asleep then some .closedRead
    else if code = 1 then some .poison
    else if code = 3 then some .ecc
    else none
  let bytes := match src with
    | none => Mem.readBytes v.mem a 8
    | some _ => (List.range 8).map (fun j => Config.freeByte site epoch (8 * i + j))
  { data := { bytes := r.data.bytes ++ bytes, bad := if src.isSome then r.data.bad ++ [i] else r.data.bad }
    ce := if src.isNone && code = 2 then r.ce + 1 else r.ce
    ue := if src = some .poison || src = some .ecc then r.ue ++ [a] else r.ue
    closed := r.closed
    src := match r.src, src with
      | none, some x => some (a, x)
      | s, _ => s }

/-- Read a range. A read in a conflict is not performed, so it reaches no bank and no sleeping word is counted (DESIGN CHOICE, log entry
51). -/
def Vat.readChunk (v : Vat) (site epoch addr len : Nat) (conflict : Bool) : RdRes :=
  let r := (List.range (len / 8)).foldl (readGran site epoch v addr conflict)
    { data := { bytes := [], bad := [] }, ce := 0, ue := [], closed := 0, src := none }
  let closed := if conflict then 0 else ((wordsOf addr len).filter (fun w => !(v.bank (w % 64)).awake)).length
  { r with closed := closed }

/-- The result of a write; ue lists the granules of stored units found uncorrectable, with their source (R100). -/
structure WrRes where
  vat : Vat
  combine : Bool
  ue : List (Nat × VSrc)
  nce : Nat
  deriving DecidableEq, Repr

/-- VFLAGS from the flags of an FP step (05 R96): NV, OF, NX. -/
def vflagsOf (f : BitVec 5) : BitVec 4 :=
  (if f &&& flNV ≠ 0#5 then 4#4 else 0#4) ||| (if f &&& flOF ≠ 0#5 then 2#4 else 0#4) ||| (if f &&& flNX ≠ 0#5 then 1#4 else 0#4)

/-- Store a granule as written. -/
def Vat.putGran (v : Vat) (a : Nat) (bytes : Bytes) (bad : Bool) : Vat :=
  { v with mem := Mem.writeBytes v.mem a bytes, gran := Sparse.set 0 v.gran (granOf a) (if bad then 1 else 0) }

/-- One element of an accumulating mode (05 R93). -/
def accElem (mode : BitVec 3) (old new : Word) : Word × BitVec 4 :=
  match mode.toNat with
  | 2 => let o := fpAdd old new; (o.val, vflagsOf o.fl)
  | 3 => (old + new, 0#4)
  | _ => let o := fpMax old new; (o.val, vflagsOf o.fl)

/-- The source of an uncorrectable stored granule (05 R100): the poison code, or two or more bit errors. -/
def codeSrc : Nat → Option VSrc
  | 1 => some .poison
  | 3 => some .ecc
  | _ => none

/-- An accumulating write of one granule in modes 0x2 to 0x4 (05 R93, R94, R100). -/
def accGran (mode : BitVec 3) (r : WrRes) (a : Nat) (bytes : Bytes) (bad : Bool) : WrRes :=
  let code := r.vat.granCode (granOf a)
  let nce := if code = 2 then r.nce + 1 else r.nce
  match codeSrc code with
  | some x => { r with vat := r.vat.putGran a bytes true, ue := r.ue ++ [(a, x)] }
  | none =>
  if bad then { r with vat := r.vat.putGran a bytes true, nce := nce }
  else
    let e0 := accElem mode (BitVec.ofNat 32 (Mem.readLe r.vat.mem a 4)) (BitVec.ofNat 32 (Bytes.leAt bytes 0 4))
    let e1 := accElem mode (BitVec.ofNat 32 (Mem.readLe r.vat.mem (a + 4) 4)) (BitVec.ofNat 32 (Bytes.leAt bytes 4 4))
    let v := r.vat.putGran a (natLe 4 e0.1.toNat ++ natLe 4 e1.1.toNat) false
    { r with vat := { v with vflags := v.vflags ||| e0.2 ||| e1.2 }, nce := nce }

/-- The uncorrectable granules of a stored tun record. -/
def Vat.unitBad (v : Vat) (a : Nat) : List (Nat × VSrc) :=
  (List.range 4).filterMap (fun k => (codeSrc (v.granCode (granOf (a + 8 * k)))).map (fun x => (a + 8 * k, x)))

/-- The granules of a stored tun record that are corrected on read. -/
def Vat.unitCe (v : Vat) (a : Nat) : Nat := ((List.range 4).filter (fun k => v.granCode (granOf (a + 8 * k)) = 2)).length

/-- Store the four granules of a tun record, poisoned or not. -/
def Vat.putUnit (v : Vat) (a : Nat) (bytes : Bytes) (bad : Bool) : Vat :=
  (List.range 4).foldl (fun v k => v.putGran (a + 8 * k) (Bytes.slice bytes (8 * k) 8) bad) v

/-- An accumulating write of a whole tun record (05 R93 TUN_ADD, R94, R100). -/
def accUnit (r : WrRes) (a : Nat) (bytes : Bytes) (bad : Bool) : WrRes :=
  let ue := r.vat.unitBad a
  let r := { r with ue := r.ue ++ ue, nce := r.nce + r.vat.unitCe a }
  if !ue.isEmpty || bad then { r with vat := r.vat.putUnit a bytes true }
  else
    let stored := recordTun (Mem.readBytes r.vat.mem a 32)
    let o := combine [stored, recordTun bytes] stored.anchor
    if o.anchorBreach || o.countBreach then { r with combine := true }
    else { r with vat := r.vat.putUnit a (tunRecord o.tun) false }

/-- Write the granules of a chunk from granule i on; fuel bounds the granules left. -/
def writeGo (addr : Nat) (d : Chunk) : Nat → Nat → WrRes → WrRes
  | 0, _, r => r
  | fuel + 1, i, r =>
    if 8 * i ≥ d.bytes.length then r
    else
      let a := (addr + 8 * i) % 2 ^ 23
      let mode := (r.vat.bank (bankOf a)).mode
      let bytes := Bytes.slice d.bytes (8 * i) 8
      let bad := d.bad.contains i
      match mode.toNat with
      | 0 => writeGo addr d fuel (i + 1) { r with vat := r.vat.putGran a bytes bad }
      | 1 =>
        if a % 32 = 0 && decide (8 * (i + 4) ≤ d.bytes.length) then
          let ubad := (List.range 4).any (fun k => d.bad.contains (i + k))
          writeGo addr d fuel (i + 4) (accUnit r a (Bytes.slice d.bytes (8 * i) 32) ubad)
        else
          let v := r.vat.putGran a bytes bad
          writeGo addr d fuel (i + 1) { r with vat := { v with vflags := v.vflags ||| 8#4 } }
      | _ => writeGo addr d fuel (i + 1) (accGran mode r a bytes bad)

/-- Perform a write under the write modes of the banks it touches. -/
def Vat.writeChunk (v : Vat) (addr : Nat) (d : Chunk) : WrRes :=
  writeGo addr d (d.bytes.length / 8 + 1) 0 { vat := v, combine := false, ue := [], nce := 0 }

/-- The banks of an access that accumulate (05 R94): they are occupied in the next fc too. -/
def Vat.accumBanks (v : Vat) (a : Access) : List Nat :=
  if a.wr.isSome then a.occupies.filter (fun k => decide ((v.bank k).mode ≠ 0#3)) else []

/-- Words of a write that fall in sleeping banks among those it occupies (05 R99). -/
def Vat.sleepingWords (v : Vat) (a : Access) (occ : List Nat) : Nat :=
  ((wordsOf a.addr a.len).filter (fun w => occ.contains (w % 64) && !(v.bank (w % 64)).awake)).length

/-- A write that meets sleeping banks is not performed in whole (05 R99). -/
def closedWrite (m : BayM) (c : Int) (a : Access) (words : Nat) : BayM :=
  ((m.upd (fun b => b.count cntClosedWrite words)).proFault (!a.body)).breach brClosedWrite c unitVat

/-- Perform a write whose occupancy ends now, or nothing when it is off (05 R94, R100, R103). -/
def performWrite (m : BayM) (c : Int) (a : Access) (d : Chunk) : BayM :=
  if !a.on then m
  else
    let r := m.bay.vat.writeChunk a.addr d
    let mask := m.bay.vat.residentMask
    let clears := (a.body && a.occupies.any (fun k => mask.getLsbD k)) || r.ue.any (fun x => mask.getLsbD (bankOf x.1))
    let v := if clears then { r.vat with residentValid := false } else r.vat
    let m := m.upd (fun b => ({ b with vat := v }.count cntVatUe r.ue.length).count cntVatCe r.nce)
    let m := match r.ue with
      | x :: _ => (m.proFault (!a.body)).upd (fun b => b.faultAt c 0x0203 0 [(4, x.1), (1, x.2.code)])
      | [] => m
    if r.combine then (m.proFault (!a.body)).breach brCombine c unitVat else m

/-- A write in an fc in which it occupies the banks occ (05 R94, R99): a sleeping one stops it; else it is performed where its occupancy
ends now. -/
def finishWrite (m : BayM) (c : Int) (a : Access) (d : Chunk) (occ : List Nat) : BayM :=
  let words := m.bay.vat.sleepingWords a occ
  if words ≠ 0 then closedWrite m c a words else performWrite m c a d

/-- The write of a VCOPY's chunk, two fc after its read (05 R92). -/
def Access.copyWrite (a : Access) (c : Int) (dst : Nat) (d : Chunk) : Access :=
  { at_ := c + 2, port := .moverWrite, addr := dst, len := a.len, wr := some d, on := a.on, sink := .none, body := a.body, banks := [],
    mode := 0#3 }

/-- Where the data of a read goes (05 R89, R100): into a half, a register, a copy, a flit, a transaction. -/
def deliver (m : BayM) (c : Int) (a : Access) (r : RdRes) : BayM :=
  match a.sink with
  | .none => m
  | .half pr _ _ ctl off =>
    m.upd (fun b =>
      let b := b.due (c + 2) 2 (.halfLand pr off r.data.bytes)
      match r.src with
      | none => b
      | some s => b.due (c + 2) 2 (.halfPoison pr ctl s.1 s.2))
  | .vreg vd =>
    m.upd (fun b => b.due (c + 5) 2 (.lathe (.vreg vd (BitVec.allOnes 128)
      ((List.range 128).map (fun l => BitVec.ofNat 32 (Bytes.leAt r.data.bytes (4 * l) 4))) 0#5 0#4)))
  | .tload lt w => m.upd (fun b => b.due (c + 11 - (w : Int)) 2 (.lathe (.tload lt w r.data.bytes)))
  | .copy dst =>
    m.upd (fun b => { b with accs := b.accs ++ [a.copyWrite c dst r.data] })
  | .flit rt f =>
    match m.bay.route.find? (fun x => x.send && x.rt = rt && decide (x.u + 1 + (f : Int) = c)) with
    | some x => m.emit (.flit x.ent f (c + 1) false (!r.data.bad.isEmpty) r.data.bytes)
    | none => m
  | .cwr tag k =>
    match m.bay.racks.find? (fun x => x.tag = tag) with
    | none => m
    | some x =>
      (List.range (a.len / 64)).foldl (fun m i =>
        let w := 2 * k + i
        let piece : Chunk :=
          { bytes := Bytes.slice r.data.bytes (64 * i) 64
            bad := (r.data.bad.filter (fun g => g / 8 = i)).map (fun g => g - 8 * i) }
        let t := if x.inter then w / 2 else 2 * w
        let beats := (x.beats.drop (8 * w)).take 8
        if x.kind = 3 then m.emit (.bcast tag x.grp (x.off + 64 * w) (x.u + 32 + (t : Int)) piece beats)
        else m.emit (.writePiece tag x.cask (x.off + 64 * w) (x.u + 32 + (t : Int)) piece beats)) m
  | .sop tag k =>
    m.upd (fun b =>
      { b with sops := b.sops.map (fun x => if x.tag = tag then { x with operand := x.operand ++ [(k, r.data)] } else x) })

/-- Perform a read (05 R99, R100). An off source read of a VCOPY still leads to the copy's write, off too (R92, 06 R119). -/
def finishRead (site : Nat) (m : BayM) (c : Int) (a : Access) (conflict : Bool) : BayM :=
  if !a.on then
    match a.sink with
    | .copy dst =>
      m.upd (fun b => { b with accs := b.accs ++ [a.copyWrite c dst { bytes := zeroBytes a.len, bad := [] }] })
    | _ => m
  else
    let r := m.bay.vat.readChunk site m.bay.free a.addr a.len conflict
    let lost := r.ue.any (fun x => m.bay.vat.residentMask.getLsbD (bankOf x))
    let m := if r.src.isSome then m.proFault (!a.body) else m
    let m := m.upd (fun b =>
      let b := { b with free := if r.src.isSome then b.free + 1 else b.free }
      let b := if lost then { b with vat := { b.vat with residentValid := false } } else b
      ((b.count cntVatUe r.ue.length).count cntVatCe r.ce).count cntClosedRead r.closed)
    let m := match r.src, a.port with
      | some _, .feed _ _ => m
      | some (x, s), _ => m.upd (fun b => b.faultAt (c + 2) 0x0203 0 [(4, x), (1, s.code)])
      | none, _ => m
    deliver m c a r

/-- VMODE's access (05 R95, 07 R149): the new mode governs the named banks that met no other access. A bank that sleeps takes the mode
too (DESIGN CHOICE, log entry 52). -/
def finishMode (m : BayM) (a : Access) (met : List Nat) : BayM :=
  let ks := a.banks.filter (fun k => !(met.contains k))
  m.upd (fun b => { b with vat := ks.foldl (fun v k => v.setBank k { v.bank k with mode := a.mode }) b.vat })

/-- Perform one access that met no other in a bank. -/
def finishAccess (site : Nat) (m : BayM) (c : Int) (a : Access) : BayM :=
  match a.port, a.wr with
  | .bankCtl, _ => finishMode m a []
  | _, some d =>
    let acc := m.bay.vat.accumBanks a
    if acc.isEmpty || decide (m.bay.vat.sleepingWords a a.occupies ≠ 0) then finishWrite m c a d a.occupies
    else m.upd (fun b => { b with carry := b.carry ++ [{ a with banks := acc }] })
  | _, none => finishRead site m c a false

/-- An access that met another in the banks met: nothing is performed in them, and a read delivers poisoned data (05 R90, 07 R149). A write
into an accumulating bank does not touch it in the next fc either, and one that also reaches a sleeping bank counts its words there (DESIGN
CHOICE, log entry 52). -/
def conflictAccess (site : Nat) (m : BayM) (c : Int) (a : Access) (met : List Nat) : BayM :=
  let m := m.proFault (!a.body && a.port != .bankCtl)
  match a.port, a.wr with
  | .bankCtl, _ => finishMode m a met
  | _, some _ =>
    let words := m.bay.vat.sleepingWords a a.occupies
    if words ≠ 0 then closedWrite m c a words else m
  | _, none => finishRead site m c a true

/-- The banks among o that another access than number i occupies in this fc. -/
def metBanks (occ : List (Nat × List Nat)) (i : Nat) (o : List Nat) : List Nat :=
  o.filter (fun k => occ.any (fun p => p.1 ≠ i && p.2.contains k))

/-- Number a list from k. -/
def enumFrom {α : Type} : Nat → List α → List (Nat × α)
  | _, [] => []
  | k, x :: xs => (k, x) :: enumFrom (k + 1) xs

/-- An injected error (15 R328) takes effect at the first access that finds a granule in its bank: a read, or a write that combines. -/
def Vat.injectAt (v : Vat) (accs : List Access) : Vat :=
  match v.inject with
  | none => v
  | some (bank, code) =>
    let hit := accs.filterMap (fun a =>
      if a.on && (a.wr.isNone || (v.accumBanks a).contains bank) then
        (granAddrs a.addr a.len).find? (fun x => bankOf x = bank)
      else none)
    match hit with
    | x :: _ => { v with gran := Sparse.set 0 v.gran (granOf x) code, inject := none }
    | [] => v

/-- Every access of count c (05 R90): accumulating writes of the fc before end first, then reads and mode changes, then
writes. -/
def vatFc (site : Nat) (m : BayM) (c : Int) : BayM :=
  let carry := m.bay.carry
  let now := m.bay.accs.filter (fun a => decide (a.at_ ≤ c))
  if carry.isEmpty && now.isEmpty then m
  else
    let occ := enumFrom 0 (carry.map (fun a => a.banks) ++ now.map (fun a => a.occupies))
    let carryN := enumFrom 0 carry
    let nowN := enumFrom carry.length now
    let met := fun (i : Nat) => match occ.find? (fun p => p.1 = i) with
      | some p => metBanks occ i p.2
      | none => []
    let m := m.upd (fun b => { b with accs := b.accs.filter (fun a => decide (c < a.at_)), carry := [], vat := b.vat.injectAt now })
    let m := if occ.any (fun p => !(metBanks occ p.1 p.2).isEmpty) then m.breach brBankConflict c unitVat else m
    let m := carryN.foldl (fun m p => match p.2.wr with
      | some d => if (met p.1).isEmpty then finishWrite m c p.2 d p.2.banks else m.proFault (!p.2.body)
      | none => m) m
    let one := fun (m : BayM) (p : Nat × Access) =>
      let k := met p.1
      if k.isEmpty then finishAccess site m c p.2 else conflictAccess site m c p.2 k
    let m := nowN.foldl (fun m p => if p.2.wr.isSome then m else one m p) m
    nowN.foldl (fun m p => if p.2.wr.isNone then m else one m p) m

/-- W of R97. -/
def wakeFc : BankPower → Nat
  | .active => 0
  | .nap => 8
  | .retain => 64
  | .off => 512

/-- VPOWER on one bank at issue u (05 R98). -/
def Bank.vpower (k : Bank) (u : Int) (pw : BankPower) : Bank :=
  match pw with
  | .active =>
    match k.power with
    | .active => { k with sleep := none, wakeAt := none }
    | p => { k with sleep := none, wakeAt := some (u + wakeFc p) }
  | x => { k with wakeAt := none, sleep := some (x, u + 4) }

/-- The bank loses its contents. -/
def Vat.clearBank (v : Vat) (k : Nat) : Vat :=
  { v with mem := v.mem.filter (fun e => bankOf e.1 ≠ k), gran := v.gran.filter (fun e => bankOf (8 * e.1) ≠ k) }

/-- A pending sleep of a bank takes effect at count c (05 R98); OFF loses the contents. -/
def Vat.sleepNow (v : Vat) (k : Nat) (c : Int) : Vat :=
  let b := v.bank k
  match b.sleep with
  | some (x, at_) =>
    if at_ ≤ c then
      let v := v.setBank k { b with power := x, sleep := none }
      if x = .off then v.clearBank k else v
    else v
  | none => v

/-- A pending wake of a bank ends at count c (05 R98). -/
def Vat.wakeNow (v : Vat) (k : Nat) (c : Int) : Vat :=
  let b := v.bank k
  match b.wakeAt with
  | some at_ => if at_ ≤ c then v.setBank k { b with power := .active, wakeAt := none } else v
  | none => v

/-- The banks named by a strided selector (07 R148). -/
def stridedBanks (first cntM1 step : Nat) : List Nat :=
  (List.range (cntM1 + 1)).foldl (fun l i => addNew l ((first + 2 ^ step * i) % 64)) []

/-- The banks of a 64-bit mask. -/
def maskBanks (lo hi : Word) : List Nat :=
  (List.range 64).filter (fun b => if b < 32 then lo.getLsbD b else hi.getLsbD (b - 32))

/-- The banks a bank selector names at issue (07 R148). -/
def Bay.selBanks (b : Bay) (bsel : BitVec 14) (reg : Bool) : List Nat :=
  let s := bsel.toNat
  if reg then
    let i := s % 16
    maskBanks (b.idxReg i) (b.idxReg ((i + 1) % 16))
  else stridedBanks (bitsOf s 0 6) (bitsOf s 6 6) (bitsOf s 12 2)

/-- One chunk of the mover at count c (05 R92). -/
def moverFc (m : BayM) (c : Int) : BayM :=
  match m.bay.vat.mover with
  | none => m
  | some o =>
    let w := c - o.u - 1
    if w < 0 then m
    else
      let w := w.toNat
      let off := 256 * w
      if off ≥ o.n then
        if c ≥ o.u + 1 + ((o.n + 255) / 256 : Nat) + (match o.kind with | .copy _ => 2 | _ => 0) then
          m.upd (fun b => { b with vat := { b.vat with mover := none } })
        else m
      else
        let len := if o.n - off < 256 then o.n - off else 256
        let acc : Access :=
          { at_ := c, port := .moverWrite, addr := (o.dst + off) % 2 ^ 23, len := len, wr := none, on := o.on, sink := .none,
            body := o.body, banks := [], mode := 0#3 }
        let acc := match o.kind with
          | .pattern v =>
            { acc with wr := some { bytes := ((List.range (len / 4)).flatMap (fun _ => natLe 4 v.toNat)), bad := [] } }
          | .tun t =>
            { acc with wr := some { bytes := ((List.range (len / 32)).flatMap (fun _ => tunRecord (Tun.new t))), bad := [] } }
          | .copy src =>
            { acc with port := .moverRead, addr := (src + off) % 2 ^ 23, sink := .copy ((o.dst + off) % 2 ^ 23) }
        m.upd (fun b => { b with accs := b.accs ++ [acc] })

end Sys2Proof.Machine
end

