-- ==== Sys2Proof/Machine/Elementary.lean ====
section
/-! DEFINITION. The correctly rounded functions and the composites of the lathe (04_the_lathe R71-R74). Each value is
bracketed by integer arithmetic far finer than binary32 and rounded once; no such value other than the exact cases split off
below lies on a rounding boundary. -/

namespace Sys2Proof.Machine
open Sys2Proof

/-- The fraction bits of the fixed-point work. -/
def fxP : Nat := 256
/-- 1 in fixed point. -/
def fxOne : Nat := 2 ^ 256
/-- ⌊ln 2 × 2^320⌋. -/
def ln2Wide : Nat := 0xb17217f7d1cf79abc9e3b39803f2f6af40f343267298b62d8a0d175b8baafa2be7b876206debac98
/-- ⌊ln 2 × 2^256⌋. -/
def fxLn2 : Nat := ln2Wide / 2 ^ 64

/-- Integer square root by bits, from bit k - 1 down. -/
def isqrtGo (n : Nat) : Nat → Nat → Nat
  | 0, r => r
  | k + 1, r => let c := r + 2 ^ k; isqrtGo n k (if c * c ≤ n then c else r)

/-- ⌊√n⌋ for n < 2^400. -/
def isqrt (n : Nat) : Nat := isqrtGo n 200 0

/-- The Taylor sum of e^r from term i, with term value t. -/
def expGo (r : Nat) : Nat → Nat → Nat → Nat → Nat
  | 0, _, _, acc => acc
  | k + 1, i, t, acc => let t' := t * r / fxOne / i; expGo r k (i + 1) t' (acc + t')

/-- e^r in fixed point for 0 ≤ r < 1. -/
def fxExp (r : Nat) : Nat := expGo r 70 1 fxOne fxOne

/-- e^(x / 2^256) as a fixed-point number in [1, 2) and a power of two. -/
def expSplit (x : Int) : Nat × Int :=
  let n := Int.fdiv x (fxLn2 : Int)
  let r := x - n * (fxLn2 : Int)
  (fxExp r.toNat, n)

/-- The odd series of atanh from term i, with power p of w. -/
def atanhGo (w2 : Nat) : Nat → Nat → Nat → Nat → Nat
  | 0, _, _, acc => acc
  | k + 1, i, p, acc => atanhGo w2 k (i + 2) (p * w2 / fxOne) (acc + p / i)

/-- ln z in fixed point, for z = m / 2^l in [1, 2). -/
def fxLn (m l : Nat) : Nat :=
  let w := (m - 2 ^ l) * fxOne / (m + 2 ^ l)
  2 * atanhGo (w * w / fxOne) 90 1 w 0

/-- ±m × 2^e in fixed point (exact for every binary32). -/
def fxOf (s : Bool) (m : Nat) (e : Int) : Int := signedMag s (m * 2 ^ (e + 256).toNat)

/-- A special result. -/
def fpWith (v : Word) (f : BitVec 5) : FpOut := { val := v, fl := f }

/-- FRCP (R71). -/
def fpRcp (v : Word) : FpOut :=
  match addendOf v with
  | .nan => fpWith fpNan (snanFl v)
  | .inf s => fpOf (fpZero s)
  | .fin s m e =>
    if m = 0 then fpWith (fpInf s) flDZ
    else
      let n := 2 ^ 64
      if n % m = 0 then roundExact s (n / m) (-64 - e) false else roundSticky s (n / m) (-64 - e)

/-- m × 2^e with the exponent made even. -/
def evenScale (m : Nat) (e : Int) : Nat × Int := if e % 2 = 0 then (m, e) else (2 * m, e - 1)

/-- FSQRT (R71). -/
def fpSqrt (v : Word) : FpOut :=
  match addendOf v with
  | .nan => fpWith fpNan (snanFl v)
  | .inf s => if s then fpWith fpNan flNV else fpOf (fpInf false)
  | .fin s m e =>
    if m = 0 then fpOf v
    else if s then fpWith fpNan flNV
    else
      let (m2, e2) := evenScale m e
      let n := m2 * 2 ^ 64
      let r := isqrt n
      if r * r = n then roundExact false r (e2 / 2 - 32) false else roundSticky false r (e2 / 2 - 32)

/-- FRSQRT (R71). -/
def fpRsqrt (v : Word) : FpOut :=
  match addendOf v with
  | .nan => fpWith fpNan (snanFl v)
  | .inf s => if s then fpWith fpNan flNV else fpOf 0#32
  | .fin s m e =>
    if m = 0 then fpWith (fpInf s) flDZ
    else if s then fpWith fpNan flNV
    else
      let (m2, e2) := evenScale m e
      let n := 2 ^ 120
      let r := isqrt (n / m2)
      if r * r * m2 = n then roundExact false r (-(e2 / 2) - 60) false else roundSticky false r (-(e2 / 2) - 60)

/-- e^x of a non-zero finite x. -/
def expFinite (s : Bool) (m : Nat) (e : Int) : FpOut :=
  if dyadicGt m e 110 0 then (if s then fpWith 0#32 (flUF ||| flNX) else fpWith (fpInf false) (flOF ||| flNX))
  else let (y, n) := expSplit (fxOf s m e); roundSticky false y (n - 256)

/-- FEXP (R71). -/
def fpExp (v : Word) : FpOut :=
  match addendOf v with
  | .nan => fpWith fpNan (snanFl v)
  | .inf s => fpOf (if s then 0#32 else fpInf false)
  | .fin s m e => if m = 0 then fpOf fpOne else expFinite s m e

/-- 2^x of a non-zero finite x. -/
def exp2Finite (s : Bool) (m : Nat) (e : Int) : FpOut :=
  if dyadicGt m e 160 0 then (if s then fpWith 0#32 (flUF ||| flNX) else fpWith (fpInf false) (flOF ||| flNX))
  else
    let x := fxOf s m e
    let n := Int.fdiv x (fxOne : Int)
    let f := (x - n * (fxOne : Int)).toNat
    if f = 0 then roundExact false 1 n false else roundSticky false (fxExp (f * fxLn2 / fxOne)) (n - 256)

/-- FEXP2 (R71). -/
def fpExp2 (v : Word) : FpOut :=
  match addendOf v with
  | .nan => fpWith fpNan (snanFl v)
  | .inf s => fpOf (if s then 0#32 else fpInf false)
  | .fin s m e => if m = 0 then fpOf fpOne else exp2Finite s m e

/-- ln of m × 2^e (m not 0) in fixed point. -/
def fxLnOf (m : Nat) (e : Int) : Int :=
  let l := Nat.log2 m
  (e + (l : Int)) * (fxLn2 : Int) + (fxLn m l : Int)

/-- FLOG (R71). -/
def fpLog (v : Word) : FpOut :=
  match addendOf v with
  | .nan => fpWith fpNan (snanFl v)
  | .inf s => if s then fpWith fpNan flNV else fpOf (fpInf false)
  | .fin s m e =>
    if m = 0 then fpWith (fpInf true) flDZ
    else if s then fpWith fpNan flNV
    else if m = 2 ^ Nat.log2 m && e + (Nat.log2 m : Int) = 0 then fpOf 0#32
    else let y := fxLnOf m e; roundSticky (decide (y < 0)) y.natAbs (-256)

/-- FLOG2 (R71). -/
def fpLog2 (v : Word) : FpOut :=
  match addendOf v with
  | .nan => fpWith fpNan (snanFl v)
  | .inf s => if s then fpWith fpNan flNV else fpOf (fpInf false)
  | .fin s m e =>
    if m = 0 then fpWith (fpInf true) flDZ
    else if s then fpWith fpNan flNV
    else if m = 2 ^ Nat.log2 m then roundSigned (e + (Nat.log2 m : Int)) 0 false
    else let y := fxLnOf m e; roundSticky (decide (y < 0)) (y.natAbs * fxOne / fxLn2) (-256)

/-- tanh x of a non-zero finite x. Below 2^-13 it is x less a part of x under 2^-27, and from 32 up it is 1 less a part under
2^-90. -/
def tanhFinite (s : Bool) (m : Nat) (e : Int) : FpOut :=
  if dyadicGt 1 (-13) m e then roundSticky s (m * 2 ^ 64 - 1) (e - 64)
  else if dyadicGt m e 32 0 then roundSticky s (2 ^ 64 - 1) (-64)
  else
    let (y, n) := expSplit (fxOf false (2 * m) e)
    let z := y * 2 ^ n.toNat
    roundSticky s ((z - fxOne) * fxOne / (z + fxOne)) (-256)

/-- FTANH (R71). -/
def fpTanh (v : Word) : FpOut :=
  match addendOf v with
  | .nan => fpWith fpNan (snanFl v)
  | .inf s => fpOf (if s then 0xBF800000#32 else fpOne)
  | .fin s m e => if m = 0 then fpOf v else tanhFinite s m e

/-- The constants of R72. -/
def fpHalf : Word := 0x3F000000#32
def fpG1 : Word := 0x3D372713#32
def fpG2 : Word := 0x3F4C422A#32
def fpG3 : Word := 0x3FD9DB23#32

/-- The value of FSIGM's sequence (R73). -/
def sigmVal (x : Word) : Word := (fpRcp (fpAdd fpOne (fpExp (fpNeg x)).val).val).val

/-- A composite sets only NV, and only for a signalling NaN (R74). -/
def composite (x v : Word) : FpOut := fpWith v (snanFl x)

/-- FSIGM (R73). -/
def fpSigm (x : Word) : FpOut := composite x (sigmVal x)
/-- FSILU (R73). -/
def fpSilu (x : Word) : FpOut := composite x (fpMul x (sigmVal x)).val
/-- FGELUS (R73). -/
def fpGelus (x : Word) : FpOut := composite x (fpMul x (sigmVal (fpMul fpG3 x).val)).val
/-- FGELUT (R73). -/
def fpGelut (x : Word) : FpOut :=
  let t1 := (fpMul x x).val
  let t2 := (fpMul t1 x).val
  let t3 := (fpFma t2 fpG1 x).val
  let t4 := (fpMul t3 fpG2).val
  let t5 := (fpTanh t4).val
  let t6 := (fpAdd t5 fpOne).val
  let t7 := (fpMul x fpHalf).val
  composite x (fpMul t7 t6).val

end Sys2Proof.Machine
end

