-- ==== Sys2Proof/Machine/BayLathe.lean ====
section
/-! DEFINITION. The lathe: what each instruction reads at issue, computes and lands (04_the_lathe R64-R83, 07 R144-R146). -/

namespace Sys2Proof

/-- Fields of the instruction as numbers. -/
def LatheF.mkn (f : LatheF) : Nat := f.msk.toNat
def LatheF.d (f : LatheF) : Nat := f.vd.toNat
def LatheF.a (f : LatheF) : Nat := f.va.toNat
def LatheF.b (f : LatheF) : Nat := f.vb.toNat
def LatheF.c (f : LatheF) : Nat := f.vc.toNat
/-- OFF = EXT : VC[5:0], in 8-byte units (07 R144). -/
def LatheF.off (f : LatheF) : Nat := 64 * f.ext.toNat + f.vc.toNat

end Sys2Proof

namespace Sys2Proof.Machine
open Sys2Proof

/-- Lane l of V register r. -/
def Lathe.lane (x : Lathe) (r l : Nat) : Word := Sparse.get 0#32 x.v (128 * r + l)
/-- A lane mask; M0 reads as all ones (04 R64). -/
def Lathe.mask (x : Lathe) (m : Nat) : BitVec 128 := if m = 0 then BitVec.allOnes 128 else Sparse.get 0#128 x.m m
/-- Lane l of lane tun n. -/
def Lathe.ltun (x : Lathe) (n l : Nat) : Tun := Sparse.get Tun.empty x.lt (128 * n + l)
/-- The 128 lanes of a register. -/
def Lathe.vec (x : Lathe) (r : Nat) : List Word := (List.range 128).map (fun l => x.lane r l)
/-- Write the unmasked lanes of a register. -/
def Lathe.setVec (x : Lathe) (r : Nat) (mask : BitVec 128) (vals : List Word) : Lathe :=
  { x with v := (List.range 128).foldl (fun v l =>
      if mask.getLsbD l then Sparse.set 0#32 v (128 * r + l) (vals.getD l 0#32) else v) x.v }
/-- Write a mask register; M0 ignores writes. -/
def Lathe.setMask (x : Lathe) (m : Nat) (mask bits : BitVec 128) : Lathe :=
  if m = 0 then x else { x with m := Sparse.modify 0#128 x.m m (fun o => (o &&& ~~~mask) ||| (bits &&& mask)) }
def Lathe.setTun (x : Lathe) (n l : Nat) (t : Tun) : Lathe := { x with lt := Sparse.set Tun.empty x.lt (128 * n + l) t }

/-- The bits of a list as a mask. -/
def bitsMask (bs : List Bool) : BitVec 128 :=
  BitVec.ofNat 128 (bs.reverse.foldl (fun acc b => 2 * acc + (if b then 1 else 0)) 0)

/-- An operation's landing at u + L when it is on. -/
def landAt (m : BayM) (u : Int) (lat : Nat) (on : Bool) (d : LDest) : BayM :=
  if on then m.upd (fun b => b.due (u + lat) (match d with | .lfclr => 0 | _ => 2) (.lathe d)) else m

/-- OR of the flags of the unmasked lanes. -/
def orFlags (mask : BitVec 128) (os : List FpOut) : BitVec 5 :=
  (enumFrom 0 os).foldl (fun acc p => if mask.getLsbD p.1 then acc ||| p.2.fl else acc) 0#5

/-- Write one value per lane. -/
def landVec (m : BayM) (u : Int) (lat : Nat) (on : Bool) (f : LatheF) (g : Nat → FpOut) : BayM :=
  let mask := m.bay.lathe.mask f.mkn
  let os := (List.range 128).map g
  landAt m u lat on (.vreg f.d mask (os.map (fun o => o.val)) (orFlags mask os) 0#4)

/-- VD ← g VA, lane by lane. -/
def lane1 (m : BayM) (u : Int) (lat : Nat) (on : Bool) (f : LatheF) (g : Word → FpOut) : BayM :=
  landVec m u lat on f (fun l => g (m.bay.lathe.lane f.a l))

/-- VD ← g VA VB, lane by lane. -/
def lane2 (m : BayM) (u : Int) (lat : Nat) (on : Bool) (f : LatheF) (g : Word → Word → FpOut) : BayM :=
  landVec m u lat on f (fun l => g (m.bay.lathe.lane f.a l) (m.bay.lathe.lane f.b l))

/-- Mask VD[2:0] ← g VA VB, lane by lane. -/
def laneCmp (m : BayM) (u : Int) (lat : Nat) (on : Bool) (f : LatheF) (g : Word → Word → Bool × BitVec 5) : BayM :=
  let mask := m.bay.lathe.mask f.mkn
  let rs := (List.range 128).map (fun l => g (m.bay.lathe.lane f.a l) (m.bay.lathe.lane f.b l))
  let fl := (enumFrom 0 rs).foldl (fun acc p => if mask.getLsbD p.1 then acc ||| p.2.2 else acc) 0#5
  landAt m u lat on (.mreg (f.d % 8) mask (bitsMask (rs.map (fun r => r.1))) fl)

/-- Integer results set no flag. -/
def int2 (m : BayM) (u : Int) (on : Bool) (f : LatheF) (g : Word → Word → Word) : BayM :=
  lane2 m u 2 on f (fun a b => fpOf (g a b))

def opIadd (m : BayM) (u : Int) (on : Bool) (f : LatheF) : BayM := int2 m u on f (fun a b => a + b)
def opIsub (m : BayM) (u : Int) (on : Bool) (f : LatheF) : BayM := int2 m u on f (fun a b => a - b)
def opImul (m : BayM) (u : Int) (on : Bool) (f : LatheF) : BayM := int2 m u on f (fun a b => a * b)
def opIand (m : BayM) (u : Int) (on : Bool) (f : LatheF) : BayM := int2 m u on f (fun a b => a &&& b)
def opIor (m : BayM) (u : Int) (on : Bool) (f : LatheF) : BayM := int2 m u on f (fun a b => a ||| b)
def opIxor (m : BayM) (u : Int) (on : Bool) (f : LatheF) : BayM := int2 m u on f (fun a b => a ^^^ b)
/-- Shift counts are taken modulo 32 (04 R66). -/
def opIshl (m : BayM) (u : Int) (on : Bool) (f : LatheF) : BayM := int2 m u on f (fun a b => a <<< (b.toNat % 32))
def opIshr (m : BayM) (u : Int) (on : Bool) (f : LatheF) : BayM := int2 m u on f (fun a b => a >>> (b.toNat % 32))
def opIsra (m : BayM) (u : Int) (on : Bool) (f : LatheF) : BayM := int2 m u on f (fun a b => a.sshiftRight (b.toNat % 32))
def opImin (m : BayM) (u : Int) (on : Bool) (f : LatheF) : BayM := int2 m u on f (fun a b => if a.toInt ≤ b.toInt then a else b)
def opImax (m : BayM) (u : Int) (on : Bool) (f : LatheF) : BayM := int2 m u on f (fun a b => if a.toInt ≤ b.toInt then b else a)
def opIcmpEq (m : BayM) (u : Int) (on : Bool) (f : LatheF) : BayM := laneCmp m u 2 on f (fun a b => (a == b, flNone))
def opIcmpLt (m : BayM) (u : Int) (on : Bool) (f : LatheF) : BayM := laneCmp m u 2 on f (fun a b => (decide (a.toInt < b.toInt), flNone))
def opIcmpLtu (m : BayM) (u : Int) (on : Bool) (f : LatheF) : BayM := laneCmp m u 2 on f (fun a b => (decide (a.toNat < b.toNat), flNone))
def opMov (m : BayM) (u : Int) (on : Bool) (f : LatheF) : BayM := lane1 m u 2 on f fpOf
/-- VA where mask VC[2:0] is 1, else VB (07 R145). -/
def opSel (m : BayM) (u : Int) (on : Bool) (f : LatheF) : BayM :=
  let s := m.bay.lathe.mask (f.c % 8)
  landVec m u 2 on f (fun l => fpOf (if s.getLsbD l then m.bay.lathe.lane f.a l else m.bay.lathe.lane f.b l))
def opBcast (m : BayM) (u : Int) (on : Bool) (f : LatheF) : BayM :=
  landVec m u 2 on f (fun _ => fpOf (m.bay.lathe.lane f.a (f.ext.toNat % 128)))
/-- MOVC (04 R66): LANE, PX, PY, CNTL, CNTH. -/
def opMovc (px py : Nat) (m : BayM) (u : Int) (on : Bool) (f : LatheF) : BayM :=
  let cnt := (BitVec.ofInt 64 u).toNat
  landVec m u 2 on f (fun l => fpOf (BitVec.ofNat 32 (match f.ext.toNat % 8 with
    | 0 => l
    | 1 => px
    | 2 => py
    | 3 => cnt
    | _ => cnt / 2 ^ 32)))
def opFabs (m : BayM) (u : Int) (on : Bool) (f : LatheF) : BayM := lane1 m u 2 on f (fun a => fpOf (fpAbs a))
def opFneg (m : BayM) (u : Int) (on : Bool) (f : LatheF) : BayM := lane1 m u 2 on f (fun a => fpOf (fpNeg a))
def opFadd (m : BayM) (u : Int) (on : Bool) (f : LatheF) : BayM := lane2 m u 4 on f fpAdd
def opFsub (m : BayM) (u : Int) (on : Bool) (f : LatheF) : BayM := lane2 m u 4 on f fpSub
def opFmul (m : BayM) (u : Int) (on : Bool) (f : LatheF) : BayM := lane2 m u 4 on f fpMul
def opFfma (m : BayM) (u : Int) (on : Bool) (f : LatheF) : BayM :=
  landVec m u 4 on f (fun l => fpFma (m.bay.lathe.lane f.a l) (m.bay.lathe.lane f.b l) (m.bay.lathe.lane f.c l))
def opFmin (m : BayM) (u : Int) (on : Bool) (f : LatheF) : BayM := lane2 m u 4 on f fpMin
def opFmax (m : BayM) (u : Int) (on : Bool) (f : LatheF) : BayM := lane2 m u 4 on f fpMax
def opFcmpEq (m : BayM) (u : Int) (on : Bool) (f : LatheF) : BayM := laneCmp m u 4 on f (fpCmp (fun a b => decide (a = b)))
def opFcmpLt (m : BayM) (u : Int) (on : Bool) (f : LatheF) : BayM := laneCmp m u 4 on f (fpCmp (fun a b => decide (a < b)))
def opFcmpLe (m : BayM) (u : Int) (on : Bool) (f : LatheF) : BayM := laneCmp m u 4 on f (fpCmp (fun a b => decide (a ≤ b)))
def opCvtI2f (m : BayM) (u : Int) (on : Bool) (f : LatheF) : BayM := lane1 m u 4 on f cvtI2F

/-- The rounding site of the lathe (04 R83). -/
def latheSite (px py : Nat) (u : Int) : RoundSite :=
  { px := px, py := py, unit := 4, quarter := 0, count := (BitVec.ofInt 64 u).toNat }

/-- The random word of lane l under RM (04 R83); only RM 0x3 uses one. -/
def laneRandom (m : BayM) (px py : Nat) (u : Int) (rm : BitVec 2) (l : Nat) : Nat :=
  if rm = 3#2 then roundRandom m.bay.lathe.runKey (latheSite px py u) l else 0

/-- RM in VB[1:0] (07 R145). -/
def opCvtF2i (px py : Nat) (m : BayM) (u : Int) (on : Bool) (f : LatheF) : BayM :=
  let rm := BitVec.ofNat 2 f.b
  landVec m u 4 on f (fun l => cvtF2I (m.bay.lathe.lane f.a l) rm (laneRandom m px py u rm l))

/-- The 512 bytes of a register. -/
def Lathe.vbytes (x : Lathe) (r : Nat) : Bytes := (x.vec r).flatMap (fun w => natLe 4 w.toNat)

/-- CVT.UNPACK (04 R78, 07 R146): FMT = VB[3:0]; the scale codes of an MX format are bytes 0-3 of lane 127 of VA. -/
def opCvtUnpack (m : BayM) (u : Int) (on : Bool) (f : LatheF) : BayM :=
  let fmt := BitVec.ofNat 4 f.b
  let p := fmtP fmt
  let all := leNat (m.bay.lathe.vbytes f.a)
  let scales := (m.bay.lathe.lane f.a 127).toNat
  landVec m u 4 on f (fun l => unpackElem (bitsOf all (p.width * l) p.width) fmt (if p.isMx then bitsOf scales (8 * (l / 32)) 8 else 0x7F))

/-- Cut a list into groups. -/
def groupsOf {α : Type} (n : Nat) : Nat → List α → List (List α)
  | 0, _ => []
  | k + 1, l => l.take n :: groupsOf n k (l.drop n)

/-- The 512 bytes and drain flags of CVT.PACK (04 R78). -/
def packLanes (fmt : BitVec 4) (rm : BitVec 2) (sat : Bool) (dsc : Int) (ts : List Tun) (rnd : List Nat) : Bytes × BitVec 4 :=
  let p := fmtP fmt
  if p.isMx then
    let os := ((groupsOf 32 4 ts).zip (groupsOf 32 4 rnd)).map (fun g => mxDrain g.1 fmt rm g.2)
    let body := packElems p.width (os.flatMap (fun o => o.codes))
    let sc := os.map (fun o => BitVec.ofNat 8 o.scale)
    (body ++ zeroBytes (508 - body.length) ++ sc,
      (if os.any (fun o => o.dv) then 4#4 else 0#4) ||| (if os.any (fun o => o.dov) then 2#4 else 0#4)
        ||| (if os.any (fun o => o.dx) then 1#4 else 0#4))
  else
    let os := (ts.zip rnd).map (fun t => drainTun t.1 fmt rm sat dsc t.2)
    let body := packElems p.width (os.map (fun o => o.code))
    (body ++ zeroBytes (512 - body.length),
      (if os.any (fun o => o.dv) then 4#4 else 0#4) ||| (if os.any (fun o => o.dov) then 2#4 else 0#4)
        ||| (if os.any (fun o => o.dx) then 1#4 else 0#4))

/-- CVT.PACK (04 R78): the mask acts on source lanes, and every byte of VD is written. -/
def opCvtPack (px py : Nat) (m : BayM) (u : Int) (on : Bool) (f : LatheF) : BayM :=
  let fmt := BitVec.ofNat 4 f.b
  let rm := BitVec.ofNat 2 (f.b / 16)
  let mask := m.bay.lathe.mask f.mkn
  let ts := (List.range 128).map (fun l => if mask.getLsbD l then tunOfFp (m.bay.lathe.lane f.a l) else Tun.empty)
  let rnd := (List.range 128).map (fun l => laneRandom m px py u rm l)
  let (bs, fl) := packLanes fmt rm (f.c % 2 == 1) (signedOf 7 f.ext.toNat) ts rnd
  landAt m u 4 on (.vreg f.d (BitVec.allOnes 128)
    ((List.range 128).map (fun l => BitVec.ofNat 32 (Bytes.leAt bs (4 * l) 4))) 0#5 fl)

def opFrcp (m : BayM) (u : Int) (on : Bool) (f : LatheF) : BayM := lane1 m u 12 on f fpRcp
def opFsqrt (m : BayM) (u : Int) (on : Bool) (f : LatheF) : BayM := lane1 m u 12 on f fpSqrt
def opFrsqrt (m : BayM) (u : Int) (on : Bool) (f : LatheF) : BayM := lane1 m u 12 on f fpRsqrt
def opFexp (m : BayM) (u : Int) (on : Bool) (f : LatheF) : BayM := lane1 m u 14 on f fpExp
def opFexp2 (m : BayM) (u : Int) (on : Bool) (f : LatheF) : BayM := lane1 m u 14 on f fpExp2
def opFlog (m : BayM) (u : Int) (on : Bool) (f : LatheF) : BayM := lane1 m u 14 on f fpLog
def opFlog2 (m : BayM) (u : Int) (on : Bool) (f : LatheF) : BayM := lane1 m u 14 on f fpLog2
def opFtanh (m : BayM) (u : Int) (on : Bool) (f : LatheF) : BayM := lane1 m u 18 on f fpTanh
def opFsigm (m : BayM) (u : Int) (on : Bool) (f : LatheF) : BayM := lane1 m u 30 on f fpSigm
def opFsilu (m : BayM) (u : Int) (on : Bool) (f : LatheF) : BayM := lane1 m u 34 on f fpSilu
def opFgelus (m : BayM) (u : Int) (on : Bool) (f : LatheF) : BayM := lane1 m u 38 on f fpGelus
def opFgelut (m : BayM) (u : Int) (on : Bool) (f : LatheF) : BayM := lane1 m u 42 on f fpGelut

/-- One level of the pairwise tree (04 R75). -/
def treeLevel (g : Word → Word → FpOut) : List Word → List Word × BitVec 5
  | a :: b :: r =>
    let o := g a b
    let t := treeLevel g r
    (o.val :: t.1, o.fl ||| t.2)
  | l => (l, 0#5)

/-- The tree over 2^k values (04 R75). -/
def treeReduce (g : Word → Word → FpOut) : Nat → List Word → BitVec 5 → FpOut
  | 0, l, fl => { val := l.headD 0#32, fl := fl }
  | k + 1, l, fl => let t := treeLevel g l; treeReduce g k t.1 (fl ||| t.2)

/-- RSUM and RMAX: masked lanes take the identity, and every lane of VD the result (04 R67, R75). -/
def reduceOp (m : BayM) (u : Int) (on : Bool) (f : LatheF) (g : Word → Word → FpOut) (id : Word) : BayM :=
  let mask := m.bay.lathe.mask f.mkn
  let xs := (List.range 128).map (fun l => if mask.getLsbD l then m.bay.lathe.lane f.a l else id)
  let o := treeReduce g 7 xs 0#5
  landAt m u 30 on (.vreg f.d (BitVec.allOnes 128) (List.replicate 128 o.val) o.fl 0#4)

def opRsum (m : BayM) (u : Int) (on : Bool) (f : LatheF) : BayM := reduceOp m u on f fpAdd (fpZero true)
def opRmax (m : BayM) (u : Int) (on : Bool) (f : LatheF) : BayM := reduceOp m u on f fpMax (fpInf true)
/-- TCLR (04 R76): the anchor is EXT[8:0]. -/
def opTclr (m : BayM) (u : Int) (on : Bool) (f : LatheF) : BayM :=
  landAt m u 1 on (.tclr (f.d % 8) (BitVec.allOnes 128) (signedOf 9 f.ext.toNat))
def opTacc (m : BayM) (u : Int) (on : Bool) (f : LatheF) : BayM :=
  landAt m u 4 on (.tterms (f.d % 8) (m.bay.lathe.mask f.mkn) ((m.bay.lathe.vec f.a).map addendOf))
def opTmac (m : BayM) (u : Int) (on : Bool) (f : LatheF) : BayM :=
  landAt m u 4 on (.tterms (f.d % 8) (m.bay.lathe.mask f.mkn)
    (((m.bay.lathe.vec f.a).zip (m.bay.lathe.vec f.b)).map (fun p => formProduct p.1.toNat 0#4 0x7F p.2.toNat 0#4 0x7F)))
/-- XSUM (04 R76): the mask selects the lanes that take part. -/
def opXsum (m : BayM) (u : Int) (on : Bool) (f : LatheF) : BayM :=
  let mask := m.bay.lathe.mask f.mkn
  landAt m u 6 on (.xsum (f.d % 8) ((enumFrom 0 (m.bay.lathe.vec f.a)).filterMap (fun p =>
    if mask.getLsbD p.1 then some (addendOf p.2) else none)))
/-- TSUM (04 R76): LTa is read at issue, and a lane with another anchor is the COMBINE breach. -/
def opTsum (m : BayM) (u : Int) (on : Bool) (f : LatheF) : BayM :=
  let ts := (List.range 128).map (fun l => m.bay.lathe.ltun (f.a % 8) l)
  let t := (m.bay.lathe.ltun (f.a % 8) 0).anchor
  let o := combine ts t
  let o := if ts.any (fun x => x.anchor ≠ t) then { o with anchorBreach := true } else o
  landAt m u 8 on (.tsum (f.d % 8) o)

/-- The vat address of a lathe access (07 R144). -/
def latheAddr (m : BayM) (f : LatheF) (align : Nat) : Nat := m.bay.vatAddr (f.b % 16) (8 * f.off) align

/-- A lathe access. -/
def latheAcc (c : Int) (addr : Nat) (wr : Option Chunk) (on : Bool) (sink : Sink) (body : Bool) : Access :=
  { at_ := c, port := if wr.isSome then .latheWrite else .latheRead, addr := addr % 2 ^ 23, len := 512, wr := wr, on := on,
    sink := sink, body := body, banks := [], mode := 0#3 }

/-- TLOADC (04 R76): block w is read at u + 1 + w. -/
def opTloadc (m : BayM) (u : Int) (on : Bool) (f : LatheF) : BayM :=
  let a := latheAddr m f 32
  m.upd (fun b => { b with accs := b.accs ++ (List.range 8).map (fun (w : Nat) =>
    latheAcc (u + 1 + (w : Int)) (a + 512 * w) none on (.tload (f.d % 8) w) b.seq.body) })
/-- TSTORE (04 R76): block w is written at u + 1 + w, with the records as they stand at issue. -/
def opTstore (m : BayM) (u : Int) (on : Bool) (f : LatheF) : BayM :=
  let a := latheAddr m f 32
  m.upd (fun b => { b with accs := b.accs ++ (List.range 8).map (fun (w : Nat) =>
    latheAcc (u + 1 + (w : Int)) (a + 512 * w)
      (some { bytes := (List.range 16).flatMap (fun l => tunRecord (b.lathe.ltun (f.a % 8) (16 * w + l))), bad := [] })
      on .none b.seq.body) })
/-- TDRAIN (04 R76): FMT = VB[3:0], RM = VB[5:4], SAT = VC[0], DSC = EXT[6:0]. -/
def opTdrain (px py : Nat) (m : BayM) (u : Int) (on : Bool) (f : LatheF) : BayM :=
  let fmt := BitVec.ofNat 4 f.b
  let rm := BitVec.ofNat 2 (f.b / 16)
  let mask := m.bay.lathe.mask f.mkn
  let ts := (List.range 128).map (fun l => m.bay.lathe.ltun (f.a % 8) l)
  let os := (enumFrom 0 ts).map (fun p =>
    drainTun p.2 fmt rm (f.c % 2 == 1) (signedOf 7 f.ext.toNat) (laneRandom m px py u rm p.1))
  let sel := (enumFrom 0 (os.zip ts)).filterMap (fun p => if mask.getLsbD p.1 then some p.2 else none)
  let fl := (if sel.any (fun p => p.2.tu) then 8#4 else 0#4) ||| (if sel.any (fun p => p.1.dv) then 4#4 else 0#4)
    ||| (if sel.any (fun p => p.1.dov) then 2#4 else 0#4) ||| (if sel.any (fun p => p.1.dx) then 1#4 else 0#4)
  landAt m u 6 on (.vreg f.d mask (os.map (fun o => BitVec.ofNat 32 o.code)) 0#5 fl)
/-- CGEN (04 R82). -/
def opCgen (m : BayM) (u : Int) (on : Bool) (f : LatheF) : BayM :=
  let quad := fun (r l : Nat) =>
    ({ x0 := m.bay.lathe.lane r l, x1 := m.bay.lathe.lane (r + 1) l,
       x2 := m.bay.lathe.lane (r + 2) l, x3 := m.bay.lathe.lane (r + 3) l } : CgenX)
  let os := (List.range 128).map (fun l => cgen (quad f.a l) (quad f.b l))
  landAt m u 22 on (.vregs4 f.d (m.bay.lathe.mask f.mkn)
    [os.map (fun o => o.x0), os.map (fun o => o.x1), os.map (fun o => o.x2), os.map (fun o => o.x3)])
/-- LFRD (07 R145): LFLAGS in bits 4:0 and DFLAGS in bits 8:5 of every lane. -/
def opLfrd (m : BayM) (u : Int) (on : Bool) (f : LatheF) : BayM :=
  let w := BitVec.ofNat 32 (m.bay.lathe.lflags.toNat + 32 * m.bay.lathe.dflags.toNat)
  landAt m u 2 on (.vreg f.d (BitVec.allOnes 128) (List.replicate 128 w) 0#5 0#4)
def opLfclr (m : BayM) (u : Int) (on : Bool) : BayM := landAt m u 2 on .lfclr
/-- VLD (04 R66): the vat at u + 1. -/
def opVld (m : BayM) (u : Int) (on : Bool) (f : LatheF) : BayM :=
  let a := latheAddr m f 8
  m.upd (fun b => { b with accs := b.accs ++ [latheAcc (u + 1) a none on (.vreg f.d) b.seq.body] })
/-- VST (04 R66): the vat at u + 3, with the register as it stands at issue. -/
def opVst (m : BayM) (u : Int) (on : Bool) (f : LatheF) : BayM :=
  let a := latheAddr m f 8
  m.upd (fun b => { b with accs := b.accs ++
    [latheAcc (u + 3) a (some { bytes := b.lathe.vbytes f.a, bad := [] }) on .none b.seq.body] })

/-- Accumulate a term into one lane tun, with TUN_COUNT past the limit (04 R76). -/
def accLane (c : Int) (m : BayM) (lt l : Nat) (p : Exact) : BayM :=
  let o := (m.bay.lathe.ltun lt l).accumulate p
  let m := m.upd (fun b => { b with lathe := b.lathe.setTun lt l o.1 })
  if o.2 then m.breach brTunCount c unitLathe else m

/-- A combination into one lane tun: a breach leaves it as it was. -/
def combineLane (c : Int) (m : BayM) (lt l : Nat) (o : CombineOut) : BayM :=
  if o.anchorBreach then m.breach brCombine c unitLathe
  else if o.countBreach then m.breach brTunCount c unitLathe
  else m.upd (fun b => { b with lathe := b.lathe.setTun lt l o.tun })

/-- A lathe result lands at count c (04 R65, R76). -/
def latheLand (c : Int) (m : BayM) (d : LDest) : BayM :=
  match d with
  | .vreg vd mask vals lfl dfl =>
    m.upd (fun b =>
      let x := b.lathe.setVec vd mask vals
      { b with lathe := { x with lflags := x.lflags ||| lfl, dflags := x.dflags ||| dfl } })
  | .mreg k mask bits lfl =>
    m.upd (fun b => let x := b.lathe.setMask k mask bits; { b with lathe := { x with lflags := x.lflags ||| lfl } })
  | .vregs4 vd mask vals =>
    m.upd (fun b => { b with lathe := (enumFrom 0 vals).foldl (fun x p => x.setVec ((vd + p.1) % 64) mask p.2) b.lathe })
  | .tclr lt mask anchor =>
    m.upd (fun b => { b with lathe := (List.range 128).foldl (fun x l =>
      if mask.getLsbD l then x.setTun lt l (Tun.new anchor) else x) b.lathe })
  | .tterms lt mask terms =>
    (enumFrom 0 terms).foldl (fun m p => if mask.getLsbD p.1 then accLane c m lt p.1 p.2 else m) m
  | .xsum lt terms => terms.foldl (fun m p => accLane c m lt 0 p) m
  | .tsum lt o => combineLane c m lt 0 o
  | .tload lt w bytes =>
    (List.range 16).foldl (fun m i =>
      let l := 16 * w + i
      let t := m.bay.lathe.ltun lt l
      combineLane c m lt l (combine [recordTun (Bytes.slice bytes (32 * i) 32), t] t.anchor)) m
  | .lfclr => m.upd (fun b => { b with lathe := { b.lathe with lflags := 0#5, dflags := 0#4 } })

end Sys2Proof.Machine
end

