-- ==== Sys2Proof/Machine/BayPress.lean ====
section
/-! DEFINITION. The presses: panels, k-steps, drains, tastes, shims, the envelope (03_bays_and_presses R40-R63, 07 R135-R143). -/

namespace Sys2Proof.Machine
open Sys2Proof

/-- The index of the whole press's cells; the quarters' are 0 to 3. -/
def wholeIx : Nat := 4

/-- Do two sets of cells of one press share a cell? -/
def cellsMeet (g h : Nat) : Bool := g == h || g == wholeIx || h == wholeIx

/-- The quarters that a set of cells consists of. -/
def blocksOf (g : Nat) : List Nat := if g = wholeIx then [0, 1, 2, 3] else [g]

/-- Rows and columns of a set of cells. -/
def sideOf (g : Nat) : Nat := if g = wholeIx then 32 else 16

/-- Index of a half's control bits; the whole half stands at quarter 0, and MODE clears both (03 R51). -/
def ctlIx (opB : Bool) (half q : Nat) : Nat := (if opB then 8 else 0) + 4 * half + q % 4

/-- Key of a half byte: data at offset 0..4095, the scale word from 4096. -/
def halfKey (opB : Bool) (half off : Nat) : Nat := 8192 * ((if opB then 2 else 0) + half) + off

/-- A byte a half holds (03 R51, 06 R497): free after a MODE, 0 from the start of an invocation. -/
def Press.halfByte (p : Press) (site key : Nat) : Byte :=
  match Sparse.get none p.store key with
  | some b => b
  | none => match p.undef with
    | none => 0#8
    | some e => Config.freeByte site e key

/-- Bytes of a panel line (03 R44). -/
def lineBytes (fmt : BitVec 4) : Nat := 4 * (fmtP fmt).width

/-- Panel bytes b and scale bytes s of a load (03 R44, R51, 07 R137). -/
def panelBytes (fmt : BitVec 4) (qe : Bool) : Nat := lineBytes fmt * (if qe then 16 else 32)
def scaleBytes (fmt : BitVec 4) (qe : Bool) : Nat := if (fmtP fmt).isMx then (if qe then 16 else 32) else 0

/-- Panel time of a pair of formats in fc (03 R44): 32 / min(ra, rb). -/
def panelTime (fa fb : BitVec 4) : Nat :=
  let ra := rateFactor16 fa
  let rb := rateFactor16 fb
  512 / (if ra < rb then ra else rb)

/-- The count of k-step k of a panel issued at u (03 R44, R47): the last fc it occupies. -/
def kstepCount (u : Int) (dur k : Nat) : Int := u + (((k + 1) * dur + 31) / 32 : Nat) - 1

/-- Element k of line i of a half, with the line's scale code (03 R44; 2^0 where the format has no scales, R45). -/
def Press.elem (p : Press) (site : Nat) (opB : Bool) (half q : Nat) (fmt : BitVec 4) (i k : Nat) : Exact × Nat :=
  let w := (fmtP fmt).width
  let bit := w * k
  let base := 1024 * (q % 4) + i * lineBytes fmt + bit / 8
  let code := bitsOf (leNat ((List.range 4).map (fun j => p.halfByte site (halfKey opB half (base + j))))) (bit % 8) w
  let scale := if (fmtP fmt).isMx then (p.halfByte site (halfKey opB half (4096 + 16 * (q % 4) + i))).toNat else 0x7F
  (decodeElem code fmt, scale)

/-- First row and first column of a quarter (03, Quartering), or of the whole press. -/
def quarterRow (q : Nat) : Nat := if q = 2 || q = 3 then 16 else 0
def quarterCol (q : Nat) : Nat := if q = 1 || q = 3 then 16 else 0

/-- The wave of k-step k of a run. -/
def makeWave (site : Nat) (p : Press) (pr q : Nat) (r : Run) (su : Setup) (k : Nat) : Wave :=
  let n := sideOf q
  { pr := pr
    v := kstepCount r.start r.dur k
    r0 := quarterRow q
    c0 := quarterCol q
    n := n
    anchor := su.anchor
    first := r.first && k == 0
    last := r.last && k == 31
    a := (List.range n).map (fun i => p.elem site false r.ha q su.fmtA i k)
    b := (List.range n).map (fun j => p.elem site true r.hb q su.fmtB j k)
    done := [] }

/-- The k-steps of a run whose count is c. -/
def stepsAt (r : Run) (c : Int) : List Nat := (List.range 32).filter (fun k => decide (kstepCount r.start r.dur k = c))

/-- A half is released (03 R46). -/
def Press.release (p : Press) (ctl : Nat) : Press :=
  { p with ctl := Sparse.modify HalfCtl.init p.ctl ctl (fun h => { h with valid := false, held := false, poison := none }) }

/-- What one quarter does at the turn to count c: k-steps of count c - 1 leave, and a panel that has run out releases its
halves and may end its accumulation (03 R46, R47). -/
def pressQuarterTurn (site pr : Nat) (c : Int) (m : BayM) (q : Nat) : BayM :=
  let p := m.bay.press pr
  let pq := p.quarter q
  match pq.run with
  | none => m
  | some r =>
    let ws := match r.setup with
      | some su => (stepsAt r (c - 1)).map (makeWave site p pr q r su)
      | none => []
    let m := m.upd (fun b => { b with waves := b.waves ++ ws })
    if c < r.start + r.dur then m
    else
      let pq' := { pq with run := none, acc := if r.last then none else pq.acc }
      let p := match r.setup with
        | some _ => (p.release (ctlIx false r.ha q)).release (ctlIx true r.hb q)
        | none => p
      m.upd (fun b => b.setPress pr (p.setQuarter q pq'))

/-- The new shim intensity in sixteenths (03 R57). -/
def shimLevel (s : Shim) (beta : Nat) : Nat :=
  let a := if s.nom < beta then s.nom else beta
  if s.min < a then a else s.min

/-- Activity of one set of cells in fc c, in 64ths (03 R56). -/
def PQuarter.activity (pq : PQuarter) (beta : Nat) (c : Int) (g : Nat) : Nat :=
  let weight := if g = wholeIx then 4 else 1
  if pq.acc.isSome then 16 * weight
  else match pq.shim with
    | some s => if c < s.stop then weight * shimLevel s beta else 0
    | none => 0

/-- Activity of a press in fc c in 64ths (03 R56). -/
def Press.activity (p : Press) (c : Int) : Nat :=
  (List.range 5).foldl (fun acc g => acc + (p.quarter g).activity p.beta c g) 0

/-- The window level after k windows with no activity: tail fill steps down by 16 (03 R56). -/
def decayLevel (level k : Nat) : Nat := level - 16 * k

/-- The applied budget moves toward the parcel's by at most 4/16 a window (03 R57). -/
def moveBeta (cur target : Nat) : Nat :=
  if cur < target then (if target - cur < 4 then target else cur + 4)
  else if target < cur then (if cur - target < 4 then target else cur - 4)
  else cur

/-- The applied budget after k windows. -/
def moveBetas (target : Nat) : Nat → Nat → Nat
  | 0, cur => cur
  | k + 1, cur => moveBetas target k (moveBeta cur target)

/-- The envelope of one press for fc c (03 R56, R57): at the first fc of a window the applied budget moves, and then the fc's activity counts. -/
def envelopePress (target : Nat) (c : Int) (m : BayM) (pr : Nat) : BayM :=
  let p := m.bay.press pr
  let w := Int.fdiv c 16
  let gap := (w - p.win).toNat
  let p :=
    if gap = 0 then p
    else
      let prev := decayLevel p.level (gap - 1)
      { p with win := w, prevLevel := prev, level := decayLevel prev 1, beta := moveBetas target (if gap < 4 then gap else 4) p.beta }
  let act := p.activity c
  let rise := decide (act > p.prevLevel + 16)
  let p' := if p.level < act then { p with level := act } else p
  let m := m.upd (fun b => b.setPress pr p')
  if rise then m.breach brEnvelope c pr else m

/-- One cell takes one k-step's product (03 R47, R59): its tun, its residue, and on the last addition its latch. -/
def absorbCell (c : Int) (w : Wave) (m : BayM) (i : Nat) (j : Nat) : BayM :=
  let key := 32 * (w.r0 + i) + w.c0 + j
  let p := m.bay.press w.pr
  let t0 := if w.first then Tun.new w.anchor else Sparse.get Tun.empty p.tuns key
  let r0 := if w.first then 0 else Sparse.get 0 p.rho key
  let a := w.a.getD i (.fin false 0 0, 0x7F)
  let b := w.b.getD j (.fin false 0 0, 0x7F)
  let prod := formProductE a.1 a.2 b.1 b.2
  let r1 := residueAdd r0 a.1 b.1 prod t0
  let o := t0.accumulate prod
  let p :=
    if w.last then
      { p with
        latch := Sparse.set Tun.empty p.latch key o.1
        latchRho := Sparse.set 0 p.latchRho key r1
        tuns := Sparse.set Tun.empty p.tuns key Tun.empty
        rho := Sparse.set 0 p.rho key 0 }
    else { p with tuns := Sparse.set Tun.empty p.tuns key o.1, rho := Sparse.set 0 p.rho key r1 }
  let m := m.upd (fun b => b.setPress w.pr p)
  if o.2 then m.breach brTunCount c w.pr else m

/-- The cells a wave reaches at count c. -/
def waveCells (w : Wave) (c : Int) : List (Nat × Nat) :=
  let d := c - w.v - 4
  if d < 0 then []
  else (List.range w.n).filterMap (fun i =>
    if i ≤ d.toNat && decide (d.toNat - i < w.n) && !(w.done.contains (32 * i + (d.toNat - i))) then some (i, d.toNat - i) else none)

/-- Every wave at count c. -/
def wavesFc (m : BayM) (c : Int) : BayM :=
  let m := m.bay.waves.foldl (fun m w => (waveCells w c).foldl (fun m ij => absorbCell c w m ij.1 ij.2) m) m
  m.upd (fun b =>
    { b with waves := (b.waves.filter (fun w => decide (c < w.v + 2 * (w.n : Int) + 2))).map (fun w => { w with done := [] }) })

/-- CELL_ACCUMULATE: cell (i, j) of the whole press takes the k-steps that reach it at count c. -/
def cellNow (m : BayM) (c : Int) (pr i j : Nat) : BayM :=
  let hit := fun (w : Wave) => w.pr = pr && decide (w.r0 ≤ i) && decide (w.c0 ≤ j)
    && (waveCells w c).contains (i - w.r0, j - w.c0)
  let ws := m.bay.waves.filter hit
  let m := ws.foldl (fun m w => absorbCell c w m (i - w.r0) (j - w.c0)) m
  m.upd (fun b =>
    { b with waves := b.waves.map (fun w => if hit w then { w with done := w.done ++ [32 * (i - w.r0) + (j - w.c0)] } else w) })

/-- Is an instruction's QE right for the press's mode (07 R135)? -/
def modeOk (p : Press) (sel : PressSel) : Bool := p.quart == sel.qe

/-- The cells that an instruction names. -/
def selQ (sel : PressSel) : Nat := if sel.qe then sel.qt.toNat else wholeIx

/-- LDA, LDB at issue (03 R46, 07 R137). -/
def issueLoad (m : BayM) (u : Int) (opB : Bool) (on : Bool) (sel : PressSel) (f : LoadF) : BayM :=
  let pr := sel.pr.toNat
  let p := m.bay.press pr
  let ok := modeOk p sel
  let q := selQ sel
  let half := if f.half then 1 else 0
  let nb := panelBytes f.fmt sel.qe
  let ns := scaleBytes f.fmt sel.qe
  let run : LoadRun :=
    { u := u, pr := pr, opB := opB, half := half, qe := sel.qe, q := q, fmt := f.fmt
      base := m.bay.vatAddr f.i.toNat (64 * f.off.toNat) 64, b := nb
      sbase := m.bay.vatAddr f.i.toNat (16 * f.soff.toNat) 16, s := ns, on := on && ok, next := 0 }
  let ctl := ctlIx opB half q
  let m := m.upd (fun b => { b with loads := b.loads ++ [run] })
  if !ok then m.breach brModeConflict u pr
  else
    m.upd (fun b =>
      let b := b.due (u + 3) 2 (.halfBegin pr ctl f.fmt on)
      if on then b.due (u + 3 + ((nb + ns + 63) / 64 : Nat)) 2 (.halfValid pr ctl) else b)

/-- The words of the panel loads at count c (05 R89). A load stands until its last bytes have landed (03 R51). Two loads on one port in one
fc both move their word (DESIGN CHOICE, log entry 51: the spec forbids the case to the compiler and names no outcome). -/
def loadsFc (m : BayM) (c : Int) : BayM :=
  let accs := m.bay.loads.filterMap (fun r =>
    let w := c - r.u - 1
    if w < 0 then none
    else
      let w := w.toNat
      let nb := (r.b + 63) / 64
      let port := VPort.feed r.pr r.opB
      let ctl := ctlIx r.opB r.half r.q
      let mk := fun (addr len off : Nat) =>
        ({ at_ := c, port := port, addr := addr % 2 ^ 23, len := len, wr := none, on := r.on,
           sink := .half r.pr r.opB r.half ctl (halfKey r.opB r.half off), body := false, banks := [], mode := 0#3 } : Access)
      if w < nb then some (mk (r.base + 64 * w) 64 (1024 * (r.q % 4) + 64 * w))
      else if w = nb && decide (0 < r.s) then some (mk r.sbase r.s (4096 + 16 * (r.q % 4)))
      else none)
  m.upd (fun b =>
    { b with
      accs := b.accs ++ accs
      loads := b.loads.filter (fun r => decide (c < r.u + 2 + ((r.b + r.s + 63) / 64 : Nat))) })

/-- SETUP (07 R138): the armed set-up from u + 1. -/
def issueSetup (m : BayM) (u : Int) (sel : PressSel) (f : SetupF) : BayM :=
  let pr := sel.pr.toNat
  if !modeOk (m.bay.press pr) sel then m.breach brModeConflict u pr
  else
    let anchor : Int := if f.dflt then (defaultAnchor f.fmtA f.fmtB).getD 0 else f.anch.toInt
    m.upd (fun b => b.due (u + 1) 0 (.arm pr (selQ sel)
      { fmtA := f.fmtA, fmtB := f.fmtB, anchor := anchor, panels := f.npM1.toNat + 1, auto := f.auto }))

/-- Are the cells occupied by a panel or by a shim at u? -/
def PQuarter.busy (q : PQuarter) (u : Int) : Bool :=
  q.run.isSome || (match q.shim with
    | some s => decide (u < s.stop)
    | none => false)

/-- Is a cell among g occupied at u, by work of either mode (03 R55, 06 R131)? -/
def Press.busy (p : Press) (g : Nat) (u : Int) : Bool :=
  (List.range 5).any (fun h => cellsMeet g h && (p.quarter h).busy u)

/-- Do the cells of quarter k, drained as part of the cells d from count u at c fc a row, hold an accumulation of the cells a with end
count e? Cell (i, j) of a holds it from e + i + j + 4 (03 R47), so for d = a this is e + N + 3 ≤ u of R48. -/
def latchHeld (u : Int) (c d k a : Nat) (e : Int) : Bool :=
  let row := if a = wholeIx then quarterRow k else 0
  let col := if a = wholeIx then quarterCol k else 0
  let first := if d = wholeIx then quarterRow k else 0
  decide (e + ((row + col + 19 : Nat) : Int) ≤ u + ((c * first : Nat) : Int))

/-- Is the last of those rows captured before an accumulation of a with end count e overwrites it? For d = a this is
u + (c − 1)(N − 1) ≤ e + 3 of R48. -/
def latchKept (u : Int) (c d k a : Nat) (e : Int) : Bool :=
  let row := if a = wholeIx then quarterRow k else 0
  let col := if a = wholeIx then quarterCol k else 0
  let first := if d = wholeIx then quarterRow k else 0
  decide (u + ((c * (first + 15) : Nat) : Int) ≤ e + ((row + col + 18 : Nat) : Int))

/-- Is some accumulation of this list, newest first, the one quarter k is drained of, with t whole-press accumulations after it? nxt is the
accumulation after the head, where there is one. -/
def drainCut (u : Int) (c d k : Nat) : Nat → Option (Nat × Int) → List (Nat × Int) → Bool
  | _, _, [] => false
  | t, nxt, x :: xs =>
    (t == 0 && latchHeld u c d k x.1 x.2 && (match nxt with
      | some y => latchKept u c d k y.1 y.2
      | none => true)) ||
    (if x.1 = wholeIx then t != 0 && drainCut u c d k (t - 1) (some x) xs else drainCut u c d k t (some x) xs)

/-- Is a drain or comparison of the cells d with c fc a row, issued at u, legal for the accumulations of these end counts, newest first
(03 R48, R51)? All quarters of d see the same whole-press accumulation. -/
def drainLegal (u : Int) (c d : Nat) (ends : List (Nat × Int)) : Bool :=
  (List.range ((ends.filter (fun x => x.1 = wholeIx)).length + 1)).any (fun t =>
    (blocksOf d).all (fun k => drainCut u c d k t none (ends.filter (fun x => cellsMeet x.1 k))))

/-- A new end count, newest first; the three latest that reach a quarter are kept. -/
def pushEnd (g : Nat) (e : Int) (ends : List (Nat × Int)) : List (Nat × Int) :=
  let keep := fun (l : List (Nat × Int)) (x : Nat × Int) =>
    if (blocksOf x.1).any (fun k => decide ((l.filter (fun y => cellsMeet y.1 k)).length < 3)) then l ++ [x] else l
  ends.foldl keep [(g, e)]

/-- A drain or comparison in progress on these cells that the new end count cuts short (03 R48). -/
def cutShort (m : BayM) (pr g : Nat) (e : Int) : Bool :=
  let cut := fun (d : Int) (c h : Nat) => ((blocksOf h).filter (fun k => cellsMeet g k)).any (fun k => !(latchKept d c h k g e))
  m.bay.drains.any (fun r => r.pr = pr && cut r.d (if r.recd then 4 else 1) r.q) ||
  (match m.bay.taste with
   | some t => t.on && ((t.pr = pr && cut t.d 1 t.q) || (t.prb = pr && cut t.d 1 t.qb))
   | none => false)

/-- The check of R53 on one half: valid, and loaded with the set-up's format (07 R139). A poisoned half raises its vat fault
in place of a breach. -/
def checkHalf (m : BayM) (u : Int) (pr : Nat) (ctl : Nat) (fmt : BitVec 4) : BayM :=
  let h := Sparse.get HalfCtl.init (m.bay.press pr).ctl ctl
  match h.poison with
  | some s => m.upd (fun b => b.faultAt u 0x0203 pr [(4, s.1), (1, s.2.code)])
  | none => if h.valid && h.fmt == fmt then m else m.breach brOperandInvalid u pr

/-- The panel time of a KSTEP on these cells (03 R44); 32 fc where no set-up gives the formats (DESIGN CHOICE, log entry 51). -/
def PQuarter.panelFc (q : PQuarter) : Nat :=
  match q.acc, q.armed with
  | some x, _ => panelTime x.1.fmtA x.1.fmtB
  | none, some su => panelTime su.fmtA su.fmtB
  | none, none => 32

/-- A KSTEP that is the breach MODE_CONFLICT: it occupies its cells for its panel time and adds nothing (07 R135, R138). -/
def voidKstep (m : BayM) (u : Int) (pr g a b : Nat) : BayM :=
  let p := m.bay.press pr
  let pq := p.quarter g
  let run : Run := { start := u, dur := pq.panelFc, ha := a, hb := b, setup := none, first := false, last := false }
  (m.upd (fun x => x.setPress pr (p.setQuarter g { pq with run := some run }))).breach brModeConflict u pr

/-- The first panel of a new accumulation, or the next of the one in progress, under the set-up su with left panels to go (07 R138, R139,
03 R47, R53). An end count that cuts a drain or comparison short is recorded as DRAIN_WINDOW at this KSTEP's issue count (DESIGN CHOICE,
log entry 51). -/
def runKstep (m : BayM) (u : Int) (pr g a b : Nat) (starts : Bool) (su : Setup) (left : Nat) : BayM :=
  let p := m.bay.press pr
  let pq := p.quarter g
  let dur := panelTime su.fmtA su.fmtB
  let last := decide (left ≤ 1)
  let run : Run := { start := u, dur := dur, ha := a, hb := b, setup := some su, first := starts, last := last }
  let e := u + (dur : Int)
  let pq' : PQuarter := { pq with armed := if starts && !su.auto then none else pq.armed, acc := some (su, left - 1), run := some run }
  let m := m.upd (fun x => x.setPress pr { p.setQuarter g pq' with ends := if last then pushEnd g e p.ends else p.ends })
  let m := if last && cutShort m pr g e then m.breach brDrainWindow u pr else m
  let m := checkHalf m u pr (ctlIx false a g) su.fmtA
  checkHalf m u pr (ctlIx true b g) su.fmtB

/-- KSTEP (07 R138, R139). One that finds its cells occupied does nothing but raise MODE_CONFLICT (DESIGN CHOICE, log entry 51). -/
def issueKstep (m : BayM) (u : Int) (sel : PressSel) (ha hb : Bool) : BayM :=
  let pr := sel.pr.toNat
  let p := m.bay.press pr
  let g := selQ sel
  let pq := p.quarter g
  let a := if ha then 1 else 0
  let b := if hb then 1 else 0
  if p.busy g u then m.breach brModeConflict u pr
  else if !modeOk p sel then voidKstep m u pr g a b
  else match pq.acc, pq.armed with
    | some x, _ => runKstep m u pr g a b false x.1 x.2
    | none, some su => runKstep m u pr g a b true su su.panels
    | none, none => voidKstep m u pr g a b

/-- SHIM (03 R55, 07 R135, R140). One that does not match the press's mode only occupies its cells; one that finds them occupied does nothing
but raise MODE_CONFLICT (DESIGN CHOICE, log entry 51). -/
def issueShim (m : BayM) (u : Int) (sel : PressSel) (lm1 nom min : Nat) : BayM :=
  let pr := sel.pr.toNat
  let p := m.bay.press pr
  let g := selQ sel
  let pq := p.quarter g
  let stop := u + (lm1 : Int) + 1
  let put := fun (x : Shim) => m.upd (fun b => b.setPress pr (p.setQuarter g { pq with shim := some x }))
  if p.busy g u then m.breach brModeConflict u pr
  else if !modeOk p sel then (put { stop := stop, nom := 0, min := 0 }).breach brModeConflict u pr
  else put { stop := stop, nom := nom + 1, min := min + 1 }

/-- Is the drain unit of a press capturing at count d (03 R49)? -/
def drainUnitBusy (b : Bay) (pr : Nat) (d : Int) : Bool :=
  b.drains.any (fun r => r.pr = pr && decide (d < r.d + ((if r.recd then 4 else 1) * (if r.qe then 16 else 32) : Nat)))

/-- DRAIN and DRAINR at issue (03 R48, R49, 07 R135, R141): one that does not match the press's mode keeps the drain unit and its banks, and
has no other effect; one that finds the unit capturing does nothing but raise DRAIN_BUSY (DESIGN CHOICE, log entry 51). -/
def issueDrainRun (m : BayM) (d : Int) (sel : PressSel) (r : DrainRun) : BayM :=
  let pr := sel.pr.toNat
  let p := m.bay.press pr
  let ok := modeOk p sel
  let m := if ok then m else m.breach brModeConflict d pr
  if drainUnitBusy m.bay pr d then m.breach brDrainBusy d pr
  else
    let legal := !ok || drainLegal d (if r.recd then 4 else 1) (selQ sel) p.ends
    let m := m.upd (fun b => { b with drains := b.drains ++ [{ r with on := r.on && ok }] })
    if legal then m else m.breach brDrainWindow d pr

/-- Packed row size of a rounded drain (07 R141). -/
def rowBytes (fmt : BitVec 4) (n : Nat) : Nat := (fmtP fmt).width * n / 8

def issueDrain (m : BayM) (d : Int) (on : Bool) (sel : PressSel) (f : DrainF) : BayM :=
  let n := if sel.qe then 16 else 32
  let base := m.bay.vatAddr f.i.toNat (64 * f.off.toNat) 64
  issueDrainRun m d sel
    { d := d, pr := sel.pr.toNat, qe := sel.qe, q := selQ sel, recd := false, fmt := f.fmt, rm := f.rm, sat := f.sat
      dsc := f.dsc.toInt, base := base, rb := if f.str = 0#8 then rowBytes f.fmt n else 64 * f.str.toNat
      sbase := base + 32 * f.soff.toNat, on := on, next := 0, scales := [], body := m.bay.seq.body }

def issueDrainR (m : BayM) (d : Int) (on : Bool) (sel : PressSel) (f : DrainRF) : BayM :=
  let n := if sel.qe then 16 else 32
  issueDrainRun m d sel
    { d := d, pr := sel.pr.toNat, qe := sel.qe, q := selQ sel, recd := true, fmt := 0#4, rm := 0#2, sat := false, dsc := 0
      base := m.bay.vatAddr f.i.toNat (64 * f.off.toNat) 64, rb := if f.str = 0#8 then 32 * n else 64 * f.str.toNat
      sbase := 0, on := on, next := 0, scales := [], body := m.bay.seq.body }

/-- The latches of a row, with their residues. -/
def latchRow (p : Press) (qe : Bool) (q row : Nat) : List (Tun × Nat) :=
  let n := if qe then 16 else 32
  let r0 := quarterRow q
  let c0 := quarterCol q
  (List.range n).map (fun j =>
    let key := 32 * (r0 + row) + c0 + j
    (Sparse.get Tun.empty p.latch key, Sparse.get 0 p.latchRho key))

/-- The drain flag word (03 R50). -/
def dflagsOf (du dv dov dx : Bool) : BitVec 4 :=
  (if du then 8#4 else 0#4) ||| (if dv then 4#4 else 0#4) ||| (if dov then 2#4 else 0#4) ||| (if dx then 1#4 else 0#4)

/-- The bytes of a rounded row, its flags, and the scale code of an MX row (03 R49, 02 R33, R39). -/
def roundedRow (key : BitVec 128) (site : RoundSite) (r : DrainRun) (row n : Nat) (ts : List Tun) : Bytes × BitVec 4 × Nat :=
  let w := (fmtP r.fmt).width
  let rnd := (List.range n).map (fun j => if r.rm = 3#2 then roundRandom key site (n * row + j) else 0)
  let du := ts.any (fun t => t.tu)
  if (fmtP r.fmt).isMx then
    let o := mxDrain ts r.fmt r.rm rnd
    (packElems w o.codes, dflagsOf du o.dv o.dov o.dx, o.scale)
  else
    let os := (ts.zip rnd).map (fun tr => drainTun tr.1 r.fmt r.rm r.sat r.dsc tr.2)
    (packElems w (os.map (fun o => o.code)),
      dflagsOf du (os.any (fun o => o.dv)) (os.any (fun o => o.dov)) (os.any (fun o => o.dx)), 0)

/-- A write access of a drain port. -/
def drainAcc (r : DrainRun) (c : Int) (addr : Nat) (bytes : Bytes) : Access :=
  { at_ := c, port := .drain r.pr, addr := addr % 2 ^ 23, len := bytes.length, wr := some { bytes := bytes, bad := [] }, on := r.on,
    sink := .none, body := r.body, banks := [], mode := 0#3 }

/-- Row r.next of a drain is captured at count c (03 R48-R50, R60). disagree stands for the two copies of the rounding logic
disagreeing (15 R307 DRAIN_MISMATCH). -/
def captureRow (px py : Nat) (m : BayM) (c : Int) (r : DrainRun) (disagree : Bool) : BayM :=
  let p := m.bay.press r.pr
  let n := if r.qe then 16 else 32
  let row := r.next
  let cells := latchRow p r.qe r.q row
  let ts := cells.map (fun x => x.1)
  let m := if r.on && cells.any (fun x => !residueOk x.1 x.2) then m.upd (fun b => b.faultAt c 0x0201 r.pr [(1, row)]) else m
  let m := if r.on && disagree then m.upd (fun b => b.faultAt c 0x0207 r.pr [(1, row)]) else m
  if r.recd then
    let bytes := ts.flatMap tunRecord
    let parts := bytes.length / 256
    let du : BitVec 4 := if ts.any (fun t => t.tu) then 8#4 else 0#4
    m.upd (fun b =>
      let b := { b with accs := b.accs ++ (List.range parts).map (fun (k : Nat) =>
        drainAcc r (c + 6 + (k : Int)) (r.base + row * r.rb + 256 * k) (Bytes.slice bytes (256 * k) 256)) }
      let partFl := fun (k : Nat) => if (Bytes.slice bytes (256 * k) 256).isEmpty then 0#4
        else if ((ts.drop (8 * k)).take 8).any (fun t => t.tu) then 8#4 else 0#4
      if r.on && decide (du ≠ 0#4) then
        (List.range parts).foldl (fun b (k : Nat) =>
          if partFl k = 0#4 then b else b.due (c + 6 + (k : Int)) 2 (.dflags r.pr (partFl k))) b
      else b)
  else
    let site : RoundSite :=
      { px := px, py := py, unit := r.pr, quarter := if r.qe then r.q else 0, count := (BitVec.ofInt 64 r.d).toNat }
    let (bytes, fl, scale) := roundedRow m.bay.lathe.runKey site r row n ts
    m.upd (fun b =>
      let b := { b with accs := b.accs ++ [drainAcc r (c + 6) (r.base + row * r.rb) bytes] }
      let b := if r.on && decide (fl ≠ 0#4) then b.due (c + 6) 2 (.dflags r.pr fl) else b
      if (fmtP r.fmt).isMx then
        let scales := r.scales ++ [scale]
        if row + 1 = n then
          { b with accs := b.accs ++ [drainAcc r (r.d + 38) r.sbase (scales.map (fun s => BitVec.ofNat 8 s))] }
        else b
      else b)

/-- The fc of the next row of a drain. -/
def DrainRun.due (r : DrainRun) : Int := r.d + (if r.recd then 4 else 1) * (r.next : Int)

/-- The scale code that a row of an MX drain adds. -/
def rowScale (px py : Nat) (m : BayM) (r : DrainRun) : Nat :=
  let n := if r.qe then 16 else 32
  let site : RoundSite :=
    { px := px, py := py, unit := r.pr, quarter := if r.qe then r.q else 0, count := (BitVec.ofInt 64 r.d).toNat }
  (roundedRow m.bay.lathe.runKey site r r.next n ((latchRow (m.bay.press r.pr) r.qe r.q r.next).map (fun x => x.1))).2.2

/-- A drain after its row has been captured. -/
def advanceDrain (px py : Nat) (m : BayM) (r : DrainRun) : DrainRun :=
  { r with next := r.next + 1, scales := if (fmtP r.fmt).isMx && !r.recd then r.scales ++ [rowScale px py m r] else r.scales }

/-- Every drain row due at count c or earlier; pr selects one press, none all of them. -/
def drainsFc (px py : Nat) (m : BayM) (c : Int) (only : Option Nat) (disagree : Bool) : BayM :=
  let hit := fun (r : DrainRun) =>
    (match only with | some p => r.pr = p | none => true) && decide (r.due ≤ c) && decide (r.next < (if r.qe then 16 else 32))
  let rs := m.bay.drains
  let m' := rs.foldl (fun m r => if hit r then captureRow px py m c r disagree else m) m
  m'.upd (fun b =>
    { b with drains := (rs.map (fun r => if hit r then advanceDrain px py m r else r)).filter (fun r =>
        decide (c + 1 < r.d + ((if r.recd then 4 else 1) * (if r.qe then 16 else 32) : Nat)) ||
        decide (r.next < (if r.qe then 16 else 32))) })

/-- TASTE at issue (03 R62, 07 R135, R142): one that does not match both presses' modes keeps the comparator and compares nothing; one that
finds it occupied does nothing but raise DRAIN_BUSY (DESIGN CHOICE, log entry 51). -/
def issueTaste (m : BayM) (d : Int) (sel : PressSel) (prb qb : Nat) : BayM :=
  let pr := sel.pr.toNat
  let p := m.bay.press pr
  let pb := m.bay.press prb
  let q := selQ sel
  let qb' := if sel.qe then qb else wholeIx
  let ok := modeOk p sel && modeOk pb sel
  let m := if ok then m else m.breach brModeConflict d pr
  let busy := match m.bay.taste with
    | some t => decide (d < t.d + ((if t.qe then 16 else 32) : Nat))
    | none => false
  if busy then m.breach brDrainBusy d pr
  else
    let legal := !ok || (drainLegal d 1 q p.ends && drainLegal d 1 qb' pb.ends)
    let m := m.upd (fun b =>
      { b with taste := some { d := d, pr := pr, prb := prb, qe := sel.qe, q := q, qb := qb', next := 0, found := false, on := ok } })
    if legal then m else m.breach brDrainWindow d pr

/-- One row of a comparison at count c (03 R60, R62): residues, and the first row that differs. -/
def tasteRow (m : BayM) (c : Int) (t : TasteRun) : BayM × Bool :=
  let xs := latchRow (m.bay.press t.pr) t.qe t.q t.next
  let ys := latchRow (m.bay.press t.prb) t.qe t.qb t.next
  let differ := decide (xs.map (fun x => tunRecord x.1) ≠ ys.map (fun x => tunRecord x.1))
  let m := if xs.any (fun x => !residueOk x.1 x.2) then m.upd (fun b => b.faultAt c 0x0201 t.pr [(1, t.next)]) else m
  let m := if ys.any (fun x => !residueOk x.1 x.2) then m.upd (fun b => b.faultAt c 0x0201 t.prb [(1, t.next)]) else m
  if differ && !t.found then
    (m.upd (fun b => b.faultAt (c + 2) 0x0202 t.pr [(1, t.prb), (1, t.q % 4), (1, t.qb % 4), (1, t.next)]), differ)
  else (m, differ)

/-- A comparison that found no difference: PEGNO stands for it on both presses (15 R313). -/
def Bay.tastePassed (b : Bay) (t : TasteRun) : Bay :=
  let b := b.setPress t.pr { b.press t.pr with passed := b.seq.pegno }
  b.setPress t.prb { b.press t.prb with passed := b.seq.pegno }

/-- The row of the comparison due at count c or earlier (03 R60, R62). -/
def tasteFc (m : BayM) (c : Int) : BayM :=
  match m.bay.taste with
  | none => m
  | some t =>
    let n := if t.qe then 16 else 32
    if t.next < n && decide (t.d + (t.next : Int) ≤ c) then
      let r := if t.on then tasteRow m c t else (m, false)
      let m := if t.on && decide (t.next + 1 = n) && !t.found && !r.2 then r.1.upd (fun b => b.tastePassed t) else r.1
      m.upd (fun b =>
        { b with taste := if t.next + 1 < n then some { t with next := t.next + 1, found := t.found || r.2 } else none })
    else m

/-- R51's conditions on a press at u. -/
def modeMay (b : Bay) (pr : Nat) (u : Int) : Bool :=
  let p := b.press pr
  !((List.range 5).any (fun q => (p.quarter q).acc.isSome)) &&
  !(b.waves.any (fun w => w.pr = pr)) &&
  !(drainUnitBusy b pr u) &&
  !(match b.taste with | some t => t.pr = pr || t.prb = pr | none => false) &&
  !(b.loads.any (fun r => r.pr = pr))

/-- MODE (07 R143). -/
def issueMode (m : BayM) (u : Int) (pr : Nat) (quart : Bool) : BayM :=
  if modeMay m.bay pr u then m.upd (fun b => b.due (u + 1) 0 (.mode pr quart)) else m.breach brModeConflict u pr

/-- Is an event the validation or the poisoning of one of a press's halves? -/
def BEv.ofHalf (pr : Nat) : BEv → Bool
  | .halfPoison p _ _ _ => p == pr
  | .halfValid p _ => p == pr
  | _ => false

/-- A MODE that takes effect (03 R51, 07 R143): the set-ups disarm, the halves lose their bits and their bytes, and a load that had landed
validates nothing any more. -/
def Bay.modeNow (b : Bay) (pr : Nat) (quart : Bool) : Bay :=
  let p := b.press pr
  let qs := (List.range 5).foldl (fun (s : Press) q => s.setQuarter q { s.quarter q with armed := none }) p
  { b.setPress pr { qs with quart := quart, ctl := [], store := [], undef := some b.free } with
    free := b.free + 1
    agenda := b.agenda.filter (fun d => !(d.ev.ofHalf pr)) }

/-- CLRF (07 R143). -/
def Bay.clrfNow (b : Bay) (pm : BitVec 4) (vf : Bool) : Bay :=
  let b := (List.range 4).foldl (fun (b : Bay) i =>
    if pm.getLsbD i then b.setPress i { b.press i with dflags := 0#4 } else b) b
  if vf then { b with vat := { b.vat with vflags := 0#4 } } else b

end Sys2Proof.Machine
end

