-- ==== Sys2Proof/Machine/Crypto.lean ====
section
/-! DEFINITION. The standards that the manual cites for digests, signatures and tap encryption: CRC-32C (06_bay_sequencer
R123), SHA-384 (FIPS 180-4), ECDSA on brainpoolP384r1 (RFC 5639, FIPS 186-5; 21_seal R441) and AES-256-GCM (NIST SP 800-38D;
19_tap R409). Their constants are those of the standards, which the manual names and does not print (PRESUMED, log entry 10). -/

namespace Sys2Proof.Machine
open Sys2Proof

/-- One bit of the reflected CRC-32C. -/
def crcBit (c : Nat) : Nat := if c % 2 = 1 then (c / 2) ^^^ 0x82F63B78 else c / 2

/-- One byte of the reflected CRC-32C register. -/
def crcByte (c : Nat) (b : Nat) : Nat :=
  crcBit (crcBit (crcBit (crcBit (crcBit (crcBit (crcBit (crcBit (c ^^^ b))))))))

/-- The running register of R123 over bytes (before the final inversion). -/
def crcRun (c : Word) (bs : Bytes) : Word := BitVec.ofNat 32 (bs.foldl (fun acc b => crcByte acc b.toNat) c.toNat)

/-- The CRC-32C of a byte string. -/
def crc32c (bs : Bytes) : Word := crcRun 0xFFFFFFFF#32 bs ^^^ 0xFFFFFFFF#32

/-- The round constants of SHA-512 and SHA-384. -/
def shaK : List Nat :=
  [0x428a2f98d728ae22, 0x7137449123ef65cd, 0xb5c0fbcfec4d3b2f, 0xe9b5dba58189dbbc] ++
  [0x3956c25bf348b538, 0x59f111f1b605d019, 0x923f82a4af194f9b, 0xab1c5ed5da6d8118] ++
  [0xd807aa98a3030242, 0x12835b0145706fbe, 0x243185be4ee4b28c, 0x550c7dc3d5ffb4e2] ++
  [0x72be5d74f27b896f, 0x80deb1fe3b1696b1, 0x9bdc06a725c71235, 0xc19bf174cf692694] ++
  [0xe49b69c19ef14ad2, 0xefbe4786384f25e3, 0x0fc19dc68b8cd5b5, 0x240ca1cc77ac9c65] ++
  [0x2de92c6f592b0275, 0x4a7484aa6ea6e483, 0x5cb0a9dcbd41fbd4, 0x76f988da831153b5] ++
  [0x983e5152ee66dfab, 0xa831c66d2db43210, 0xb00327c898fb213f, 0xbf597fc7beef0ee4] ++
  [0xc6e00bf33da88fc2, 0xd5a79147930aa725, 0x06ca6351e003826f, 0x142929670a0e6e70] ++
  [0x27b70a8546d22ffc, 0x2e1b21385c26c926, 0x4d2c6dfc5ac42aed, 0x53380d139d95b3df] ++
  [0x650a73548baf63de, 0x766a0abb3c77b2a8, 0x81c2c92e47edaee6, 0x92722c851482353b] ++
  [0xa2bfe8a14cf10364, 0xa81a664bbc423001, 0xc24b8b70d0f89791, 0xc76c51a30654be30] ++
  [0xd192e819d6ef5218, 0xd69906245565a910, 0xf40e35855771202a, 0x106aa07032bbd1b8] ++
  [0x19a4c116b8d2d0c8, 0x1e376c085141ab53, 0x2748774cdf8eeb99, 0x34b0bcb5e19b48a8] ++
  [0x391c0cb3c5c95a63, 0x4ed8aa4ae3418acb, 0x5b9cca4f7763e373, 0x682e6ff3d6b2b8a3] ++
  [0x748f82ee5defb2fc, 0x78a5636f43172f60, 0x84c87814a1f0ab72, 0x8cc702081a6439ec] ++
  [0x90befffa23631e28, 0xa4506cebde82bde9, 0xbef9a3f7b2c67915, 0xc67178f2e372532b] ++
  [0xca273eceea26619c, 0xd186b8c721c0c207, 0xeada7dd6cde0eb1e, 0xf57d4f7fee6ed178] ++
  [0x06f067aa72176fba, 0x0a637dc5a2c898a6, 0x113f9804bef90dae, 0x1b710b35131c471b] ++
  [0x28db77f523047d84, 0x32caab7b40c72493, 0x3c9ebe0a15c9bebc, 0x431d67c49c100d4c] ++
  [0x4cc5d4becb3e42b6, 0x597f299cfc657e2a, 0x5fcb6fab3ad6faec, 0x6c44198c4a475817]

/-- The initial hash value of SHA-384. -/
def shaH0 : List DWord :=
  [0xcbbb9d5dc1059ed8#64, 0x629a292a367cd507#64, 0x9159015a3070dd17#64, 0x152fecd8f70e5939#64] ++
  [0x67332667ffc00b31#64, 0x8eb44a8768581511#64, 0xdb0c2e0d64f98fa7#64, 0x47b5481dbefa4fa4#64]

def shaCh (x y z : DWord) : DWord := (x &&& y) ^^^ (~~~x &&& z)
def shaMaj (x y z : DWord) : DWord := (x &&& y) ^^^ (x &&& z) ^^^ (y &&& z)
def shaS0 (x : DWord) : DWord := x.rotateRight 28 ^^^ x.rotateRight 34 ^^^ x.rotateRight 39
def shaS1 (x : DWord) : DWord := x.rotateRight 14 ^^^ x.rotateRight 18 ^^^ x.rotateRight 41
def shaD0 (x : DWord) : DWord := x.rotateRight 1 ^^^ x.rotateRight 8 ^^^ (x >>> 7)
def shaD1 (x : DWord) : DWord := x.rotateRight 19 ^^^ x.rotateRight 61 ^^^ (x >>> 6)

/-- The eight working words. -/
structure ShaW where
  a : DWord
  b : DWord
  c : DWord
  d : DWord
  e : DWord
  f : DWord
  g : DWord
  h : DWord
  deriving DecidableEq, Repr

/-- One round. -/
def shaRound (s : ShaW) (k : Nat) (w : DWord) : ShaW :=
  let t1 := s.h + shaS1 s.e + shaCh s.e s.f s.g + BitVec.ofNat 64 k + w
  let t2 := shaS0 s.a + shaMaj s.a s.b s.c
  { a := t1 + t2, b := s.a, c := s.b, d := s.c, e := s.d + t1, f := s.e, g := s.f, h := s.g }

/-- The rounds over the message schedule: win is the window of the next sixteen schedule words. -/
def shaRounds : List Nat → List DWord → ShaW → ShaW
  | [], _, s => s
  | k :: ks, win, s =>
    match win with
    | w0 :: rest =>
      let w1 := rest.getD 0 0#64
      let w9 := rest.getD 8 0#64
      let w14 := rest.getD 13 0#64
      shaRounds ks (rest ++ [shaD1 w14 + w9 + shaD0 w1 + w0]) (shaRound s k w0)
    | [] => s

def shaList (s : ShaW) : List DWord := [s.a, s.b, s.c, s.d, s.e, s.f, s.g, s.h]

/-- The eight words of a list. -/
def shaOfList (l : List DWord) : ShaW :=
  { a := l.getD 0 0#64, b := l.getD 1 0#64, c := l.getD 2 0#64, d := l.getD 3 0#64,
    e := l.getD 4 0#64, f := l.getD 5 0#64, g := l.getD 6 0#64, h := l.getD 7 0#64 }

/-- The big-endian words of a block. -/
def shaWords : Nat → Bytes → List DWord
  | 0, _ => []
  | n + 1, bs => BitVec.ofNat 64 (beNat (bs.take 8)) :: shaWords n (bs.drop 8)

/-- The compression of n blocks. -/
def shaBlocks : Nat → Bytes → List DWord → List DWord
  | 0, _, h => h
  | n + 1, bs, h =>
    let s := shaRounds shaK (shaWords 16 (bs.take 128)) (shaOfList h)
    shaBlocks n (bs.drop 128) ((h.zip (shaList s)).map (fun p => p.1 + p.2))

/-- The padded message. -/
def shaPad (bs : Bytes) : Bytes :=
  let l := bs.length
  let z := (239 - l % 128) % 128
  bs ++ 0x80#8 :: (zeroBytes z ++ natBe 16 (8 * l))

/-- SHA-384 as its 48 bytes. -/
def sha384 (bs : Bytes) : Bytes :=
  let p := shaPad bs
  ((shaBlocks (p.length / 128) p shaH0).take 6).flatMap (fun w => natBe 8 w.toNat)

/-- A digest as the little-endian value of its byte string, which is how the state keeps digests. -/
def sha384Val (bs : Bytes) : BitVec 384 := BitVec.ofNat 384 (leNat (sha384 bs))

/-- The byte string of a digest. -/
def digestBytes (d : BitVec 384) : Bytes := natLe 48 d.toNat

/-- brainpoolP384r1: the field, the coefficients, the order and the base point. -/
def bpP : Nat := 0x8CB91E82A3386D280F5D6F7E50E641DF152F7109ED5456B412B1DA197FB71123ACD3A729901D1A71874700133107EC53
def bpA : Nat := 0x7BC382C63D8C150C3C72080ACE05AFA0C2BEA28E4FB22787139165EFBA91F90F8AA5814A503AD4EB04A8C7DD22CE2826
def bpB : Nat := 0x04A8C7DD22CE28268B39B55416F0447C2FB77DE107DCD2A62E880EA53EEB62D57CB4390295DBC9943AB78696FA504C11
def bpN : Nat := 0x8CB91E82A3386D280F5D6F7E50E641DF152F7109ED5456B31F166E6CAC0425A7CF3AB6AF6B7FC3103B883202E9046565
def bpG : Nat × Nat :=
  (0x1D1C64F068CF45FFA2A63A81B7C13F6B8847A3E77EF14FE3DB7FCAFE0CBD10E8E826E03436D646AAEF87B2E247D4AF1E,
   0x8ABE1D7520F9C2A45CB1EB8E95CFD55262B70B29FEEC5864E19C054FF99129280E4646217791811142820341263C5315)

/-- b^e mod m over k bits of e. -/
def powModGo (m : Nat) : Nat → Nat → Nat → Nat → Nat
  | 0, _, _, acc => acc
  | k + 1, b, e, acc => powModGo m k (b * b % m) (e / 2) (if e % 2 = 1 then acc * b % m else acc)

/-- The inverse of a modulo the prime m. -/
def invMod (a m : Nat) : Nat := powModGo m 384 (a % m) (m - 2) 1

/-- A point in Jacobian coordinates; z = 0 is the point at infinity. -/
structure JPoint where
  x : Nat
  y : Nat
  z : Nat
  deriving DecidableEq, Repr

/-- Subtraction in the field. -/
def fSub (a b : Nat) : Nat := (a + (bpP - b % bpP)) % bpP

/-- The point at infinity. -/
def jInf : JPoint := { x := 1, y := 1, z := 0 }

/-- Doubling. -/
def jDouble (p : JPoint) : JPoint :=
  if p.z = 0 || p.y = 0 then jInf
  else
    let y2 := p.y * p.y % bpP
    let s := 4 * p.x * y2 % bpP
    let z2 := p.z * p.z % bpP
    let m := (3 * p.x * p.x + bpA * (z2 * z2 % bpP)) % bpP
    let x3 := fSub (m * m % bpP) (2 * s)
    let y3 := fSub (m * fSub s x3 % bpP) (8 * (y2 * y2 % bpP))
    { x := x3, y := y3, z := 2 * p.y * p.z % bpP }

/-- Addition. -/
def jAdd (p q : JPoint) : JPoint :=
  if p.z = 0 then q
  else if q.z = 0 then p
  else
    let z1 := p.z * p.z % bpP
    let z2 := q.z * q.z % bpP
    let u1 := p.x * z2 % bpP
    let u2 := q.x * z1 % bpP
    let s1 := p.y * (q.z * z2 % bpP) % bpP
    let s2 := q.y * (p.z * z1 % bpP) % bpP
    if u1 = u2 then (if s1 = s2 then jDouble p else jInf)
    else
      let h := fSub u2 u1
      let r := fSub s2 s1
      let h2 := h * h % bpP
      let h3 := h * h2 % bpP
      let v := u1 * h2 % bpP
      let x3 := fSub (fSub (r * r % bpP) h3) (2 * v)
      { x := x3, y := fSub (r * fSub v x3 % bpP) (s1 * h3), z := h * (p.z * q.z % bpP) % bpP }

/-- Scalar multiplication over k bits. -/
def jMulGo : Nat → Nat → JPoint → JPoint → JPoint
  | 0, _, _, acc => acc
  | k + 1, e, b, acc => jMulGo k (e / 2) (jDouble b) (if e % 2 = 1 then jAdd acc b else acc)

/-- e × P. -/
def jMul (e : Nat) (p : Nat × Nat) : JPoint := jMulGo 384 e { x := p.1, y := p.2, z := 1 } jInf

/-- The affine x coordinate. -/
def jAffineX (p : JPoint) : Nat := let zi := invMod p.z bpP; p.x * (zi * zi % bpP) % bpP

/-- Is (x, y) a point of brainpoolP384r1? -/
def onCurve (p : Nat × Nat) : Bool :=
  decide (p.1 < bpP) && decide (p.2 < bpP) && decide (p.2 * p.2 % bpP = (p.1 * p.1 * p.1 + bpA * p.1 + bpB) % bpP)

/-- ECDSA verification of (r, s) over a 48-byte digest (FIPS 186-5). -/
def ecdsaVerify (key : Nat × Nat) (digest : Bytes) (r s : Nat) : Bool :=
  if r = 0 || decide (bpN ≤ r) || s = 0 || decide (bpN ≤ s) || !(onCurve key) then false
  else
    let z := beNat digest
    let w := invMod s bpN
    let p := jAdd (jMul (z * w % bpN) bpG) (jMul (r * w % bpN) key)
    if p.z = 0 then false else decide (jAffineX p % bpN = r)

/-- The 97-byte uncompressed point (21_seal R442). -/
def pointBytes (p : Nat × Nat) : Bytes := 0x04#8 :: (natBe 48 p.1 ++ natBe 48 p.2)

/-- The coordinates in a 97-byte point. -/
def bytesPoint (bs : Bytes) : Nat × Nat := (beNat ((bs.drop 1).take 48), beNat ((bs.drop 49).take 48))

/-- The key hash of a key (21_seal R442). -/
def keyHash (point : Bytes) : BitVec 384 := sha384Val point

/-- Multiplication in GF(2^8) of AES by the bits of b. -/
def gmulGo : Nat → Nat → Nat → Nat → Nat
  | 0, _, _, acc => acc
  | k + 1, a, b, acc =>
    gmulGo k (if a ≥ 128 then ((2 * a) % 256) ^^^ 0x1B else 2 * a) (b / 2) (if b % 2 = 1 then acc ^^^ a else acc)

def gmul (a b : Nat) : Nat := gmulGo 8 a b 0

/-- The inverse in GF(2^8): a^254. -/
def ginv (a : Nat) : Nat :=
  let a2 := gmul a a
  let a3 := gmul a2 a
  let a7 := gmul (gmul a3 a3) a
  let a15 := gmul (gmul a7 a7) a
  let a31 := gmul (gmul a15 a15) a
  let a63 := gmul (gmul a31 a31) a
  let a127 := gmul (gmul a63 a63) a
  gmul a127 a127

/-- The AES S-box. -/
def sbox (a : Nat) : Nat :=
  let x := BitVec.ofNat 8 (ginv a)
  (x ^^^ x.rotateLeft 1 ^^^ x.rotateLeft 2 ^^^ x.rotateLeft 3 ^^^ x.rotateLeft 4 ^^^ 0x63#8).toNat

/-- XOR two lists of numbers. -/
def xorL (a b : List Nat) : List Nat := (a.zip b).map (fun p => p.1 ^^^ p.2)

/-- RotWord of AES. -/
def rotWord (w : List Nat) : List Nat := w.drop 1 ++ w.take 1

/-- The AES-256 key schedule: n more words before the newest-first list, at word index i. -/
def keyExpandGo : Nat → Nat → Nat → List (List Nat) → List (List Nat)
  | 0, _, _, ws => ws
  | n + 1, i, rcon, ws =>
    let t := ws.headD []
    let t' :=
      if i % 8 = 0 then xorL ((rotWord t).map sbox) [rcon, 0, 0, 0]
      else if i % 8 = 4 then t.map sbox
      else t
    keyExpandGo n (i + 1) (if i % 8 = 0 then gmul rcon 2 else rcon) (xorL (ws.getD 7 []) t' :: ws)

/-- Split into words of four. -/
def words4 : Nat → List Nat → List (List Nat)
  | 0, _ => []
  | n + 1, l => l.take 4 :: words4 n (l.drop 4)

/-- The fifteen round keys, each 16 bytes. -/
def roundKeys (key : List Nat) : List (List Nat) :=
  let ws := (keyExpandGo 52 8 1 (words4 8 key).reverse).reverse
  (List.range 15).map (fun r => ((ws.drop (4 * r)).take 4).flatten)

/-- ShiftRows on a column-major state. -/
def shiftRows (s : List Nat) : List Nat := (List.range 16).map (fun i => s.getD ((i + 4 * (i % 4)) % 16) 0)

/-- MixColumns. -/
def mixColumns (s : List Nat) : List Nat :=
  (List.range 16).map (fun i =>
    let c := 4 * (i / 4)
    gmul (s.getD (c + i % 4) 0) 2 ^^^ gmul (s.getD (c + (i + 1) % 4) 0) 3 ^^^ s.getD (c + (i + 2) % 4) 0
      ^^^ s.getD (c + (i + 3) % 4) 0)

/-- The rounds of AES after the first key addition. -/
def aesRounds : List (List Nat) → List Nat → List Nat
  | [], s => s
  | [k], s => xorL (shiftRows (s.map sbox)) k
  | k :: ks, s => aesRounds ks (xorL (mixColumns (shiftRows (s.map sbox))) k)

/-- AES-256 on one block. -/
def aesBlock (rks : List (List Nat)) (b : List Nat) : List Nat :=
  match rks with
  | [] => b
  | k :: ks => aesRounds ks (xorL b k)

/-- Multiplication in GF(2^128) of GCM, from the most significant bit. -/
def ghMulGo : Nat → Nat → Nat → Nat → Nat
  | 0, _, _, z => z
  | k + 1, x, v, z =>
    ghMulGo k x (if v % 2 = 1 then (v / 2) ^^^ (0xE1 * 2 ^ 120) else v / 2) (if bitsOf x k 1 = 1 then z ^^^ v else z)

def ghMul (x y : Nat) : Nat := ghMulGo 128 x y 0

/-- GHASH over n 16-byte blocks. -/
def ghashGo (h : Nat) : Nat → Bytes → Nat → Nat
  | 0, _, y => y
  | n + 1, bs, y =>
    let b := bs.take 16
    ghashGo h n (bs.drop 16) (ghMul (y ^^^ beNat (b ++ zeroBytes (16 - b.length))) h)

def ghash (h : Nat) (aad ct : Bytes) : Nat :=
  let y := ghashGo h ((ct.length + 15) / 16) ct (ghashGo h ((aad.length + 15) / 16) aad 0)
  ghMul (y ^^^ (8 * aad.length * 2 ^ 64 + 8 * ct.length)) h

/-- The counter-mode stream over n blocks from counter i. -/
def gcmStream (rks : List (List Nat)) (iv : List Nat) : Nat → Nat → List Nat
  | 0, _ => []
  | n + 1, i => aesBlock rks (iv ++ (natBe 4 i).map (fun b => b.toNat)) ++ gcmStream rks iv n (i + 1)

/-- AES-256-GCM with a 12-byte nonce: the text xored with the key stream. -/
def gcmCrypt (key nonce text : Bytes) : Bytes :=
  let rks := roundKeys (key.map (fun b => b.toNat))
  let ks := gcmStream rks (nonce.map (fun b => b.toNat)) ((text.length + 15) / 16) 2
  (text.zip ks).map (fun p => p.1 ^^^ BitVec.ofNat 8 p.2)

/-- The 16-byte tag over the associated data and the ciphertext. -/
def gcmTag (key nonce aad ct : Bytes) : Bytes :=
  let rks := roundKeys (key.map (fun b => b.toNat))
  let h := beNat ((aesBlock rks (List.replicate 16 0)).map (fun n => BitVec.ofNat 8 n))
  let e := gcmStream rks (nonce.map (fun b => b.toNat)) 1 1
  natBe 16 (ghash h aad ct ^^^ beNat (e.map (fun n => BitVec.ofNat 8 n)))

end Sys2Proof.Machine
end

