-- ==== Sys2Proof/Machine/BayIssue.lean ====
section
/-! DEFINITION. The sequencer, the mover, the racking unit and the router at issue (06_bay_sequencer, 07_bay_instructions,
08 R154-R161, 09 R181-R190, 10 R204-R208). -/

namespace Sys2Proof.Machine
open Sys2Proof

/-- LOOP L, N pushes its entry (06 R116); the stack holds eight (R117). -/
def opLoop (m : BayM) (lm1 : BitVec 11) (nm1 : BitVec 12) : BayM :=
  m.upd (fun b =>
    if b.seq.stack.length < 8 then
      let pc := b.seq.pc.toNat
      { b with seq := { b.seq with stack :=
          { start := (pc + 1) % 2 ^ 14, fin := (pc + lm1.toNat + 1) % 2 ^ 14, left := nm1.toNat + 1, total := nm1.toNat + 1 }
            :: b.seq.stack } }
    else b)

/-- The address after the bundle at pc, and the loop stack (06 R116); fuel bounds the entries popped. -/
def nextAddr (pc : Nat) : List LoopEnt → Nat × List LoopEnt
  | [] => ((pc + 1) % 2 ^ 14, [])
  | t :: r =>
    if t.fin = pc then
      if t.left > 1 then (t.start, { t with left := t.left - 1 } :: r) else nextAddr pc r
    else ((pc + 1) % 2 ^ 14, t :: r)

/-- PEG and the four steps of R122 (06 R122, R123); endPeg when END does them. The parcel's shim budget beta takes effect in the bay (03 R57). -/
def opPeg (beta : Nat) (m : BayM) (u : Int) (idx : BitVec 12) (phase : BitVec 8) (phv : Bool) (ecc : Ecc) (endPeg : Bool) : BayM :=
  let s := m.bay.seq
  let d := s.cfd ^^^ 0xFFFFFFFF#32
  let ue := decide (ecc = .uncorrectable)
  let ok := ue || decide (d = Sparse.get 0#32 m.bay.pegtab idx.toNat)
  let pegno := (s.pegno + 1) % 2 ^ 32
  let phase' := if phv then phase else s.phase
  let crush := match s.crush with
    | some (p, c) => if c ≤ u then none else some (p, c)
    | none => none
  let m := m.upd (fun b =>
    let q := { b.seq with cfd := 0xFFFFFFFF#32, lastPeg := u, pegno := pegno, phase := phase', crush := crush, overdue := false,
                          issuing := b.seq.issuing && !endPeg }
    let b := { b with beta := beta, seq := q }
    let b := if ue then (b.count cntPlanUe 1).faultAt u 0x0206 0 [(2, idx.toNat)] else b
    let b := if ecc = .corrected then b.count cntPlanCe 1 else b
    if ok then b else b.faultAt (u + 2) 0x0204 0 [(2, idx.toNat), (4, pegno)])
  m.emit (.token pegno ok phase' phv u endPeg)

/-- CRUSH (06 R127): the hint and the pending crush of R121. -/
def opCrush (m : BayM) (u : Int) (phase : BitVec 8) (lead : BitVec 16) : BayM :=
  let c := u + 16 * (lead.toNat : Int)
  (m.upd (fun b => { b with seq := { b.seq with crush := some (phase, c) } })).emit (.crush phase c)

def opIset (m : BayM) (u : Int) (on : Bool) (i : BitVec 4) (imm : BitVec 20) : BayM :=
  if on then m.upd (fun b => b.due (u + 1) 0 (.idx i.toNat (imm.signExtend 32))) else m
def opIseth (m : BayM) (u : Int) (on : Bool) (i : BitVec 4) (imm : BitVec 12) : BayM :=
  if on then m.upd (fun b => b.due (u + 1) 0 (.idx i.toNat
    (BitVec.ofNat 32 (imm.toNat * 2 ^ 20 + (b.idxReg i.toNat).toNat % 2 ^ 20)))) else m
def opIstep (m : BayM) (u : Int) (on : Bool) (i : BitVec 4) (imm : BitVec 20) : BayM :=
  if on then m.upd (fun b => b.due (u + 1) 0 (.idx i.toNat (b.idxReg i.toNat + imm.signExtend 32))) else m
def opIld (m : BayM) (u : Int) (on : Bool) (i : BitVec 4) (vs : BitVec 6) (lane : BitVec 7) : BayM :=
  if on then m.upd (fun b => b.due (u + 2) 0 (.idx i.toNat (b.lathe.lane vs.toNat lane.toNat))) else m
def opQset (m : BayM) (u : Int) (on : Bool) (q : BitVec 3) (v : Bool) : BayM :=
  if on then m.upd (fun b => b.due (u + 1) 0 (.pred q.toNat v)) else m
def opQmask (m : BayM) (u : Int) (on : Bool) (q mk : BitVec 3) (lane : BitVec 7) : BayM :=
  if on then m.upd (fun b => b.due (u + 2) 0 (.pred q.toNat ((b.lathe.mask mk.toNat).getLsbD lane.toNat))) else m
/-- QITER (06 R118, 07 R134): 0 when the stack has no entry at the level. -/
def opQiter (m : BayM) (u : Int) (on : Bool) (q level : BitVec 3) (last : Bool) : BayM :=
  if on then m.upd (fun b =>
    let v := match b.seq.stack[level.toNat]? with
      | some e => if last then decide (e.left = 1) else decide (e.left = e.total)
      | none => false
    b.due (u + 1) 0 (.pred q.toNat v)) else m

/-- Start a mover operation (05 R91, R92, 07 R147). -/
def startMover (m : BayM) (o : MoverOp) : BayM := m.upd (fun b => { b with vat := { b.vat with mover := some o } })

/-- The second register of a pair (07 R147). -/
def pairReg (b : Bay) (i : Nat) : Word := b.idxReg ((i + 1) % 16)

def opVfillPattern (m : BayM) (u : Int) (on : Bool) (i : BitVec 4) (nm1 : BitVec 17) : BayM :=
  startMover m { kind := .pattern (pairReg m.bay i.toNat), dst := m.bay.vatAddr i.toNat 0 64, n := 64 * (nm1.toNat + 1), u := u,
                 on := on, body := m.bay.seq.body }
/-- The anchor is clamped to -192..63 (07 R147). -/
def clampAnchor (a : Int) : Int := if a < -192 then -192 else if 63 < a then 63 else a
def opVfillTun (m : BayM) (u : Int) (on : Bool) (i : BitVec 4) (nm1 : BitVec 17) : BayM :=
  startMover m { kind := .tun (clampAnchor (signedOf 9 (pairReg m.bay i.toNat).toNat)), dst := m.bay.vatAddr i.toNat 0 64,
                 n := 64 * (nm1.toNat + 1), u := u, on := on, body := m.bay.seq.body }
def opVcopy (m : BayM) (u : Int) (on : Bool) (i : BitVec 4) (nm1 : BitVec 17) : BayM :=
  startMover m { kind := .copy (m.bay.vatAddr i.toNat 0 64), dst := m.bay.vatAddr ((i.toNat + 1) % 16) 0 64,
                 n := 64 * (nm1.toNat + 1), u := u, on := on, body := m.bay.seq.body }
/-- VMODE (05 R95, 07 R149): the named banks are occupied at u + 1. -/
def opVmode (m : BayM) (u : Int) (bsel : BitVec 14) (mode : BitVec 3) (reg : Bool) : BayM :=
  let acc : Access :=
    { at_ := u + 1, port := .bankCtl, addr := 0, len := 0, wr := none, on := true, sink := .none, body := false,
      banks := m.bay.selBanks bsel reg, mode := mode }
  m.upd (fun b => { b with accs := b.accs ++ [acc] })
/-- STATE of VPOWER (07 R147). -/
def powerOf (s : BitVec 2) : BankPower := match s.toNat with
  | 0 => .active
  | 1 => .nap
  | 2 => .retain
  | _ => .off
/-- VPOWER on one bank, with the events that end its fence or its wake (05 R98). -/
def vpowerBank (u : Int) (pw : BankPower) (b : Bay) (k : Nat) : Bay :=
  let n := (b.vat.bank k).vpower u pw
  let b := { b with vat := b.vat.setBank k n }
  let b := match n.sleep with
    | some (_, c) => b.due c 0 (.bankSleep k)
    | none => b
  match n.wakeAt with
  | some c => b.due c 0 (.bankWake k)
  | none => b
def opVpower (m : BayM) (u : Int) (bsel : BitVec 14) (state : BitVec 2) (reg : Bool) : BayM :=
  m.upd (fun b => (b.selBanks bsel reg).foldl (vpowerBank u (powerOf state)) b)

/-- How far a region's offsets reach (09 R178). -/
def Region.extent (r : Region) : Nat := if r.kind = .replicated then 32 * r.size else r.size
def Region.holds (r : Region) (off n : Nat) : Bool := decide (r.base ≤ off) && decide (off + n ≤ r.base + r.extent)
/-- The region that holds an offset. -/
def regionAt (rs : List Region) (off : Nat) : Option Region := rs.find? (fun r => decide (r.base ≤ off) && decide (off < r.base + r.extent))

/-- The uses a racking read and a racking write may reach (09 R179). -/
def rackReads : RegionUse → Bool
  | .vintage => false
  | _ => true
def rackWrites : RegionUse → Bool
  | .kv => true
  | .scratch => true
  | _ => false

/-- The cellar address of a RACK instruction (09 R181). -/
def cellarAddr (b : Bay) (ci coff : Nat) : Nat :=
  let a := ((pairReg b ci).toNat * 2 ^ 32 + (b.idxReg ci).toNat + 64 * coff) % 2 ^ 42
  a / 64 * 64

/-- Are a group's casks all of the bay's field, each with a replicated region of the same shape that holds the bytes
(09 R190)? -/
def groupOk (cx : BCtx) (grp off n : Nat) : Bool :=
  let casks := Sparse.get 0 cx.grpCask grp
  let here := [2 * cx.field, 2 * cx.field + 1]
  let named := here.filter (fun c => bitsOf casks c 1 == 1)
  let shapes := named.map (fun c =>
    match regionAt (cx.regions.getD (c - 2 * cx.field) []) off with
    | some r =>
      if r.kind = .replicated && rackWrites r.use_ && decide (off + n ≤ r.base + r.size) then some (r.base, r.size, r.lb) else none
    | none => none)
  decide (casks = (named.map (fun c => 2 ^ c)).foldl (· + ·) 0) && decide (named ≠ []) &&
    shapes.all (fun x => x.isSome && x == shapes.headD none)

/-- CRD, CWR and CBW at issue (09 R181, R182, R184). Kind 1 CRD, 2 CWR, 3 CBW. A plan names casks by relative number (22, 11 R223, R242;
log entry 30), so the cask field of A is compared with the relative numbers of the bay's own casks. The timing follows the region that holds the
first piece, whatever cask it is of (R184). -/
def issueRack (cx : BCtx) (m : BayM) (u : Int) (on : Bool) (kind : Nat) (f : RackF) (grp : Nat) (beats : List Ecc) : BayM :=
  let b := m.bay
  let a := cellarAddr b f.ci.toNat (if kind = 3 then 0 else f.coff.toNat)
  let cask := a / 2 ^ 37
  let off := a % 2 ^ 37
  let n := 64 * (f.lm1.toNat + 1)
  let mine := decide (cask / 2 = cx.rel / 2)
  let reg := if mine then regionAt (cx.regions.getD (cask % 2) []) off else none
  let ok :=
    if kind = 3 then groupOk cx grp off n
    else match reg with
      | some r => r.holds off n && (if kind = 1 then rackReads r.use_ else rackWrites r.use_)
      | none => false
  let inter := kind ≠ 3 && (match regionAt (cx.allRegions.getD cask []) off with
    | some r => decide (r.kind = .interleaved)
    | none => false)
  let run : RackRun :=
    { tag := b.tag, kind := kind, u := u, cask := 2 * cx.field + cask % 2, off := off, pieces := f.lm1.toNat + 1, inter := inter, grp := grp
      vaddr := b.vatAddr f.vin.toNat (64 * f.voff.toNat) 64, on := on && ok, next := 0, nextBuf := 0, buf := [], body := b.seq.body
      beats := beats }
  m.upd (fun b =>
    let b := { b with racks := b.racks ++ [run], tag := b.tag + 1 }
    if on && !ok then b.faultAt (u + 2) 0x0403 0 [(8, a), (1, kind)] else b)

/-- t(w) of R182. -/
def RackRun.t (r : RackRun) (w : Nat) : Nat := if r.inter then w / 2 else 2 * w
/-- d_w of R182. -/
def RackRun.d (r : RackRun) (w : Nat) : Int := r.u + 160 + (r.t w : Int)

/-- Is frame k a work frame of a schedule (10 R207)? -/
def isWork (period : Nat) (ws : List Window) (k : Int) : Bool :=
  if period = 0 then true
  else
    let f := (k.emod period).toNat
    !(ws.any (fun w => decide (w.first ≤ f) && decide (f < w.first + w.len)))

/-- The first work frame at or after k; fuel is one period. -/
def firstWork (period : Nat) (ws : List Window) : Nat → Int → Option Int
  | 0, k => if isWork period ws k then some k else none
  | fuel + 1, k => if isWork period ws k then some k else firstWork period ws fuel (k + 1)

/-- The work frame reached after n more work frames from the work frame k; fuel is one period for each frame. -/
def afterWork (period : Nat) (ws : List Window) (n : Nat) (k : Int) : Option Int :=
  let per := if period = 0 then 1 else period
  let wp := ((List.range per).filter (fun (i : Nat) => isWork period ws (i : Int))).length
  if wp = 0 then none
  else
    let jump := k + ((n / wp * per : Nat) : Int)
    (List.range (n % wp)).foldl (fun (o : Option Int) _ => o.bind (fun x => firstWork period ws per (x + 1))) (some jump)

/-- SOP at issue (10 R206, R207, R218). An instruction whose descriptor names another operation, or none, is void. -/
def issueSop (cx : BCtx) (m : BayM) (u : Int) (on : Bool) (opk : Nat) (f : SopF) : BayM :=
  let b := m.bay
  let d := Sparse.get SillDesc.none b.descs f.dix.toNat
  let side := d.cask % 2
  let period := cx.period.getD side 0
  let ws := cx.windows.getD side []
  let k0 := firstWork period ws (period + 1) (Int.fdiv (u + 32 + (d.inl : Int) + 8) 9)
  let e := k0.bind (fun k => (afterWork period ws (d.t - 1) k).map (fun l => 9 * (l + 1)))
  let run : SopRun :=
    { tag := b.tag, dix := f.dix.toNat, desc := d, u := u, k0 := k0.getD 0, e := e, vaddr := b.vatAddr f.vin.toNat (64 * f.voff.toNat) 64
      on := on && decide (d.opk = opk) && decide (opk ≠ 0) && cx.inParcel, next := 0, operand := [], snap := none, ended := false, nextOut := 0
      result := none, late := false, body := b.seq.body }
  m.upd (fun b => { b with sops := b.sops ++ [run], tag := b.tag + 1 })

/-- SEND and RECV at issue (08 R157). An entry of the other kind, or none, moves nothing. -/
def issueRoute (m : BayM) (u : Int) (on send : Bool) (f : RouteF) : BayM :=
  let e := Sparse.get RouteEnt.none m.bay.routes f.rt.toNat
  if e.kind = (if send then 1 else 2) then
    m.upd (fun b => { b with route := b.route ++
      [{ send := send, u := u, rt := f.rt.toNat, ent := e, base := b.vatAddr f.vin.toNat (128 * f.voff.toNat) 128, on := on,
         next := 0, body := b.seq.body }] })
  else m

/-- What each bay instruction does at its issue count u. Any other command does nothing here. -/
def bayIssueA (cx : BCtx) (m : BayM) (u : Int) (i : Instr) : BayM :=
  let on := fun p => m.bay.isOn p
  match i with
  | .loop _ lm1 nm1 => opLoop m lm1 nm1
  | .peg _ idx ph phv e => opPeg cx.betaTarget m u idx ph phv e false
  | .endPlan _ idx ph phv e => opPeg cx.betaTarget m u idx ph phv e true
  | .crush _ ph lead => opCrush m u ph lead
  | .iset _ p k imm => opIset m u (on p) k imm
  | .iseth _ p k imm => opIseth m u (on p) k imm
  | .istep _ p k imm => opIstep m u (on p) k imm
  | .ild _ p k vs l => opIld m u (on p) k vs l
  | .qset _ p q v => opQset m u (on p) q v
  | .qmask _ p q mk l => opQmask m u (on p) q mk l
  | .qiter _ p q lv la => opQiter m u (on p) q lv la
  | .lda _ p s f => issueLoad m u false (on p) s f
  | .ldb _ p s f => issueLoad m u true (on p) s f
  | .setup _ s f => issueSetup m u s f
  | .kstep _ s ha hb => issueKstep m u s ha hb
  | .shim _ s lm1 nom min => issueShim m u s lm1.toNat nom.toNat min.toNat
  | .drain _ p s f => issueDrain m u (on p) s f
  | .drainr _ p s f => issueDrainR m u (on p) s f
  | .taste _ s prb qb => issueTaste m u s prb.toNat qb.toNat
  | .mode _ pr q => issueMode m u pr.toNat q
  | .clrf _ pm vf => m.upd (fun b => b.due (u + 1) 0 (.clrf pm vf))
  | .vfillPattern _ p k n => opVfillPattern m u (on p) k n
  | .vfillTun _ p k n => opVfillTun m u (on p) k n
  | .vcopy _ p k n => opVcopy m u (on p) k n
  | .vmode _ s md r => opVmode m u s md r
  | .vpower _ s st r => opVpower m u s st r
  | .crd _ p f => issueRack cx m u (on p) 1 f 0 []
  | .cwr _ p f => issueRack cx m u (on p) 2 f.f 0 f.beats
  | .cbw _ p ci vin voff lm1 g =>
    issueRack cx m u (on p) 3 { ci := ci, vin := vin, voff := voff, lm1 := lm1, coff := 0#10 } g.grp.toNat g.beats
  | .gather _ p f => issueSop cx m u (on p) 1 f
  | .scatter _ p f => issueSop cx m u (on p) 2 f
  | .scatterAdd _ p f => issueSop cx m u (on p) 3 f
  | .dotSweep _ p f => issueSop cx m u (on p) 4 f
  | .softblend _ p f => issueSop cx m u (on p) 5 f
  | .digest _ p f => issueSop cx m u (on p) 6 f
  | .fill _ p f => issueSop cx m u (on p) 7 f
  | .copy _ p f => issueSop cx m u (on p) 8 f
  | .send _ p f => issueRoute m u (on p) true f
  | .recv _ p f => issueRoute m u (on p) false f
  | _ => m

/-- The lathe's instructions at issue. -/
def bayIssueL (cx : BCtx) (m : BayM) (u : Int) (i : Instr) : BayM :=
  let on := fun p => m.bay.isOn p
  match i with
  | .iadd _ p f => opIadd m u (on p) f
  | .isub _ p f => opIsub m u (on p) f
  | .imul _ p f => opImul m u (on p) f
  | .iand _ p f => opIand m u (on p) f
  | .ior _ p f => opIor m u (on p) f
  | .ixor _ p f => opIxor m u (on p) f
  | .ishl _ p f => opIshl m u (on p) f
  | .ishr _ p f => opIshr m u (on p) f
  | .isra _ p f => opIsra m u (on p) f
  | .imin _ p f => opImin m u (on p) f
  | .imax _ p f => opImax m u (on p) f
  | .icmpEq _ p f => opIcmpEq m u (on p) f
  | .icmpLt _ p f => opIcmpLt m u (on p) f
  | .icmpLtu _ p f => opIcmpLtu m u (on p) f
  | .mov _ p f => opMov m u (on p) f
  | .sel _ p f => opSel m u (on p) f
  | .bcast _ p f => opBcast m u (on p) f
  | .movc _ p f => opMovc cx.px cx.py m u (on p) f
  | .fabs _ p f => opFabs m u (on p) f
  | .fneg _ p f => opFneg m u (on p) f
  | .fadd _ p f => opFadd m u (on p) f
  | .fsub _ p f => opFsub m u (on p) f
  | .fmul _ p f => opFmul m u (on p) f
  | .ffma _ p f => opFfma m u (on p) f
  | .fmin _ p f => opFmin m u (on p) f
  | .fmax _ p f => opFmax m u (on p) f
  | .fcmpEq _ p f => opFcmpEq m u (on p) f
  | .fcmpLt _ p f => opFcmpLt m u (on p) f
  | .fcmpLe _ p f => opFcmpLe m u (on p) f
  | .cvtI2f _ p f => opCvtI2f m u (on p) f
  | .cvtF2i _ p f => opCvtF2i cx.px cx.py m u (on p) f
  | .cvtUnpack _ p f => opCvtUnpack m u (on p) f
  | .cvtPack _ p f => opCvtPack cx.px cx.py m u (on p) f
  | .frcp _ p f => opFrcp m u (on p) f
  | .fsqrt _ p f => opFsqrt m u (on p) f
  | .frsqrt _ p f => opFrsqrt m u (on p) f
  | .fexp _ p f => opFexp m u (on p) f
  | .fexp2 _ p f => opFexp2 m u (on p) f
  | .flog _ p f => opFlog m u (on p) f
  | .flog2 _ p f => opFlog2 m u (on p) f
  | .ftanh _ p f => opFtanh m u (on p) f
  | .fsigm _ p f => opFsigm m u (on p) f
  | .fsilu _ p f => opFsilu m u (on p) f
  | .fgelus _ p f => opFgelus m u (on p) f
  | .fgelut _ p f => opFgelut m u (on p) f
  | .rsum _ p f => opRsum m u (on p) f
  | .rmax _ p f => opRmax m u (on p) f
  | .tclr _ p f => opTclr m u (on p) f
  | .tacc _ p f => opTacc m u (on p) f
  | .tmac _ p f => opTmac m u (on p) f
  | .xsum _ p f => opXsum m u (on p) f
  | .tsum _ p f => opTsum m u (on p) f
  | .tloadc _ p f => opTloadc m u (on p) f
  | .tstore _ p f => opTstore m u (on p) f
  | .tdrain _ p f => opTdrain cx.px cx.py m u (on p) f
  | .cgen _ p f => opCgen m u (on p) f
  | .lfrd _ p f => opLfrd m u (on p) f
  | .lfclr _ p _ => opLfclr m u (on p)
  | .vld _ p f => opVld m u (on p) f
  | .vst _ p f => opVst m u (on p) f
  | _ => m

end Sys2Proof.Machine
end

