-- ==== Sys2Proof/Machine/BayTick.lean ====
section
/-! DEFINITION. One fc of a bay: what falls due at a count, then the bundle of that count (06_bay_sequencer R109-R130). -/

namespace Sys2Proof.Machine
open Sys2Proof

/-- The control bits of a half after f. -/
def Press.modCtl (p : Press) (ctl : Nat) (f : HalfCtl → HalfCtl) : Press :=
  { p with ctl := Sparse.modify HalfCtl.init p.ctl ctl f }

/-- A load's first byte lands (03 R46): a held half is the breach BUFFER_OVERWRITE, and an off load only checks (06 R119). -/
def halfBegin (m : BayM) (c : Int) (pr ctl : Nat) (fmt : BitVec 4) (on : Bool) : BayM :=
  let h := Sparse.get HalfCtl.init (m.bay.press pr).ctl ctl
  let m := if h.held then m.breach brBufferOverwrite c pr else m
  if on then
    m.upd (fun b => b.setPress pr ((b.press pr).modCtl ctl (fun _ => { valid := false, held := true, poison := none, fmt := fmt })))
  else m

/-- Store the bytes of a load from a half key on. -/
def storeBytes (s : Sparse (Option Byte)) : Nat → Bytes → Sparse (Option Byte)
  | _, [] => s
  | k, b :: bs => storeBytes (Sparse.set none s k (some b)) (k + 1) bs

/-- An event of the agenda. -/
def runEvent (m : BayM) (d : Due) : BayM :=
  match d.ev with
  | .lathe x => latheLand d.at_ m x
  | .idx i v => m.upd (fun b => b.setIdx i v)
  | .pred q v => m.upd (fun b => b.setPred q v)
  | .arm pr q su => m.upd (fun b =>
      let p := b.press pr
      b.setPress pr (p.setQuarter q { p.quarter q with armed := some su }))
  | .mode pr quart => m.upd (fun b => b.modeNow pr quart)
  | .clrf pm vf => m.upd (fun b => b.clrfNow pm vf)
  | .halfBegin pr ctl fmt on => halfBegin m d.at_ pr ctl fmt on
  | .halfLand pr off bytes => m.upd (fun b =>
      let p := b.press pr
      b.setPress pr { p with store := storeBytes p.store off bytes })
  | .halfPoison pr ctl a s => m.upd (fun b => b.setPress pr ((b.press pr).modCtl ctl (fun h => { h with poison := some (a, s) })))
  | .halfValid pr ctl => m.upd (fun b => b.setPress pr ((b.press pr).modCtl ctl (fun h => { h with valid := true })))
  | .dflags pr fl => m.upd (fun b => let p := b.press pr; b.setPress pr { p with dflags := p.dflags ||| fl })
  | .fault code idx detail => m.raise code d.at_ idx detail
  | .bankSleep k => m.upd (fun b => { b with vat := b.vat.sleepNow k d.at_ })
  | .bankWake k => m.upd (fun b => { b with vat := b.vat.wakeNow k d.at_ })
  | .flitIn id f void poison data par => m.upd (fun b =>
      { b with flits := b.flits ++
          [{ at_ := d.at_, routeId := id, f := f, void := void, poison := poison, data := data, parity := par }] })

/-- The agenda entries due at count c that satisfy sel, in order; they leave the agenda. -/
def runDue (m : BayM) (c : Int) (sel : Due → Bool) : BayM :=
  let hit := fun (d : Due) => decide (d.at_ ≤ c) && sel d
  let ds := m.bay.agenda.filter hit
  ds.foldl runEvent (m.upd (fun b => { b with agenda := b.agenda.filter (fun d => !hit d) }))

/-- Parity bits of a flit (08 R160): bit k is the complement of the XOR of data bits 64k to 64k + 63. -/
def bitXor (n : Nat) : Bool := (List.range 64).foldl (fun acc i => acc != (bitsOf n i 1 == 1)) false
def parity16 (bs : Bytes) : Nat :=
  (List.range 16).foldl (fun acc k => acc + (if bitXor (Bytes.leAt bs (8 * k) 8) then 0 else 2 ^ k)) 0

/-- The first parity bit in which two words differ. -/
def firstDiff (a b : Nat) : Nat := ((List.range 16).find? (fun k => bitsOf a k 1 != bitsOf b k 1)).getD 0

/-- A racking access. -/
def rackAcc (c : Int) (addr len : Nat) (wr : Option Chunk) (on : Bool) (sink : Sink) (body : Bool) : Access :=
  { at_ := c, port := if wr.isSome then .rackWrite else .rackRead, addr := addr % 2 ^ 23, len := len, wr := wr, on := on,
    sink := sink, body := body, banks := [], mode := 0#3 }

/-- A piece with every granule poisoned (09 R176, R188): its bytes are free. -/
def poisonPiece (site epoch n : Nat) : Chunk :=
  { bytes := (List.range n).map (fun i => Config.freeByte site epoch i), bad := List.range (n / 8) }

/-- Join chunks. -/
def Chunk.append (a b : Chunk) : Chunk :=
  { bytes := a.bytes ++ b.bytes, bad := a.bad ++ b.bad.map (fun g => g + a.bytes.length / 8) }

/-- Does a finding make the piece's data unusable (09 R176)? -/
def pieceBad : PieceErr → Bool
  | .uncorrectable _ => true
  | .beatUncorrectable => true
  | .late => true
  | _ => false

/-- The chunk that is delivered for piece w of a read, and what it met: a piece that is not in the return buffer is late (09 R176, R188). -/
def pieceChunk (site epoch : Nat) (r : RackRun) (w : Nat) (err : PieceErr) : Chunk × PieceErr :=
  match r.buf.find? (fun p => p.1 = w) with
  | some p => (if pieceBad err then poisonPiece site epoch 64 else p.2, err)
  | none => (poisonPiece site epoch 64, .late)

/-- The pieces of one read that are due at c. -/
def RackRun.dueAt (r : RackRun) (c : Int) : List Nat := (List.range r.pieces).filter (fun w => decide (r.next ≤ w) && decide (r.d w ≤ c))

/-- The delivery of the pieces of one read that are due at c (09 R182, R188): each late piece is a READ_LATE and counts, and the cask
hears of every finding. -/
def rackDeliver (site : Nat) (m : BayM) (c : Int) (r : RackRun) (errs : List PieceErr) : BayM :=
  let ws := r.dueAt c
  match ws with
  | [] => m
  | w0 :: _ =>
    let go := fun (d : Chunk) (on : Bool) => m.upd (fun b =>
      { b with
        free := if on then b.free + r.pieces else b.free
        accs := b.accs ++ [rackAcc c (r.vaddr + 64 * w0) (64 * ws.length) (some d) on .none r.body]
        racks := b.racks.map (fun x => if x.tag = r.tag then { x with next := w0 + ws.length } else x) })
    if !r.on then go { bytes := zeroBytes (64 * ws.length), bad := [] } false
    else
      let ps := (enumFrom 0 ws).map (fun e => (e.2, pieceChunk site (m.bay.free + e.2) r e.2 (errs.getD e.1 .ok)))
      ps.foldl (fun m p =>
        let m := if p.2.2 = .late then m.breach brReadLate c unitRack else m
        if p.2.2 = .ok then m else m.emit (.pieceErr r.cask (r.off + 64 * p.1) p.2.2 c))
        (go (ps.foldl (fun acc p => acc.append p.2.1) { bytes := [], bad := [] }) true)

/-- Every racking read that delivers at c; errs goes piece by piece, in issue order of the transactions. -/
def rackDeliveries (site : Nat) (m : BayM) (c : Int) (errs : List PieceErr) : BayM :=
  (m.bay.racks.foldl (fun (x : BayM × List PieceErr) r =>
    if r.kind = 1 then (rackDeliver site x.1 c r x.2, x.2.drop (r.dueAt c).length) else x) (m, errs)).1

/-- The racking unit at count c (09 R182): requests whose data must be in the return buffer, deliveries, vat reads of writes. -/
def rackFc (site : Nat) (m : BayM) (c : Int) : BayM :=
  let m := m.bay.racks.foldl (fun m r =>
    if r.kind = 1 then
      let ws := (List.range r.pieces).filter (fun w => decide (r.d w - 24 = c))
      if r.on then ws.foldl (fun m w => m.emit (.readPiece r.tag w r.cask (r.off + 64 * w) (r.u + 32 + (r.t w : Int)))) m else m
    else
      let k := c - r.u - 1
      if k < 0 then m
      else
        let k := k.toNat
        if 2 * k < r.pieces then
          let n := if 2 * k + 1 < r.pieces then 128 else 64
          m.upd (fun b => { b with accs := b.accs ++ [rackAcc c (r.vaddr + 128 * k) n none r.on (.cwr r.tag k) r.body] })
        else m) m
  let m := rackDeliveries site m c []
  m.upd (fun b => { b with racks := b.racks.filter (fun r =>
    if r.kind = 1 then decide (r.next < r.pieces) else decide (c < r.u + 2 + ((r.pieces + 1) / 2 : Nat))) })

/-- A sill operation reaches its end count (10 R207). found lists what its reads meet, by the offset of the piece (R219). -/
def sopEnds (m : BayM) (c : Int) (agree late : Bool) (found : List (Nat × PieceErr)) : BayM :=
  let hit := fun (r : SopRun) => !r.ended && (match r.e with
    | some e => decide (e ≤ c)
    | none => false)
  let rs := m.bay.sops.filter hit
  let m := m.upd (fun b => { b with sops := b.sops.map (fun r => if hit r then { r with ended := true, late := late } else r) })
  rs.foldl (fun m r => m.emit (.sopEnd { r with late := late } agree found)) m

/-- The vat side of one sill operation at count c (10 R207), and the cask at 9 k0, the writes of that count in it (R210, 09 R183). An operation
that has become void (10 R214) leaves an off access. -/
def sopFcOne (site : Nat) (c : Int) (m : BayM) (r : SopRun) : BayM :=
  let k := c - r.u - 1
  let m :=
    if decide (0 ≤ k) && decide (k < r.desc.inl) then
      m.upd (fun b => { b with accs := b.accs ++
        [rackAcc c (r.vaddr + 128 * k.toNat) 128 none r.on (.sop r.tag k.toNat) r.body] })
    else m
  let m := if r.on && c = 9 * r.k0 + 1 then m.emit (.sopStart r.tag r.desc.cask) else m
  match r.e with
  | none => m
  | some e =>
    let j := c - e - 256
    if decide (0 ≤ j) && decide (j < r.desc.outl) then
      let j := j.toNat
      if !r.on then
        m.upd (fun b => { b with accs := b.accs ++
          [rackAcc c (r.vaddr + 128 * j) 128 (some { bytes := zeroBytes 128, bad := [] }) false .none r.body] })
      else
        match r.result with
        | some ch =>
          let bytes := Bytes.slice ch.bytes (128 * j) 128
          if bytes.isEmpty then m
          else
            let bad := (ch.bad.filter (fun g => decide (16 * j ≤ g) && decide (g < 16 * j + 16))).map (fun g => g - 16 * j)
            m.upd (fun b => { b with accs := b.accs ++
              [rackAcc c (r.vaddr + 128 * j) bytes.length (some { bytes := bytes, bad := bad }) true .none r.body] })
        | none =>
          if r.late then
            (m.upd (fun b => { b with free := b.free + 1, accs := b.accs ++
              [rackAcc c (r.vaddr + 128 * j) 128 (some (poisonPiece site b.free 128)) true .none r.body] })).breach
                brReadLate c unitRack
          else
            m.upd (fun b => { b with accs := b.accs ++
              [rackAcc c (r.vaddr + 128 * j) 128 (some { bytes := zeroBytes 128, bad := [] }) false .none r.body] })
    else m

/-- Every sill operation of the bay at count c. -/
def sopFc (site : Nat) (m : BayM) (c : Int) : BayM :=
  let m := m.bay.sops.foldl (sopFcOne site c) m
  let m := sopEnds m c true false []
  m.upd (fun b => { b with sops := b.sops.filter (fun r => match r.e with
    | some e => decide (c < e + 257 + (r.desc.outl : Int))
    | none => true) })

/-- A router access. -/
def routeAcc (c : Int) (addr : Nat) (wr : Option Chunk) (on : Bool) (sink : Sink) (body : Bool) : Access :=
  { at_ := c, port := if wr.isSome then .routerWrite else .routerRead, addr := addr % 2 ^ 23, len := 128, wr := wr, on := on,
    sink := sink, body := body, banks := [], mode := 0#3 }

/-- A RECV's write of flit f at count c (08 R157, R160-R162). -/
def recvFlit (site : Nat) (m : BayM) (c : Int) (r : RouteRun) (f : Nat) : BayM :=
  let here := m.bay.flits.find? (fun x => decide (x.at_ = c - 1))
  let addr := r.base + 128 * f
  let idle := routeAcc c addr (some { bytes := zeroBytes 128, bad := [] }) false .none r.body
  let absent := fun (m : BayM) =>
    m.upd (fun b => ({ b with accs := b.accs ++ [idle] }).faultAt (c + 2) 0x0302 0 [(2, r.rt), (2, f)])
  match here with
  | none => absent m
  | some x =>
    let m := m.upd (fun b => { b with flits := b.flits.filter (fun y => decide (y ≠ x)) })
    if x.routeId ≠ r.ent.routeId then
      absent (m.upd (fun b => b.faultAt (c + 1) 0x0303 0 [(2, x.routeId)]))
    else if x.void || !r.on then m.upd (fun b => { b with accs := b.accs ++ [idle] })
    else
      let p := parity16 x.data
      let bad := x.poison || decide (p ≠ x.parity)
      let data : Chunk :=
        { bytes := if bad then (List.range 128).map (fun i => Config.freeByte site m.bay.free i) else x.data
          bad := if bad then List.range 16 else [] }
      let m := m.upd (fun b => { b with free := b.free + 1, accs := b.accs ++ [routeAcc c addr (some data) true .none r.body] })
      if decide (p ≠ x.parity) && !x.poison then
        m.upd (fun b => b.faultAt (c + 2) 0x0304 0 [(2, r.rt), (2, f), (1, firstDiff p x.parity)])
      else m

/-- The router at count c (08 R157). -/
def routeFc (site : Nat) (m : BayM) (c : Int) : BayM :=
  let m := m.bay.route.foldl (fun m r =>
    let f := c - r.u - 1
    if f < 0 || decide ((r.ent.nflits : Int) ≤ f) then m
    else
      let f := f.toNat
      if r.send then
        let m := m.upd (fun b => { b with accs := b.accs ++ [routeAcc c (r.base + 128 * f) none r.on (.flit r.rt f) r.body] })
        if r.on then m else m.emit (.flit r.ent f (c + 1) true false (zeroBytes 128))
      else recvFlit site m c r f) m
  let stray := m.bay.flits.filter (fun x => decide (x.at_ < c))
  let m := stray.foldl (fun m x => m.upd (fun b => b.faultAt (x.at_ + 2) 0x0303 0 [(2, x.routeId)])) m
  m.upd (fun b =>
    { b with
      flits := b.flits.filter (fun x => decide (c ≤ x.at_))
      route := b.route.filter (fun r => decide (c < r.u + 1 + (r.ent.nflits : Int))) })

/-- The bay's number, which names its free values. -/
def bayIx (b : BayId) : Nat := 60 * b.y + b.x

/-- The presses that hold something. -/
def listedPresses (b : Bay) : List Nat := b.presses.map (fun e => e.1)

/-- Is a write of the prologue still to be performed (05 R103)? -/
def prologueWrites (b : Bay) : Bool :=
  (b.accs ++ b.carry).any (fun a => a.wr.isSome && a.on && !a.body) ||
  (match b.vat.mover with | some o => !o.body | none => false) || b.racks.any (fun r => !r.body) || b.route.any (fun r => !r.body)
    || b.sops.any (fun r => !r.body) || b.drains.any (fun r => !r.body)

/-- What the presses do at count c after its bundle has issued: rows are captured and compared, and then the cells add, so that a
capture at c reads latches as the additions up to c - 1 left them (03 R47, R48, R62). -/
def endFc (cx : BCtx) (m : BayM) (c : Int) : BayM :=
  wavesFc (tasteFc (drainsFc cx.px cx.py m c none false) c) c

/-- The end of count c - 1: rows and cells, the envelope, and the panels that have run out. -/
def tickTurn (cx : BCtx) (m : BayM) (c : Int) : BayM :=
  let m := endFc cx m (c - 1)
  let ps := listedPresses m.bay
  let m := ps.foldl (envelopePress m.bay.beta (c - 1)) m
  ps.foldl (fun m pr => (List.range 5).foldl (pressQuarterTurn (bayIx cx.id) pr c) m) m

/-- The prologue's writes have all been performed (05 R103): RESIDENT_VALID is set if no fault was raised in it or by them. -/
def residency (m : BayM) : BayM :=
  if m.bay.vat.residentPend && !(prologueWrites m.bay) then
    m.upd (fun b => { b with vat := { b.vat with residentPend := false, residentValid := !b.vat.proFault } })
  else m

/-- More than 2^20 fc since the last PEG (06 R124): raised once. -/
def pegOverdue (m : BayM) (c : Int) : BayM :=
  if m.bay.seq.issuing && !m.bay.seq.overdue && decide (m.bay.seq.lastPeg + 1048577 ≤ c) then
    (m.upd (fun b => { b with seq := { b.seq with overdue := true } })).raise 0x0205 c 0
      [(8, (BitVec.ofInt 64 m.bay.seq.lastPeg).toNat)]
  else m

/-- Everything that happens in the bay at count c before its bundle issues. -/
def tickStart (cx : BCtx) (m : BayM) (c : Int) : BayM :=
  let site := bayIx cx.id
  let m := runDue m c (fun d => d.phase = 0)
  let m := routeFc site (sopFc site (rackFc site (loadsFc (moverFc m c) c) c) c) c
  let m := runDue (vatFc site m c) c (fun _ => true)
  (pegOverdue (residency m) c).upd (fun b => { b with seq := { b.seq with ticked := c } })

/-- The end of count c - 1, and everything that happens in the bay at count c before its bundle issues. -/
def tick (cx : BCtx) (m : BayM) (c : Int) : BayM := tickStart cx (tickTurn cx m c) c

/-- Counts from the last one settled up to u. -/
def settleGo (cx : BCtx) : Nat → BayM → BayM
  | 0, m => m
  | k + 1, m => settleGo cx k (tick cx m (m.bay.seq.ticked + 1))

def settle (cx : BCtx) (m : BayM) (u : Int) : BayM := settleGo cx (u - m.bay.seq.ticked).toNat m

/-- A press at the first count of the prologue or of the body (06 R497). From the prologue into the body its envelope goes on, with the shims
that still run (03 R56). -/
def Press.start (p : Press) (count : Int) (goesOn : Bool) : Press :=
  let q : Press := { Press.init with beta := p.beta, column := p.column }
  if goesOn then
    (List.range 5).foldl (fun (x : Press) g => x.setQuarter g { PQuarter.init with shim := (p.quarter g).shim })
      { q with win := p.win, level := p.level, prevLevel := p.prevLevel }
  else { q with win := Int.fdiv count 16 }

/-- A vat access of the prologue that is still to come at the body's first count: a read no longer reaches a half or the lathe. -/
def Access.intoBody (a : Access) : Access :=
  { a with sink := match a.sink with
      | .half _ _ _ _ _ => .none
      | .vreg _ => .none
      | .tload _ _ => .none
      | x => x }

/-- The state of R497 and R121 at the first count of the prologue or of the body. From the prologue into the body the vat accesses, drains and
panel loads under way keep their occupancy, and the vat writes among them are performed. -/
def Bay.startState (b : Bay) (pc : BitVec 14) (body : Bool) (count : Int) (key : BitVec 128) (goesOn : Bool) : Bay :=
  { b with
    seq := { Seq.init with pc := pc, issuing := true, body := body, bodyEntry := b.seq.bodyEntry, count := count,
                           ticked := count - 1 }
    presses := (List.range 4).foldl (fun s i => Sparse.set Press.init s i ((b.press i).start count goesOn)) ([] : Sparse Press)
    waves := []
    drains := if goesOn then b.drains else []
    taste := none
    loads := if goesOn then b.loads.map (fun r => { r with on := false }) else []
    accs := if goesOn then b.accs.map Access.intoBody else b.accs
    lathe := { Lathe.init with runKey := key }
    vat := { b.vat with mover := none, vflags := 0#4 }
    agenda := if goesOn then b.agenda.filter (fun d => match d.ev with
        | .fault _ _ _ => true
        | .flitIn _ _ _ _ _ _ => true
        | _ => false)
      else [] }

/-- The banks at an invocation's start (05 R102): every bank ACTIVE and in mode PLAIN, and zero where the mask does not keep it. -/
def Vat.fresh (v : Vat) (keep : DWord) : Vat :=
  { v with banks := [], mem := v.mem.filter (fun e => keep.getLsbD (bankOf e.1)), gran := v.gran.filter (fun e => keep.getLsbD (bankOf (8 * e.1))) }

/-- The body's first count after a prologue (06 R112, R497, 05 R102, R103). -/
def Bay.bodyState (b : Bay) : Bay :=
  let b := b.startState b.seq.bodyEntry true 0 b.lathe.runKey true
  { b with vat := { b.vat.fresh b.vat.residentMask with residentPend := !b.vat.proFault } }

/-- The prologue's last count ends and the body's first begins (06 R112, R497). -/
def enterBody (cx : BCtx) (m : BayM) : BayM :=
  tickStart cx ((tickTurn cx (settle cx m (-1)) 0).upd Bay.bodyState) 0

/-- The banks at an invocation's end (05 R102): resident banks go to RETAIN, the others to OFF. -/
def Vat.atEnd (v : Vat) : Vat :=
  { v.fresh v.residentMask with
    banks := (List.range 64).map (fun k => (k, { Bank.init with power := if v.residentMask.getLsbD k then .retain else .off })) }

/-- Nothing is under way in the bay. -/
def Bay.quiet (b : Bay) : Bool :=
  b.accs.isEmpty && b.carry.isEmpty && b.agenda.isEmpty && b.drains.isEmpty && b.racks.isEmpty && b.sops.isEmpty && b.route.isEmpty &&
    b.loads.isEmpty && b.waves.isEmpty && b.taste.isNone && b.vat.mover.isNone
/-- One count of a bay that has issued END while work is under way. -/
def quietTick (cx : BCtx) (m : BayM) : BayM := tick cx m (m.bay.seq.ticked + 1)

/-- The two bytes a bundle address enters the digest as (06 R123). -/
def cfdBytes (pc : BitVec 14) : Bytes := natLe 2 pc.toNat

/-- One slot: a NOP, an invalid slot and none do nothing. -/
def issueSlot (cx : BCtx) (m : BayM) (u : Int) (o : Option Instr) : BayM :=
  match o with
  | some i => bayIssueA cx (bayIssueL cx m u i) u i
  | none => m

/-- The six slots of a bundle, each on the registers as they stand at u (06 R111): every register effect lands after u. -/
def issueSlots (cx : BCtx) (m : BayM) (u : Int) (w : BitVec 256) (pe : Ecc) (beats : List Ecc) : BayM :=
  let b := cx.id
  let opk := fun d => (Sparse.get SillDesc.none m.bay.descs d).opk
  let m := issueSlot cx m u (decodeLathe b (latheSlot w))
  let m := issueSlot cx m u (decodePress b (pressSlot w))
  let m := issueSlot cx m u (decodeMover b (moverSlot w))
  let m := issueSlot cx m u (decodeRack b opk beats (rackSlot w))
  let m := issueSlot cx m u (decodeRoute b (routeSlot w))
  issueSlot cx m u (decodeCtrl b pe (ctrlSlot w))

/-- BUNDLE_ISSUE (06 R109-R111, R116, R123, R128): what is due at the count happens, the bundle at PC issues, and the next
address and count follow. -/
def issueBundle (cx : BCtx) (m : BayM) (ecc : List Ecc) (pe : Ecc) (beats : List Ecc) : BayM :=
  if !m.bay.seq.issuing then m
  else
    let m := if !m.bay.seq.body && decide (m.bay.seq.count = 0) then enterBody cx m else m
    let u := m.bay.seq.count
    let m := settle cx m u
    let pc := m.bay.seq.pc
    let w := Sparse.get 0#256 m.bay.plan pc.toNat
    let m := m.upd (fun b => { b with seq := { b.seq with cfd := crcRun b.seq.cfd (cfdBytes pc) } })
    let ue := (ecc.take 4).count .uncorrectable
    let m := m.upd (fun b => (b.count cntPlanCe ((ecc.take 4).count .corrected)).count cntPlanUe ue)
    let m := if 0 < ue then m.upd (fun b => b.faultAt u 0x0206 0 [(2, pc.toNat)]) else issueSlots cx m u w pe beats
    m.upd (fun b =>
      let n := nextAddr pc.toNat b.seq.stack
      { b with seq := { b.seq with pc := BitVec.ofNat 14 n.1, stack := n.2, count := u + 1 } })

end Sys2Proof.Machine
end

