-- ==== Sys2Proof/Machine/State.lean ====
section
/-! DEFINITION. The state of the module: everything the manual names, as plain data, with the queue of commands; the reasons a
step can stop; the state right after reset. -/

namespace Sys2Proof.Machine
open Sys2Proof

/-- The reasons a step can stop the model. -/
inductive Fault where
  /-- Raised by no meaning: every detected fault of the manual is recorded in State and the machine goes on. Safe. -/
  | unreachable
  deriving DecidableEq, Repr

/-- The reasons a command has no meaning. -/
inductive Refusal where
  /-- Raised by an arm of exec that has no meaning yet. Safe. -/
  | notModelled (mnemonic : String)
  /-- Raised by a command that names a unit the manual says does not exist: a bay off the 60 x 24 grid, a field above 9, a seam
  above 12, a cask above 19, a host port above 3, a tap port above 7, a parcel above 3. Safe. -/
  | noSuchUnit
  deriving DecidableEq, Repr

/-- The module. gwOrder gives the ports of the posted BAR2 writes in the order of their arrival (17 R356); held lists the commands that wait, oldest
first; turn is the model's own: 1 while a write that waited is carried out, 2 while a request that waited is (log entry 49). -/
structure State where
  bays : Sparse Bay
  parcels : Sparse Parcel
  fields : Sparse Field
  seams : Sparse Seam
  hops : List Flight
  casks : Sparse Cask
  gw : Gateway
  raising : Raising
  ports : Sparse Port
  taps : Sparse Tap
  flog : FaultLog
  baySus : Sparse Suspect
  sealU : Seal
  trellis : Trellis
  plate : Plate
  pins : Pins
  prt : Prt
  waits : List Wait
  gwOrder : List Nat
  held : List Held
  turn : Nat
  out : List OutEv
  tNs : Nat
  freeCtr : Nat
  pending : List Instr
  deriving DecidableEq, Repr

/-- The module with its HV input present and HV_EN deasserted: no rail is up and only the module record flash holds anything
(00_scope "What it is not", 13 R268, 16 R329). -/
def State.reset : State :=
  { bays := [], parcels := [], fields := [], seams := [], hops := [], casks := [], gw := { grpCask := [], grpChan := [] }, raising := Raising.init,
    ports := [], taps := [], flog := FaultLog.init, baySus := [], sealU := Seal.init, trellis := Trellis.init, plate := Plate.init,
    pins := Pins.init, prt := Prt.init, waits := [], gwOrder := [], held := [], turn := 0, out := [], tNs := 0, freeCtr := 0, pending := [] }

end Sys2Proof.Machine
end

