-- ==== Sys2Proof/Machine/Operands.lean ====
section
/-! DEFINITION. Naming: which field a bay lies in, which seam joins two fields, which casks a parcel has (01 R12, R13, 11 R242),
how a cask offset maps onto a channel and a channel-local address (09 R177, R178), and the fields of DADDR (17 R362). -/

namespace Sys2Proof.Machine
open Sys2Proof

/-- The field of a logical bay (R12). -/
def fieldOf (b : BayId) : Nat := b.x / 12 + 5 * (b.y / 12)
/-- The bent of a logical bay: row y mod 12 of its field (R12, R152). -/
def bentOf (b : BayId) : Nat := b.y % 12
def bayOfIx (i : Nat) : BayId := { x := i % 60, y := i / 60 }
/-- The logical bays of a field, in ascending 60 y + x. -/
def fieldBays (f : Nat) : List BayId :=
  (List.range 12).flatMap (fun y => (List.range 12).map (fun x => { x := 12 * (f % 5) + x, y := 12 * (f / 5) + y }))

/-- The two fields of a seam (R12). -/
def seamEnds (n : Nat) : Nat × Nat :=
  if n < 4 then (n, n + 1) else if n < 8 then (n + 1, n + 2) else (n - 8, n - 3)
/-- The seams of a field with the neighbour across each (R12). -/
def seamsOf (f : Nat) : List (Nat × Nat) :=
  (List.range 13).filterMap (fun n =>
    let e := seamEnds n
    if e.1 = f then some (n, e.2) else if e.2 = f then some (n, e.1) else none)
/-- The number of a link's reader at its seam: 2 × line, + 1 toward the lower field. -/
def linkReader (l : ScarfLink) : Nat := 2 * l.line + (if l.up then 0 else 1)
/-- The seam between two fields. -/
def seamBetween (f g : Nat) : Option Nat := ((seamsOf f).find? (fun p => p.2 = g)).map (fun p => p.1)

/-- Does a parcel exist? -/
def Parcel.live (p : Parcel) : Bool := decide (p.st ≠ .none)
/-- Does its rectangle hold field f (17 R364)? -/
def Parcel.holds (p : Parcel) (f : Nat) : Bool :=
  p.live && decide (p.c0 ≤ f % 5) && decide (f % 5 < p.c0 + p.w) && decide (p.r0 ≤ f / 5) && decide (f / 5 < p.r0 + p.h)
/-- The fields of a rectangle, row by row. -/
def rectFields (c0 r0 w h : Nat) : List Nat :=
  (List.range h).flatMap (fun r => (List.range w).map (fun c => c0 + c + 5 * (r0 + r)))
def Parcel.fields (p : Parcel) : List Nat := rectFields p.c0 p.r0 p.w p.h
/-- The seams inside a rectangle. -/
def Parcel.seams (p : Parcel) : List Nat :=
  (List.range 13).filter (fun n => p.holds (seamEnds n).1 && p.holds (seamEnds n).2)
/-- The parcel's bays, in ascending 60 y + x. -/
def Parcel.bays (p : Parcel) : List BayId :=
  (List.range (12 * p.h)).flatMap (fun y =>
    (List.range (12 * p.w)).map (fun x => { x := 12 * p.c0 + x, y := 12 * p.r0 + y }))
/-- The parcel's first bay (17 R364). -/
def Parcel.firstBay (p : Parcel) : BayId := { x := 12 * p.c0, y := 12 * p.r0 }
/-- Bay at coordinates relative to the parcel's first bay. -/
def Parcel.bayAt (p : Parcel) (x y : Nat) : BayId := { x := 12 * p.c0 + x, y := 12 * p.r0 + y }
/-- SHAPE (11 R239). -/
def Parcel.shape (p : Parcel) : Nat := p.w + 16 * p.h

/-- The relative cask number of an absolute one (11 R242). -/
def Parcel.relCask (p : Parcel) (c : Nat) : Nat := 2 * ((c / 2 % 5 - p.c0) + p.w * (c / 2 / 5 - p.r0)) + c % 2
/-- The absolute cask of a relative number (R242), when the parcel has it. -/
def Parcel.absCask (p : Parcel) (r : Nat) : Option Nat :=
  if r < 2 * p.w * p.h then some (2 * (p.c0 + r / 2 % p.w + 5 * (p.r0 + r / 2 / p.w)) + r % 2) else none
/-- The parcel's casks in ascending relative number. -/
def Parcel.casks (p : Parcel) : List Nat := (List.range (2 * p.w * p.h)).filterMap p.absCask

/-- 3 GiB: the channel-local addresses of one channel (09 R173). -/
def chanSpan : Nat := 0xC0000000
/-- The channel and the channel-local address of a region's offset (R178). -/
def Region.place (r : Region) (off : Nat) : Nat × Nat :=
  let o := off - r.base
  match r.kind with
  | .interleaved => (o / 256 % 32, r.lb + o / 8192 * 256 + o % 256)
  | .channelLocal => (r.chan, r.lb + o)
  | .replicated => (if r.size = 0 then 0 else o / r.size, r.lb + (if r.size = 0 then 0 else o % r.size))
/-- The cask's own address of an offset: channel × 3 GiB + channel-local address. -/
def Region.phys (r : Region) (off : Nat) : Nat := let p := r.place off; p.1 * chanSpan + p.2

/-- RCASK and OFF of DADDR (17 R362). -/
def daddrCask (d : Nat) : Nat := bitsOf d 37 5
def daddrOff (d : Nat) : Nat := bitsOf d 0 37

/-- TAP of a message: port and sub-link, none when TAP[7:5] is not 0 (19 R403). -/
def tapOf (t : BitVec 8) : Option (Nat × Nat) :=
  if t.toNat / 32 = 0 then some (t.toNat % 8, t.toNat / 8 % 4) else none
/-- Sub-links of a mode (R403). -/
def subLinks (mode : Nat) : Nat := match mode with
  | 1 => 1
  | 2 => 2
  | 3 => 4
  | _ => 0

/-- An IPv4-mapped IPv6 address. -/
def mapped4 (a : BitVec 32) : BitVec 128 := BitVec.ofNat 128 (0xFFFF * 2 ^ 32 + a.toNat)
def isMapped4 (a : BitVec 128) : Bool := decide (a.toNat / 2 ^ 32 = 0xFFFF)

end Sys2Proof.Machine
end

