-- ==== Sys2Proof/Machine/Ops.lean ====
section
/-! DEFINITION. The named operations over State: reading and writing its parts, counters, vectors and events (17 R360, R361),
the fault log and the reporting of a fault (15 R307, R310, R321, R324, R325). -/

namespace Sys2Proof.Machine
open Sys2Proof

def State.bay (s : State) (b : BayId) : Bay := Sparse.get Bay.init s.bays (bayIx b)
def State.setBay (s : State) (b : BayId) (x : Bay) : State := { s with bays := Sparse.set Bay.init s.bays (bayIx b) x }
def State.modBay (s : State) (b : BayId) (f : Bay → Bay) : State := s.setBay b (f (s.bay b))
def State.field (s : State) (f : Nat) : Field := Sparse.get Field.init s.fields f
def State.setField (s : State) (f : Nat) (x : Field) : State := { s with fields := Sparse.set Field.init s.fields f x }
def State.modField (s : State) (f : Nat) (g : Field → Field) : State := s.setField f (g (s.field f))
def State.seam (s : State) (n : Nat) : Seam := Sparse.get Seam.init s.seams n
def State.setSeam (s : State) (n : Nat) (x : Seam) : State := { s with seams := Sparse.set Seam.init s.seams n x }
def State.modSeam (s : State) (n : Nat) (g : Seam → Seam) : State := s.setSeam n (g (s.seam n))
def State.cask (s : State) (c : Nat) : Cask := Sparse.get Cask.init s.casks c
def State.setCask (s : State) (c : Nat) (x : Cask) : State := { s with casks := Sparse.set Cask.init s.casks c x }
def State.modCask (s : State) (c : Nat) (g : Cask → Cask) : State := s.setCask c (g (s.cask c))
def State.parcel (s : State) (p : Nat) : Parcel := Sparse.get Parcel.init s.parcels p
def State.setParcel (s : State) (p : Nat) (x : Parcel) : State := { s with parcels := Sparse.set Parcel.init s.parcels p x }
def State.modParcel (s : State) (p : Nat) (g : Parcel → Parcel) : State := s.setParcel p (g (s.parcel p))
def State.port (s : State) (p : Nat) : Port := Sparse.get Port.init s.ports p
def State.setPort (s : State) (p : Nat) (x : Port) : State := { s with ports := Sparse.set Port.init s.ports p x }
def State.modPort (s : State) (p : Nat) (g : Port → Port) : State := s.setPort p (g (s.port p))
def State.tap (s : State) (t : Nat) : Tap := Sparse.get Tap.init s.taps t
def State.setTap (s : State) (t : Nat) (x : Tap) : State := { s with taps := Sparse.set Tap.init s.taps t x }
def State.modTap (s : State) (t : Nat) (g : Tap → Tap) : State := s.setTap t (g (s.tap t))
def State.emit (s : State) (o : OutEv) : State := { s with out := s.out ++ [o] }
/-- What a port sends waits while it is in D3hot (17 R351). -/
def State.emitPort (s : State) (p : Nat) (o : OutEv) : State :=
  if (s.port p).d3hot then s.modPort p (fun q => { q with held := q.held ++ [o] }) else s.emit o
/-- Take a free value: the counter that names it advances. -/
def State.fresh (s : State) : Nat × State := (Config.freeNat s.freeCtr, { s with freeCtr := s.freeCtr + 1 })

/-- Change the invocation of a parcel, if it has one. -/
def Parcel.modInv (p : Parcel) (f : Inv → Inv) : Parcel := { p with inv := p.inv.map f }
def State.modInv (s : State) (p : Nat) (f : Inv → Inv) : State := s.modParcel p (fun x => x.modInv f)
/-- The parcel that holds a field, and the one that holds a cask. -/
def State.parcelOfField (s : State) (f : Nat) : Option Nat := (List.range 4).find? (fun p => (s.parcel p).holds f)
def State.parcelOfCask (s : State) (c : Nat) : Option Nat := s.parcelOfField (c / 2)
def State.parcelOfBay (s : State) (b : BayId) : Option Nat := s.parcelOfField (fieldOf b)
/-- Is an invocation of the parcel running? -/
def Parcel.running (p : Parcel) : Bool := match p.inv with
  | some i => i.started
  | none => false
/-- Is one running or waiting to start? -/
def Parcel.busy (p : Parcel) : Bool := p.inv.isSome

/-- Add k to counter i of a set of event counters (00_scope R9). -/
def bump (m : Sparse EvCnt) (i k : Nat) : Sparse EvCnt := Sparse.modify EvCnt.init m i (fun c => c.add k)
/-- COUNT with SAT in bit 63, as messages carry it (18 R382). -/
def EvCnt.word (c : EvCnt) : Nat := c.n + (if c.sat then 2 ^ 63 else 0)
def State.caskCount (s : State) (c i k : Nat) : State := s.modCask c (fun x => { x with cnt := bump x.cnt i k })

/- Counters of a cask in the order of R201 and R222. -/
def ckBeatCe : Nat := 0
def ckBeatUe : Nat := 1
def ckSymCe : Nat := 2
def ckSymUe : Nat := 3
def ckStaveCe (i : Nat) : Nat := 4 + i
def ckScrubFixed : Nat := 21
def ckForced : Nat := 22
def ckLate : Nat := 23
def ckSpared : Nat := 24
def ckRefused : Nat := 25
def ckSopDone : Nat := 26
def ckSopVoid : Nat := 27
def ckSopPoison : Nat := 28

/-- Send an MSI-X vector (17 R360): pending while masked, while the link is down or before RAISE_DONE enables the vectors (16 R345), held
while the port is in D3hot (R351). -/
def State.vector (s : State) (p v : Nat) : State :=
  let q := s.port p
  if !s.raising.done || !q.linkUp || q.mask.getLsbD v then s.modPort p (fun q => { q with pba := q.pba ||| BitVec.ofNat 96 (2 ^ v) })
  else s.emitPort p (.msix p v)

/-- Pending vectors that nothing holds back any longer are sent. -/
def State.flushVectors (s : State) (p : Nat) : State :=
  if !s.raising.done || !(s.port p).linkUp || (s.port p).d3hot then s
  else (List.range 96).foldl (fun s v =>
    let q := s.port p
    if q.pba.getLsbD v && !q.mask.getLsbD v then (s.modPort p (fun q => { q with pba := q.pba &&& ~~~(BitVec.ofNat 96 (2 ^ v)) })).emit (.msix p v)
    else s) s

/-- Event cause k of a port (17 R361). -/
def State.event (s : State) (p k : Nat) : State :=
  let q := s.port p
  if q.evtPend.getLsbD k then s
  else
    let s := s.modPort p (fun q => { q with evtPend := q.evtPend ||| BitVec.ofNat 16 (2 ^ k) })
    if q.evtEn.getLsbD k then s.vector p (64 + k) else s
def State.eventAll (s : State) (k : Nat) : State := (List.range 4).foldl (fun s p => s.event p k) s
/-- A cause on the owner port of a parcel. -/
def State.eventOwner (s : State) (p k : Nat) : State := s.event (s.parcel p).owner k

/-- TEL_PARCEL STATE changes (17 R361, cause 0x2). -/
def State.setPState (s : State) (p : Nat) (st : PState) : State :=
  if (s.parcel p).st = st then s
  else (s.modParcel p (fun x => { x with st := st })).eventOwner p 2

/-- PEGNO of the parcel's last peg, from the pegs its checker has counted (08 R168). -/
def Image.prologuePegs (i : Image) : Nat := (i.pruns.map (fun r => r.repeat_)).foldl (· + ·) 0
def pegnoOf (img : Option Image) (i : Inv) : Nat :=
  let np := match img with
    | some m => if i.prologueRan then m.prologuePegs else 0
    | none => 0
  if i.checked ≤ np then i.checked else i.checked - np
def Parcel.pegno (p : Parcel) : Nat := match p.inv with
  | some i => pegnoOf p.image i
  | none => 0

/-- A fault or an event on its way to the log. -/
structure Report where
  code : Nat
  parcel : Option Nat := none
  count : Nat := 0
  unit : Nat := 0x0B
  x : Nat := 0
  y : Nat := 0
  idx : Nat := 0
  detail : List (Nat × Nat) := []
  injected : Bool := false
  masked : Bool := false
  action : Nat := 0
  suspectFrom : Nat := 0
  cask : Option Nat := none
  stave : Option Nat := none
  deriving DecidableEq, Repr

/-- Is a code of class U or D in the table of R307? -/
def isDetected (code : Nat) : Bool :=
  decide (0x0101 ≤ code ∧ code ≤ 0x0209) || decide (0x0301 ≤ code ∧ code ≤ 0x0308) ||
    decide (0x0401 ≤ code ∧ code ≤ 0x0408) || decide (code = 0x0501) || decide (code = 0x0503)
/-- Class D (R307). -/
def isClassD (code : Nat) : Bool := decide (code = 0x0104) || decide (code = 0x0403) || decide (code = 0x0405) || decide (code = 0x0407)

/-- Put an entry into the ring of 65,536; the oldest goes and LOST counts it (R324). -/
def FaultLog.push (l : FaultLog) (e : LogEnt) : FaultLog :=
  if l.ring.length < 65536 then { l with ring := l.ring ++ [e], next := l.next + 1 }
  else { l with ring := l.ring.drop 1 ++ [e], next := l.next + 1, lost := l.lost.add 1 }

/-- One record per distinct code and unit, counted by the summary (R324). -/
def sumAdd (e : LogEnt) : List SumRec → List SumRec
  | [] => [{ code := e.code, unit := e.unit, x := e.x, y := e.y, idx := e.idx, count := 1, first := e.wall, last := e.wall }]
  | r :: rs =>
    if r.code = e.code ∧ r.unit = e.unit ∧ r.x = e.x ∧ r.y = e.y ∧ r.idx = e.idx then
      { r with count := r.count + 1, last := e.wall } :: rs
    else r :: sumAdd e rs

/-- Firmware writes the summary: every entry of the ring not yet summarised is counted and marked (R324, R325). -/
def FaultLog.writeSummary (l : FaultLog) (now : Nat) : FaultLog :=
  let fresh := l.ring.filter (fun e => bitsOf e.eflag 3 1 == 0)
  { l with recs := fresh.foldl (fun rs e => sumAdd e rs) l.recs
           ring := l.ring.map (fun e => if bitsOf e.eflag 3 1 == 0 then { e with eflag := e.eflag + 8 } else e)
           lastWrite := some now }

/-- EFLAG of an entry (R325). -/
def eflagOf (injected secondary masked : Bool) : Nat :=
  (if injected then 1 else 0) + (if secondary then 2 else 0) + (if masked then 4 else 0)

/-- Make the entry of a report, and set cause 0x0 on the ports that see it (R324, R325, 17 R361). -/
def State.logEntry (s : State) (r : Report) (secondary : Bool) : State :=
  let e : LogEnt :=
    { seq := s.flog.next, wall := s.plate.wall.toNat, count := r.count, pegno := (r.parcel.map (fun p => (s.parcel p).pegno)).getD 0
      code := r.code, parcel := r.parcel.getD 0xFF, eflag := eflagOf r.injected secondary r.masked, unit := r.unit, x := r.x, y := r.y
      idx := r.idx, action := r.action, suspectFrom := r.suspectFrom, detail := r.detail }
  let s := { s with flog := s.flog.push e }
  match r.parcel with
  | some p => s.eventOwner p 0
  | none => s.eventAll 0

/-- The record of a first fault (R310). -/
def faultRec (s : State) (p : Nat) (r : Report) : FaultRec :=
  { code := r.code, unit := r.unit, x := r.x, y := r.y, idx := r.idx, peg := (s.parcel p).pegno, seq := s.flog.next, cask := r.cask
    stave := r.stave, injected := r.injected }

/-- Report a fault or an event: a detected fault of a running parcel fails its run, the first one is kept and later ones are
SECONDARY (R310); every report makes one entry (R324). -/
def State.report (s : State) (r : Report) : State :=
  match r.parcel with
  | some p =>
    match (s.parcel p).inv with
    | some i =>
      if isDetected r.code && i.started then
        match i.fault with
        | some _ => s.logEntry r true
        | none => (s.logEntry r false).modInv p (fun i => { i with fault := some (faultRec s p r) })
      else s.logEntry r false
    | none => s.logEntry r false
  | none => s.logEntry r false
/-- The list of a request whose port has been reset ends with E_CUT_DMA in the fault log (17 R368). -/
def State.cutDies (s : State) (p : Nat) : State := s.report { code := 0x0E05, parcel := some p }

/-- ALERT_N: asserted while THERMAL_WARN or TRELLIS_FAILED stands (23 R483). -/
def State.setAlert (s : State) (v : Bool) : State := { s with pins := { s.pins with alert := v } }

/-- An event of the trellis (14 R304): TRL_EVT, cause 0x1 on every port, and a log entry with code 0x0700 + code. -/
def State.trellisEvent (s : State) (k : Nat) (p : Option Nat) (detail : List (Nat × Nat)) : State :=
  let s := { s with trellis := { s.trellis with evt := s.trellis.evt ||| BitVec.ofNat 9 (2 ^ (k - 1)) } }
  (s.eventAll 1).report { code := 0x0700 + k, parcel := p, unit := 0x09, detail := detail }

/-- An event of the power path (13 R280): a log entry with code 0x0600 + code; a unit that the table masks is MASKED. -/
def State.powerEvent (s : State) (k unit x y idx : Nat) (p : Option Nat) (masked : Bool) : State :=
  s.report { code := 0x0600 + k, parcel := p, unit := unit, x := x, y := y, idx := idx, masked := masked }

/-- Change the escalation state and write it to the flash at once (15 R324). -/
def State.modEsc (s : State) (f : Esc → Esc) : State :=
  { s with flog := ({ s.flog with esc := f s.flog.esc }).writeSummary s.plate.wall.toNat }

/-- Is REF_LOSS standing (12 R248)? -/
def State.refLoss (s : State) : Bool := s.plate.ref25Lost || s.plate.holdover
/-- Is INPUT_LOSS standing (13 R267)? -/
def State.inputLost (s : State) : Bool := s.plate.inputLoss.isSome

/-- A bent of a field. -/
def State.bent (s : State) (f b : Nat) : Bent := Sparse.get Bent.init (s.field f).bents b
/-- The physical position of a logical column (08 R158). -/
def Bent.phys (b : Bent) (x : Nat) : Nat := if x < b.spare then x else x + 1

end Sys2Proof.Machine
end

