-- ==== Sys2Proof/Machine/Cellar.lean ====
section
/-! DEFINITION. The casks: the bytes a read finds at an access count, writes on their way, the vintage journal, the gateway's
writes and reads, digests and awaits (09 R176-R201, 11 R228, R230, R235). -/

namespace Sys2Proof.Machine
open Sys2Proof

/-- The order of writes (09 R183): access count, then the bay's index, then issue order within the bay. -/
def CaskWrite.before (a b : CaskWrite) : Bool :=
  decide (a.at_ < b.at_) || (decide (a.at_ = b.at_) &&
    (decide (a.bayIx < b.bayIx) || (decide (a.bayIx = b.bayIx) && decide (a.seq ≤ b.seq))))

/-- The last write to a piece among those whose access count is at most a (R183); none bounds nothing. -/
def latestWrite (a : Option Int) (phys : Nat) (ws : List CaskWrite) : Option CaskWrite :=
  ws.foldl (fun best w =>
    if w.off = phys && (match a with
      | some x => decide (w.at_ ≤ x)
      | none => true) then
      match best with
      | some v => if v.before w then some w else some v
      | none => some w
    else best) none

/-- The 64 bytes of a piece and its poison marker, as a read at access count a finds them. -/
def Cask.piece (c : Cask) (a : Option Int) (phys : Nat) : Bytes × Bool :=
  match latestWrite a phys c.writes with
  | some w => (w.bytes, w.poison)
  | none => (c.mem.readBytes phys 64, Sparse.get false c.poison phys)

/-- Store a whole piece. -/
def Cask.store (c : Cask) (phys : Nat) (bytes : Bytes) (poison : Bool) : Cask :=
  { c with mem := c.mem.writeBytes phys bytes, poison := Sparse.set false c.poison phys poison }

/-- Copy a piece's old contents into the journal the first time it is written after the base vintage (11 R228). -/
def Cask.journalPiece (c : Cask) (phys : Nat) : Cask :=
  if c.journal.any (fun e => e.1 = phys) then c
  else { c with journal := c.journal ++ [(phys, c.mem.readBytes phys 64, Sparse.get false c.poison phys)] }

/-- Insert a write in the order of R183. -/
def insertWrite (w : CaskWrite) : List CaskWrite → List CaskWrite
  | [] => [w]
  | x :: r => if x.before w then x :: insertWrite w r else w :: x :: r

/-- Perform the writes whose access count lies before upto (none: all of them), in order. -/
def Cask.commit (c : Cask) (upto : Option Int) : Cask :=
  let due := fun (w : CaskWrite) => match upto with
    | some x => decide (w.at_ < x)
    | none => true
  let ws := c.writes.filter due
  ws.foldl (fun c w => (c.journalPiece w.off).store w.off w.bytes w.poison) { c with writes := c.writes.filter (fun w => !due w) }

/-- Replay the journal, newest entry first (R228): every journaled piece takes its old contents back. -/
def Cask.rewind (c : Cask) : Cask :=
  c.journal.reverse.foldl (fun c e => c.store e.1 e.2.1 e.2.2) { c with journal := [], writes := [] }

/-- The region that holds an offset. -/
def Cask.region (c : Cask) (off : Nat) : Option Region := regionAt c.regions off

/-- Uses open to a gateway write and to a gateway read (09 R179). -/
def gwWrites : RegionUse → Bool
  | .weight => true
  | .landing => true
  | _ => false
def gwReads : RegionUse → Bool
  | .vintage => false
  | _ => true

/-- Replace a region of a table by its base. -/
def setRegion (rs : List Region) (r : Region) : List Region := rs.map (fun x => if x.base = r.base then r else x)

/-- Clear RESIDENT_VALID in every bay of a parcel (05 R103). -/
def State.clearResident (s : State) (p : Nat) : State :=
  (s.parcel p).bays.foldl (fun s b =>
    if (s.bay b).vat.residentValid || (s.bay b).vat.residentPend then
      s.modBay b (fun x => { x with vat := { x.vat with residentValid := false, residentPend := false } })
    else s) s

/-- The digest of a region is invalidated: a close in progress becomes void, and the prologue's residency with it when the
region is one of its sources (09 R197, 05 R103). -/
def State.touchRegion (s : State) (c : Nat) (r : Region) : State :=
  if r.digestValid || r.closing then
    let s := s.modCask c (fun x => { x with regions := setRegion x.regions { r with digestValid := false, written := r.closing || r.written } })
    match s.parcelOfCask c with
    | some p =>
      let q := s.parcel p
      let src := (q.image.map (fun i => i.sources)).getD []
      let held := s.modParcel p (fun x => x.modInv (fun i => { i with digestsHeld := false }))
      if r.digestValid && src.contains (q.relCask c, r.base) then held.clearResident p else held
    | none => s
  else s

/-- Does a set of ranges cover the bytes from lo to hi? The fuel is one step for each range and one more. -/
def coversGo (got : List (Nat × Nat)) (hi : Nat) : Nat → Nat → Bool
  | 0, lo => decide (hi ≤ lo)
  | k + 1, lo =>
    if hi ≤ lo then true
    else match got.find? (fun g => decide (g.1 ≤ lo) && decide (lo < g.1 + g.2)) with
      | some g => coversGo got hi k (g.1 + g.2)
      | none => false
def covers (got : List (Nat × Nat)) (lo hi : Nat) : Bool := coversGo got hi (got.length + 1) lo

/-- Bytes of an await's range have landed: once all have, its flag and its write-lock are set (11 R230, R235, 19 R415). -/
def Await.land (a : Await) (rcask off len : Nat) : Await :=
  if a.rcask = rcask && !a.landed && decide (off < a.off + a.len) && decide (a.off < off + len) then
    let got := a.got ++ [(off, len)]
    let done := covers got a.off (a.off + a.len)
    { a with got := got, landed := done, locked := done }
  else a
def State.landed (s : State) (c off len : Nat) : State :=
  match s.parcelOfCask c with
  | some p => s.modParcel p (fun q => { q with awaits := q.awaits.map (fun a => a.land (q.relCask c) off len) })
  | none => s

/-- Is a range of a cask write-locked (R235)? -/
def State.writeLocked (s : State) (c off len : Nat) : Bool :=
  match s.parcelOfCask c with
  | some p =>
    let q := s.parcel p
    q.awaits.any (fun a => decide (a.rcask = q.relCask c) && a.locked && decide (off < a.off + a.len) && decide (a.off < off + len))
  | none => false

/-- The pieces of a range: offset of each, and the bytes of the range that fall into it. -/
def pieceOffs (off len : Nat) : List Nat := (List.range ((off % 64 + len + 63) / 64)).map (fun i => off / 64 * 64 + 64 * i)

/-- Merge the bytes of a range into one piece (17 R355: a partial write is a read-modify-write of the piece). -/
def mergePiece (old : Bytes) (po off : Nat) (data : Bytes) : Bytes :=
  (List.range 64).map (fun i =>
    if off ≤ po + i ∧ po + i < off + data.length then data.getD (po + i - off) 0#8 else old.getD i 0#8)

/-- Write bytes at a region's offset. A piece that is written only in part keeps its marker. -/
def Cask.putBytes (c : Cask) (r : Region) (off : Nat) (data : Bytes) : Cask :=
  (pieceOffs off data.length).foldl (fun c po =>
    let ph := r.phys po
    let old := c.piece none ph
    let whole := decide (off ≤ po) && decide (po + 64 ≤ off + data.length)
    c.store ph (mergePiece old.1 po off data) (if whole then false else old.2)) c

/-- The bytes of a range of a region, and whether any piece of it carries the marker. -/
def Cask.getBytes (c : Cask) (r : Region) (off len : Nat) : Bytes × Bool :=
  let ps := (pieceOffs off len).map (fun po => c.piece none (r.phys po))
  (((ps.flatMap (fun p => p.1)).drop (off % 64)).take len, ps.any (fun p => p.2))

/-- GATEWAY_REFUSED (09 R195). -/
def State.gwRefused (s : State) (c : Nat) : State := s.caskCount c ckRefused 1

/-- A gateway read (17 R355): none when the range lies in no region open to it. -/
def State.gwRead (s : State) (c off len : Nat) : Option (Bytes × Bool) :=
  match (s.cask c).region off with
  | some r => if r.holds off len && gwReads r.use_ then some ((s.cask c).getBytes r off len) else none
  | none => none

/-- The sill marks a piece as poisoned (09 R176). -/
def Cask.mark (c : Cask) (phys : Nat) : Cask := { c with poison := Sparse.set false c.poison phys true }

/-- What the sill's check finds in the beats of a written piece (09 R175, R176, R200, R201): the counts, and CELLAR_WRITE_UE for an uncorrectable
beat. -/
def State.beatsMet (s : State) (c off count : Nat) (beats : List Ecc) : State :=
  let ue := beats.count .uncorrectable
  let s := (s.caskCount c ckBeatCe (beats.count .corrected)).caskCount c ckBeatUe ue
  if ue = 0 then s
  else
    let ch := (((s.cask c).region off).map (fun r => (r.place off).1)).getD 0
    s.report { code := 0x0402, parcel := s.parcelOfCask c, count := count, unit := 0x05, idx := c, cask := some c
               detail := [(1, c), (1, ch), (8, off)] }
def beatsBad (beats : List Ecc) : Bool := beats.contains .uncorrectable
/-- The same for a gateway write, piece by piece: a piece with an uncorrectable beat is stored poisoned. -/
def State.gwBeats (s : State) (c : Nat) (r : Region) (off len : Nat) (beats : List Ecc) : State :=
  (enumFrom 0 (pieceOffs off len)).foldl (fun s e =>
    let bs := (beats.drop (8 * e.1)).take 8
    let s := if bs.all (fun x => decide (x = .ok)) then s else s.beatsMet c e.2 0 bs
    if beatsBad bs then s.modCask c (fun x => x.mark (r.phys e.2)) else s) s

/-- A gateway write for a host or a tap (09 R195, 11 R235, 17 R355). None: not performed, and GATEWAY_REFUSED counts it. -/
def State.gwWrite (s : State) (c off : Nat) (data : Bytes) (landNow : Bool) (beats : List Ecc) : Option State :=
  match (s.cask c).region off with
  | some r =>
    if r.holds off data.length && gwWrites r.use_ && !s.writeLocked c off data.length then
      let s := ((s.touchRegion c r).modCask c (fun x => x.putBytes r off data)).gwBeats c r off data.length beats
      some (if landNow then s.landed c off data.length else s)
    else none
  | none => none

/-- Every byte of a region in offset order, and whether any piece is poisoned. -/
def Cask.regionBytes (c : Cask) (r : Region) : Bytes × Bool := c.getBytes r r.base r.extent

/-- A write by firmware: the restore of a vintage and the writing of Pour tables (09 R195, 20 R428). -/
def State.fwWrite (s : State) (c off : Nat) (data : Bytes) : State :=
  match (s.cask c).region off with
  | some r => s.modCask c (fun x => x.putBytes r off data)
  | none => s

/-- Can a copy of a stave onto the reserve begin (09 R198)? -/
def Cask.canCopy (k : Cask) (st : Nat) : Bool := k.copying.isNone && (match k.reserve with
  | some r => decide (r ≠ st)
  | none => false)
/-- A stave becomes failing (09 R198): it is copied onto the reserve while one is free; otherwise CASK_DEGRADED, once. A stave that is
failing already is copied as soon as a reserve is free. -/
def State.staveFails (s : State) (c st : Nat) : State :=
  let k := s.cask c
  let old := k.failing.contains st
  let s := if old then s
    else (s.modCask c (fun x => { x with failing := x.failing ++ [st] })).modEsc (fun e => { e with staves := e.staves ++ [(c, st)] })
  if k.canCopy st then s.modCask c (fun x => { x with copying := some st })
  else if old then s
  else s.report { code := 0x0409, parcel := s.parcelOfCask c, unit := 0x05, idx := c, stave := some st }

/-- The copy ends: the reserve replaces the failing stave (R198). -/
def State.staveSpared (s : State) (c : Nat) : State :=
  let k := s.cask c
  match k.copying with
  | some st =>
    let s := s.modCask c (fun x => { x with copying := none, reserve := none, failing := x.failing.filter (fun y => y ≠ st) })
    s.caskCount c ckSpared 1
  | none => s

/-- One corrected symbol of a stave; past 1,024 within one hour the stave fails (R198). -/
def State.symbolCorrected (s : State) (c st : Nat) : State :=
  let s := (s.caskCount c ckSymCe 1).caskCount c (ckStaveCe st) 1
  let s := s.modCask c (fun x => { x with symTimes := (x.symTimes ++ [(st, s.tNs)]).filter (fun e => decide (s.tNs < e.2 + 3600000000000)) })
  if 1024 < ((s.cask c).symTimes.filter (fun e => e.1 = st)).length then s.staveFails c st else s

/-- CELLAR_UNCORRECTABLE (09 R176, R200). -/
def State.cellarUe (s : State) (b : BayId) (c off : Nat) (count : Nat) (stave : Option Nat) (injected : Bool) : State :=
  let ch := ((s.cask c).region off).map (fun r => (r.place off).1)
  s.report { code := 0x0401, parcel := s.parcelOfBay b, count := count, unit := if stave.isSome then 0x06 else 0x05,
             x := b.x, y := b.y, idx := c, detail := [(1, b.x), (1, b.y), (1, c), (1, ch.getD 0), (8, off), (1, stave.getD 0xFF)],
             cask := some c, stave := stave, injected := injected }

/-- What a finding adds to the cask's counters (09 R175, R198, R201). -/
def State.findingCounts (s : State) (c : Nat) (err : PieceErr) : State :=
  match err with
  | .ok => s
  | .beatCorrected => s.caskCount c ckBeatCe 1
  | .beatUncorrectable => s.caskCount c ckBeatUe 1
  | .symbolCorrected st => s.symbolCorrected c st
  | .uncorrectable none => s.caskCount c ckSymUe 1
  | .uncorrectable (some st) => (s.caskCount c ckSymUe 1).staveFails c st
  | .late => s.caskCount c ckLate 1

/-- The stave that a finding names. -/
def errStave : PieceErr → Option Nat
  | .uncorrectable st => st
  | _ => none

/-- Does an injected error meet an access to a channel (15 R328)? -/
def Cask.injectHit (k : Cask) (ch : Nat) : Option PieceErr := match k.inject with
  | some (none, e) => some e
  | some (some n, e) => if n = ch then some e else none
  | none => none

end Sys2Proof.Machine
end

