-- ==== Sys2Proof/Machine/SillOps.lean ====
section
/-! DEFINITION. What a sill operation computes (10 R204-R221): the operand block, the blocks it reaches, the results, the flags
and the faults. -/

namespace Sys2Proof.Machine
open Sys2Proof

/-- An operation under way: the cask as it stands at 9 k0, the pieces it has written and whether it reads them again (own), its flags, whether a
poisoned piece has been read and where (offset, stave, whether an injection), what its reads meet (found) and have met (errs), blocks treated as
VOID, faults as code, list position or offset. site and epoch name the open bytes. -/
structure SopM where
  cask : Cask
  k0 : Int
  site : Nat
  epoch : Nat
  pieces : List (Nat × Bytes × Bool)
  own : Bool
  fl : BitVec 9
  poison : Bool
  poisonAt : Option (Nat × Option Nat × Bool)
  found : List (Nat × PieceErr)
  errs : List PieceErr
  voids : Nat
  faults : List (Nat × Nat)
  deriving DecidableEq, Repr

/-- Open bytes (log entry 12): the value of a row that no page holds, and of the bytes that pad a result. -/
def SopM.openBytes (m : SopM) (n : Nat) : Bytes × SopM :=
  ((List.range n).map (fun i => Config.freeByte m.site m.epoch i), { m with epoch := m.epoch + 1 })

/-- A piece as the operation sees it: the cask at 9 k0 (R210). SCATTER_ADD adds to what it has written itself (R213). -/
def SopM.piece (m : SopM) (phys : Nat) : Bytes × Bool :=
  match m.own, m.pieces.find? (fun p => p.1 = phys) with
  | true, some p => p.2
  | _, _ => m.cask.piece (some (9 * m.k0)) phys

/-- What the read of a piece meets: a finding of the code, or an injected error (15 R328), which only one access meets. -/
def SopM.met (m : SopM) (r : Region) (po : Nat) : Option PieceErr × Bool :=
  match m.cask.injectHit (r.place po).1 with
  | some e => (some e, true)
  | none => ((m.found.find? (fun e => e.1 = po)).map (fun e => e.2), false)
/-- One piece of a read (R219): its bytes; an uncorrectable piece and a stored marker poison what the operation writes after it. -/
def SopM.readPiece (m : SopM) (r : Region) (po : Nat) : Bytes × SopM :=
  let p := m.piece (r.phys po)
  let e := m.met r po
  let m := { m with errs := m.errs ++ e.1.toList, cask := if e.2 then { m.cask with inject := none } else m.cask }
  let bad := p.2 || (match e.1 with
    | some x => pieceBad x
    | none => false)
  (p.1, if bad then { m with poison := true, poisonAt := some (m.poisonAt.getD (po, (e.1.map errStave).getD none, e.2)) } else m)
def SopM.readPieces (r : Region) : List Nat → SopM → Bytes × SopM
  | [], m => ([], m)
  | po :: rest, m =>
    let x := m.readPiece r po
    let y := SopM.readPieces r rest x.2
    (x.1 ++ y.1, y.2)

/-- Read n bytes of a region. -/
def SopM.read (m : SopM) (r : Region) (off n : Nat) : Bytes × SopM :=
  let x := SopM.readPieces r (pieceOffs off n) m
  ((x.1.drop (off % 64)).take n, x.2)

/-- Write bytes into a region; after a poisoned read every output carries the marker (R219). -/
def SopM.write (m : SopM) (r : Region) (off : Nat) (data : Bytes) : SopM :=
  { m with pieces := (pieceOffs off data.length).foldl (fun l po =>
      let ph := r.phys po
      let old := match l.find? (fun p => p.1 = ph) with
        | some p => p.2
        | none => m.cask.piece (some (9 * m.k0)) ph
      let whole := decide (off ≤ po) && decide (po + 64 ≤ off + data.length)
      (l.filter (fun p => decide (p.1 ≠ ph))) ++ [(ph, mergePiece old.1 po off data, m.poison || (!whole && old.2))]) m.pieces }

/-- A data-chosen block (R212): its offset, or none when it is VOID; one that its region cannot hold is VOID and SILL_ADDRESS. -/
def SopM.block (m : SopM) (base rb idx pos : Nat) : Option (Region × Nat) × SopM :=
  if idx = 0xFFFFFFFF then (none, { m with voids := m.voids + 1 })
  else
    let off := base + idx * rb
    match m.cask.region base with
    | some r =>
      if r.holds off rb then (some (r, off), m)
      else (none, { m with voids := m.voids + 1, faults := m.faults ++ [(0x0405, pos)] })
    | none => (none, { m with voids := m.voids + 1, faults := m.faults ++ [(0x0405, pos)] })

/-- OR the flags of an FP32 step, and of a drain, into SFLAGS (R220). -/
def SopM.lfl (m : SopM) (f : BitVec 5) : SopM := { m with fl := m.fl ||| f.setWidth 9 }
def SopM.dfl (m : SopM) (f : BitVec 4) : SopM := { m with fl := m.fl ||| (f.setWidth 9 <<< 5) }

/-- "drain" of R214: R33 to FP32 with RM 0x0, SAT 0, DSC 0. -/
def SopM.drain (m : SopM) (t : Tun) : Word × SopM :=
  let o := drainTun t 0x0#4 0#2 false 0 0
  (BitVec.ofNat 32 o.code, m.dfl (dflagsOf t.tu o.dv o.dov o.dx))

def up128 (n : Nat) : Nat := (n + 127) / 128 * 128
def word32 (bs : Bytes) (off : Nat) : Word := BitVec.ofNat 32 (Bytes.leAt bs off 4)

/-- The rows of GATHER (R213). -/
def gatherRows (d : SillDesc) (blk : Bytes) : Nat → Nat → SopM → Bytes → SopM × Bytes × Option Nat → SopM × Bytes × Option Nat
  | 0, _, _, _, r => r
  | k + 1, i, _, _, (m, acc, bad) =>
    let (o, m) := m.block d.a d.rb (word32 blk (4 * i)).toNat i
    let (row, m) := match o with
      | some (r, off) => m.read r off d.rb
      | none => (zeroBytes d.rb, m)
    let bad := if m.poison then some (bad.getD acc.length) else bad
    if bitsOf d.opt 4 1 = 1 then
      let m := match m.cask.region d.b with
        | some r => m.write r (d.b + i * d.rb) row
        | none => m
      gatherRows d blk k (i + 1) m acc (m, acc, bad)
    else gatherRows d blk k (i + 1) m acc (m, acc ++ row, bad)

/-- SCATTER (R213): row i to block idx[i], in ascending i. -/
def scatterRows (d : SillDesc) (blk : Bytes) : Nat → Nat → SopM → SopM
  | 0, _, m => m
  | k + 1, i, m =>
    let (o, m) := m.block d.a d.rb (word32 blk (4 * i)).toNat i
    let m := match o with
      | some (r, off) => m.write r off (Bytes.slice blk (up128 (4 * d.n) + i * d.rb) d.rb)
      | none => m
    scatterRows d blk k (i + 1) m

/-- One cell of SCATTER_ADD (R213): its new bytes; none when the count or the anchor forbids it. -/
def addCell (mode : Nat) (cell addend : Bytes) : Option (Bytes × BitVec 5) :=
  match mode with
  | 0 =>
    let r := (recordTun cell).accumulate (addendOf (word32 addend 0))
    if r.2 then none else some (tunRecord r.1, 0#5)
  | 1 =>
    let t := recordTun cell
    let o := combine [t, recordTun addend] t.anchor
    if o.anchorBreach || o.countBreach then none else some (tunRecord o.tun, 0#5)
  | _ =>
    let o := fpAdd (word32 cell 0) (word32 addend 0)
    some (natLe 4 o.val.toNat, o.fl)

/-- The cells of one block (R213). -/
def addCells (d : SillDesc) (r : Region) (off : Nat) (row : Bytes) : Nat → Nat → SopM → SopM
  | 0, _, m => m
  | k + 1, j, m =>
    let cw := if d.mode = 2 then 4 else 32
    let aw := if d.mode = 1 then 32 else 4
    let (cell, m) := m.read r (off + cw * j) cw
    let m := match addCell d.mode cell (Bytes.slice row (aw * j) aw) with
      | some (b, f) => (m.lfl f).write r (off + cw * j) b
      | none => { m with faults := m.faults ++ [(0x0407, off + cw * j)] }
    addCells d r off row k (j + 1) m

/-- SCATTER_ADD (R213), in ascending i. -/
def scatterAddRows (d : SillDesc) (blk : Bytes) : Nat → Nat → SopM → SopM
  | 0, _, m => m
  | k + 1, i, m =>
    let rowLen := if d.mode = 0 then d.rb / 8 else d.rb
    let cells := if d.mode = 2 then d.rb / 4 else d.rb / 32
    let (o, m) := m.block d.a d.rb (word32 blk (4 * i)).toNat i
    let m := match o with
      | some (r, off) => addCells d r off (Bytes.slice blk (up128 (4 * d.n) + i * rowLen) rowLen) cells 0 m
      | none => m
    scatterAddRows d blk k (i + 1) m

/-- Bytes of one row, and rows held by the pages (R205, R208). -/
def SillDesc.rowBytes (d : SillDesc) : Nat := d.e * (fmtP d.fmtB).width / 8
def SillDesc.nrows (d : SillDesc) : Nat := if d.rowBytes = 0 then 0 else d.n * d.rb / d.rowBytes
def SillDesc.nq (d : SillDesc) : Nat := d.opt % 16 + 1
/-- Element k of a row of packed elements. -/
def rowElem (fmt : BitVec 4) (row : Bytes) (k : Nat) : Exact := decodeElem (packedElem row (fmtP fmt).width k) fmt

/-- Row n of a page list (R214): the page entries stand at pages in the operand block. -/
def SopM.row (m : SopM) (d : SillDesc) (base : Nat) (blk : Bytes) (pages : Nat) (n : Nat) : Bytes × SopM :=
  let pos := n * d.rowBytes
  let page := pos / d.rb
  let (o, m') := m.block base d.rb (word32 blk (pages + 4 * page)).toNat page
  let m := if pos % d.rb = 0 then m' else m
  match o with
  | some (r, off) => m.read r (off + pos % d.rb) d.rowBytes
  | none => m.openBytes d.rowBytes

/-- Where the parts of the operand block of DOT_SWEEP and SOFTBLEND stand (R206). -/
def keyPagesAt : Nat := 128
def valPagesAt (d : SillDesc) : Nat := 128 + up128 (4 * d.n)
def queriesAt (d : SillDesc) : Nat := valPagesAt d + up128 (4 * d.n)

/-- A query's elements (R206): q-major, packed in FMT_A. -/
def query (d : SillDesc) (blk : Bytes) (q : Nat) : List Exact :=
  let bs := blk.drop (queriesAt d)
  (List.range d.e).map (fun k => decodeElem (packedElem bs (fmtP d.fmtA).width (q * d.e + k)) d.fmtA)

/-- Products of two rows of elements. -/
def products : List Exact → List Exact → List Exact
  | a :: as, b :: bs => formProductE a 0x7F b 0x7F :: products as bs
  | _, _ => []

/-- Accumulate a list of terms into a tun (R26). -/
def Tun.sum (t : Tun) (ps : List Exact) : Tun := ps.foldl (fun t p => (t.accumulate p).1) t

/-- Scores of one key row for every query (R214). -/
def scoreRow (d : SillDesc) (qs : List (List Exact)) (row : List Exact) (n : Nat) : Nat → List Word → SopM → List Word × SopM
  | _, [], m => ([], m)
  | q, mx :: rest, m =>
    let t := (Tun.new d.anchA).sum (products (qs.getD q []) row)
    let (v, m) := m.drain t
    let o := fpMul v d.scale
    let x := fpMax mx o.val
    let m := (m.lfl o.fl).lfl x.fl
    let m := match m.cask.region d.c with
      | some r => m.write r (d.c + 4 * (q * d.nrows + n)) (natLe 4 o.val.toNat)
      | none => m
    let (rest, m) := scoreRow d qs row n (q + 1) rest m
    (x.val :: rest, m)

/-- The rows of DOT_SWEEP (R214). -/
def dotRows (d : SillDesc) (blk : Bytes) (qs : List (List Exact)) : Nat → Nat → List Word → SopM → List Word × SopM
  | 0, _, mx, m => (mx, m)
  | k + 1, n, mx, m =>
    let (row, m) := m.row d d.a blk keyPagesAt n
    let es := (List.range d.e).map (fun i => rowElem d.fmtB row i)
    let (mx, m) := scoreRow d qs es n 0 mx m
    dotRows d blk qs k (n + 1) mx m

/-- The maximum over the scores of one query (R215, MAXSELF). -/
def maxScore (d : SillDesc) (q : Nat) : Nat → Nat → Word → SopM → Word × SopM
  | 0, _, mx, m => (mx, m)
  | k + 1, n, mx, m =>
    match m.cask.region d.c with
    | some r =>
      let (b, m) := m.read r (d.c + 4 * (q * d.nrows + n)) 4
      let o := fpMax mx (word32 b 0)
      maxScore d q k (n + 1) o.val (m.lfl o.fl)
    | none => (mx, m)

/-- One query's part of one value row (R215). -/
def blendRow (d : SillDesc) (row : List Exact) (n : Nat) :
    Nat → List (Word × Tun × List Tun) → SopM → List (Word × Tun × List Tun) × SopM
  | _, [], m => ([], m)
  | q, (mx, dt, ats) :: rest, m =>
    let (sc, m) := match m.cask.region d.c with
      | some r => let (b, m) := m.read r (d.c + 4 * (q * d.nrows + n)) 4; (word32 b 0, m)
      | none => (0#32, m)
    let sb := fpSub sc mx
    let w := fpExp sb.val
    let m := (m.lfl sb.fl).lfl w.fl
    let dt := (dt.accumulate (addendOf w.val)).1
    let ats := (ats.zip row).map (fun p => (p.1.accumulate (formProductE (addendOf w.val) 0x7F p.2 0x7F)).1)
    let (rest, m) := blendRow d row n (q + 1) rest m
    ((mx, dt, ats) :: rest, m)

/-- The rows of SOFTBLEND (R215). -/
def blendRows (d : SillDesc) (blk : Bytes) :
    Nat → Nat → List (Word × Tun × List Tun) → SopM → List (Word × Tun × List Tun) × SopM
  | 0, _, qs, m => (qs, m)
  | k + 1, n, qs, m =>
    let (row, m) := m.row d d.b blk (valPagesAt d) n
    let es := (List.range d.e).map (fun i => rowElem d.fmtB row i)
    let (qs, m) := blendRow d es n 0 qs m
    blendRows d blk k (n + 1) qs m

/-- The drains, FRCP and FMUL that end a NORM (R215). -/
def normOut (dw : Word) : List Tun → SopM → Bytes × SopM
  | [], m => ([], m)
  | t :: ts, m =>
    let (a, m) := m.drain t
    let o := fpMul a dw
    let (rest, m) := normOut dw ts (m.lfl o.fl)
    (natLe 4 o.val.toNat ++ rest, m)
def blendOut (outrec : Bool) : List (Word × Tun × List Tun) → SopM → Bytes × SopM
  | [], m => ([], m)
  | (_, dt, ats) :: rest, m =>
    let (here, m) :=
      if outrec then (ats.flatMap tunRecord ++ tunRecord dt, m)
      else
        let (dv, m) := m.drain dt
        let rc := fpRcp dv
        normOut rc.val ats (m.lfl rc.fl)
    let (more, m) := blendOut outrec rest m
    (here ++ more, m)

/-- The header's M[q] and NVALID (R206). -/
def headerM (blk : Bytes) (nq : Nat) : List Word := (List.range nq).map (fun q => word32 blk (4 * q))
def headerN (blk : Bytes) : Nat := (word32 blk 64).toNat

/-- M of a SOFTBLEND for each query. -/
def blendMax (d : SillDesc) (nv : Nat) (hdr : List Word) : List Nat → SopM → List Word × SopM
  | [], m => ([], m)
  | q :: qs, m =>
    let (x, m) := if bitsOf d.opt 5 1 = 1 then maxScore d q nv 0 (fpInf true) m else (hdr.getD q 0#32, m)
    let (rest, m) := blendMax d nv hdr qs m
    (x :: rest, m)

/-- Repeat a pattern over n bytes. -/
def fillBytes (pat : Bytes) (n : Nat) : Bytes := (List.range n).map (fun i => pat.getD (i % pat.length) 0#8)

/-- What an operation does (R213-R215): the vat result, the index of its first poisoned byte, the state. None: the whole
operation is void. -/
def sopRun (d : SillDesc) (blk : Bytes) (m : SopM) : Option (Bytes × Option Nat) × SopM :=
  let whole := fun (r : Bytes × SopM) => (some (r.1, if r.2.poison then some 0 else none), r.2)
  match d.opk with
  | 1 => let (m, acc, bad) := gatherRows d blk d.n 0 m [] (m, [], none); (some (acc, bad), m)
  | 2 => (some ([], none), scatterRows d blk d.n 0 m)
  | 3 => (some ([], none), scatterAddRows d blk d.n 0 m)
  | 4 =>
    let nv := headerN blk
    if d.nrows < nv then (none, { m with faults := m.faults ++ [(0x0405, nv)] })
    else
      let qs := (List.range d.nq).map (fun q => query d blk q)
      let (mx, m) := dotRows d blk qs nv 0 ((List.range d.nq).map (fun _ => fpInf true)) m
      let hd := mx.flatMap (fun w => natLe 4 w.toNat)
      whole (hd ++ zeroBytes (64 - hd.length) ++ natLe 4 nv ++ zeroBytes 60, m)
  | 5 =>
    let nv := headerN blk
    if d.nrows < nv then (none, { m with faults := m.faults ++ [(0x0405, nv)] })
    else
      let (mx, m) := blendMax d nv (headerM blk d.nq) (List.range d.nq) m
      let init := mx.map (fun x => (x, Tun.new d.anchB, (List.range d.e).map (fun _ => Tun.new d.anchA)))
      let (qs, m) := blendRows d blk nv 0 init m
      whole (blendOut (bitsOf d.opt 6 1 == 1) qs m)
  | 6 =>
    match m.cask.region d.a with
    | some r => let (b, m) := m.read r d.a d.n; whole (sha384 b ++ zeroBytes 80, m)
    | none => (some ([], none), m)
  | 7 =>
    match m.cask.region d.a with
    | some r =>
      let pat := if d.mode = 1 then tunRecord (Tun.new d.anchA) else natLe 4 d.pattern.toNat
      (some ([], none), m.write r d.a (fillBytes pat d.n))
    | none => (some ([], none), m)
  | 8 =>
    match m.cask.region d.a, m.cask.region d.b with
    | some ra, some rb => let (b, m) := m.read ra d.a d.n; (some ([], none), m.write rb d.b b)
    | _, _ => (some ([], none), m)
  | _ => (none, m)

/-- The operand block of an operation, from the vat words it read, with whether any granule was poisoned. -/
def SopRun.block (r : SopRun) : Bytes × Bool :=
  let parts := (List.range r.desc.inl).map (fun k =>
    match r.operand.find? (fun p => p.1 = k) with
    | some p => p.2
    | none => { bytes := zeroBytes 128, bad := [] })
  (parts.flatMap (fun c => c.bytes), parts.any (fun c => decide (c.bad ≠ [])))

/-- The cask of an operation as it stands at 9 k0 (R210). -/
def State.sopStart (s : State) (b : BayId) (tag cask : Nat) : State :=
  let k := s.cask (2 * fieldOf b + cask)
  let x : CaskSnap := { mem := k.mem, poison := k.poison, writes := k.writes }
  s.modBay b (fun y => { y with sops := y.sops.map (fun q => if q.tag = tag then { q with snap := some x } else q) })

/-- Where an operation's open bytes come from (log entry 12): the bay relative to the parcel, and the operation by its descriptor and counts, so that
nothing but what 11 R223 names decides them. -/
def State.openSite (s : State) (b : BayId) : Nat :=
  match s.parcelOfBay b with
  | some p => bayIx { x := b.x - 12 * (s.parcel p).c0, y := b.y - 12 * (s.parcel p).r0 }
  | none => bayIx b
def SopRun.epoch (r : SopRun) : Nat :=
  let n := fun (x : Int) => (x + 2 ^ 63).toNat
  ((n (r.e.getD 0) * 2 ^ 64 + n r.u) * 2 ^ 12 + r.dix) * 2 ^ 32

/-- An operation at its beginning. -/
def State.sopM (s : State) (b : BayId) (r : SopRun) (bad : Bool) (found : List (Nat × PieceErr)) : SopM :=
  let k := s.cask (2 * fieldOf b + r.desc.cask)
  { cask := match r.snap with
      | some x => { k with mem := x.mem, poison := x.poison, writes := x.writes }
      | none => k
    k0 := r.k0, site := s.openSite b, epoch := r.epoch, pieces := [], own := decide (r.desc.opk = 3), fl := 0#9, poison := bad, poisonAt := none
    found := found, errs := [], voids := 0, faults := [] }

/-- What an operation leaves in its cask and in the log (R210, R219-R222): its writes take their place at e, its flags, counters and faults are kept. -/
def State.sopDone (s : State) (b : BayId) (r : SopRun) (m : SopM) : State :=
  let c := 2 * fieldOf b + r.desc.cask
  let e := r.e.getD 0
  let ws := m.pieces.map (fun p =>
    ({ cask := c, off := p.1, at_ := e, bayIx := bayIx b, seq := r.tag, bytes := p.2.1, poison := p.2.2 } : CaskWrite))
  let s := s.modCask c (fun k =>
    { k with writes := ws.foldl (fun l w => insertWrite w l) k.writes, sflags := k.sflags ||| m.fl, inject := m.cask.inject })
  let s := m.errs.foldl (fun s x => s.findingCounts c x) (s.caskCount c ckSopVoid m.voids)
  let s := m.faults.foldl (fun s f => s.report
    { code := f.1, parcel := s.parcelOfBay b, count := e.toNat, unit := 0x01, x := b.x, y := b.y, idx := c,
      detail := [(1, c), (1, b.x), (1, b.y), (2, r.dix), (8, f.2)] }) s
  match m.poisonAt with
  | some (off, st, inj) => (s.caskCount c ckSopPoison 1).report
      { code := 0x0406, parcel := s.parcelOfBay b, count := e.toNat, unit := 0x06, idx := c, cask := some c, stave := st, injected := inj,
        detail := [(1, c), (1, b.x), (1, b.y), (2, r.dix), (8, off)] }
  | none => s

/-- The result words of an operation, padded to OUTL with open bytes, with the granules that poison reaches. -/
def SopRun.words (r : SopRun) (m : SopM) (res : Option (Bytes × Option Nat)) : Option Chunk :=
  res.map (fun p =>
    let pad := (List.range (128 * r.desc.outl - p.1.length)).map (fun i => Config.freeByte m.site m.epoch i)
    let all := p.1 ++ (if p.1.isEmpty then [] else pad)
    let first := (p.2.map (fun i => i / 8)).getD (all.length / 8)
    ({ bytes := all, bad := (List.range (all.length / 8)).filter (fun g => decide (first ≤ g)) } : Chunk))

/-- The end of a sill operation (R207, R210, R218-R222); its result waits for the vat. -/
def State.sopEnd (s : State) (b : BayId) (r : SopRun) (agree : Bool) (found : List (Nat × PieceErr)) : State :=
  let c := 2 * fieldOf b + r.desc.cask
  let s := s.caskCount c ckSopDone 1
  let s :=
    if agree then s
    else s.report { code := 0x0408, parcel := s.parcelOfBay b, count := (r.e.getD 0).toNat, unit := 0x05, idx := c, cask := some c,
                    detail := [(1, c), (1, b.x), (1, b.y), (2, r.dix)] }
  if !r.on then s
  else
    let (blk, bad) := r.block
    let (res, m) := sopRun r.desc blk (s.sopM b r bad found)
    let out := if r.late then none else r.words m res
    (s.sopDone b r m).modBay b (fun x => { x with sops := x.sops.map (fun q => if q.tag = r.tag then { q with result := out } else q) })

end Sys2Proof.Machine
end

