-- ==== Sys2Proof/Machine/BayRun.lean ====
section
/-! DEFINITION. A bay's step within the module: what it knows of its surroundings, and what its outputs do outside it: racking
pieces, flits, tokens, hints, faults (06, 08, 09, 10). -/

namespace Sys2Proof.Machine
open Sys2Proof

/-- What a bay needs to know about the module at an issue. -/
def State.bctx (s : State) (b : BayId) : BCtx :=
  let f := fieldOf b
  let p := s.parcelOfField f
  let q := match p with
    | some n => s.parcel n
    | none => Parcel.init
  let c0 := s.cask (2 * f)
  let c1 := s.cask (2 * f + 1)
  { id := b, px := b.x - 12 * q.c0, py := b.y - 12 * q.r0, field := f, rel := q.relCask (2 * f), regions := [c0.regions, c1.regions]
    allRegions := (List.range (2 * q.w * q.h)).map (fun rc => ((q.absCask rc).map (fun c => (s.cask c).regions)).getD []), grpCask := c0.grp.grpCask
    grpChan := c0.grp.grpChan, period := [c0.period, c1.period], windows := [c0.windows, c1.windows], betaTarget := q.tr.beta
    inParcel := p.isSome }

/-- PRT_CTRL's parcel is named, armed and in test mode (15 R326). -/
def State.prtFor (s : State) (p : Nat) : Bool :=
  s.prt.ctrl.getLsbD 0 && decide (bitsOf s.prt.ctrl.toNat 1 2 = p) && (s.parcel p).test

/-- A read whose added sill cycles pass the budget of R187 is not in its return buffer at d_w - 24 (15 R328, PRT_CELLAR): the
cask's part takes 29 ns and 20 sill cycles, and 104 fc are there for it (log entry 13). -/
def State.prtLate (s : State) (c : Nat) : Bool :=
  match s.parcelOfCask c with
  | some p =>
    let add := bitsOf s.prt.cellar.toNat 20 6
    let f := (s.field (c / 2)).island.live.toNat
    let k := (s.cask c).sclk
    s.prtFor p && decide (0 < add) && (s.prt.cellar.getLsbD c) && decide (4160 * k < (29 * k + 16 * (20 + add)) * f)
  | none => false

/-- SUSPECT_FROM of a TASTE_MISMATCH (15 R313): PEGNO at the last comparison that passed on either press of the pair. -/
def Bay.suspectFrom (b : Bay) (pr prb : Nat) : Nat := max (b.press pr).passed (b.press prb).passed
/-- A fault that a bay raises, as its log entry names it (15 R307): mesh faults name a path, cellar faults their cask. Counts of the prologue are
logged as 0 (DESIGN CHOICE, log entry 53). The VAT_UNCORRECTABLE of an access that met an injected error is INJECTED (15 R328). -/
def State.bayFault (s : State) (b : BayId) (code : Nat) (count : Int) (idx : Nat) (detail : List (Nat × Nat)) : State :=
  let c := if count < 0 then 0 else count.toNat
  let inj := decide (code = 0x0203) && decide (s.prt.live = some (bayIx b, bankOf ((detail.head?.map (fun d => d.2)).getD 0)))
  let s := if inj then { s with prt := { s.prt with live := none } } else s
  s.report { code := code, parcel := s.parcelOfBay b, count := c, unit := if code / 256 = 3 then 0x02 else 0x01, x := b.x, y := b.y,
             injected := inj, idx := idx, detail := [(1, b.x), (1, b.y)] ++ detail, suspectFrom := if code = 0x0202 then (s.bay b).suspectFrom idx ((detail.head?.map (fun d => d.2)).getD 0) else 0 }

/-- A breach token (03 R54). A count of the prologue is logged as 0 (DESIGN CHOICE, log entry 53). READ_LATE is attributed to the cask (15 R307); one that PRT_CELLAR makes is INJECTED (15 R328). -/
def State.bayBreach (s : State) (b : BayId) (cause : Nat) (count : Int) (unit : Nat) : State :=
  let c := if count < 0 then 0 else count.toNat
  let mine := [2 * fieldOf b, 2 * fieldOf b + 1]
  s.report { code := 0x0100 + cause, parcel := s.parcelOfBay b, count := c, unit := 0x01, x := b.x, y := b.y, idx := unit
             detail := [(1, cause), (8, c), (1, unit)], injected := decide (cause = brReadLate) && mine.any (fun k => s.prtLate k)
             cask := if cause = brReadLate then some (2 * fieldOf b) else none }

/-- A peg token reaches the field's summary (08 R167). ord numbers the bay's pegs from the invocation's first. -/
def addToken (f ord : Nat) (k : TokenPart) (isEnd : Bool) : List TokenSum → List TokenSum
  | [] => [{ field := f, ord := ord, parts := [k], isEnd := isEnd }]
  | t :: r =>
    if t.field = f ∧ t.ord = ord then { t with parts := t.parts ++ [k], isEnd := t.isEnd || isEnd } :: r
    else t :: addToken f ord k isEnd r

/- The fields of a summary (08 R167). PEGNO is the first token's; AGREE says whether every other's is equal. -/
def TokenSum.arrived (t : TokenSum) : Nat := t.parts.length
def TokenSum.pegno (t : TokenSum) : BitVec 16 := (t.parts.head?.map (fun k => k.pegno)).getD 0#16
def TokenSum.agree (t : TokenSum) : Bool := t.parts.all (fun k => decide (k.pegno = t.pegno))
def TokenSum.digestOk (t : TokenSum) : Bool := t.parts.all (fun k => k.ok)
def TokenSum.word0 (t : TokenSum) : Word :=
  BitVec.ofNat 32 (t.pegno.toNat + 2 ^ 16 * t.arrived + (if t.digestOk then 2 ^ 24 else 0) + (if t.agree then 2 ^ 25 else 0))
/-- Word 1 carries the marker of the parcel's first bay, if the summary includes that bay. -/
def TokenSum.word1 (t : TokenSum) (first : Nat) : Word :=
  match t.parts.find? (fun k => k.bay = first) with
  | some k => BitVec.ofNat 32 (k.phase.toNat + (if k.phv then 2 ^ 8 else 0))
  | none => 0#32

/-- A peg of the target's bay passes for an armed injection (15 R328, PRT_INJ_CTRL). -/
def State.injPeg (s : State) (p : Nat) (b : BayId) : State :=
  let w := s.prt.injTgt.toNat
  if s.prtFor p && decide ((s.parcel p).bayAt (bitsOf w 22 6) (bitsOf w 17 5) = b) then
    { s with prt := { s.prt with armed := s.prt.armed.map (fun _ => { pegSeen := true }) } }
  else s

def State.token (s : State) (b : BayId) (pegno : Nat) (ok : Bool) (phase : BitVec 8) (phv isEnd : Bool) : State :=
  match s.parcelOfBay b with
  | some p =>
    let k : TokenPart := { bay := bayIx b, pegno := BitVec.ofNat 16 pegno, ok := ok, phase := phase, phv := phv }
    (s.injPeg p b).modInv p (fun i =>
      let ord := Sparse.get 0 i.bayTok (bayIx b) + 1
      { i with bayTok := Sparse.set 0 i.bayTok (bayIx b) ord
               tokens := if ord ≤ i.checked then i.tokens else addToken (fieldOf b) ord k isEnd i.tokens })
  | none => s

/-- Put a piece into the return buffer of a transaction, in place of what it held for it. -/
def RackRun.hold (q : RackRun) (w : Nat) (ch : Chunk) : RackRun := { q with buf := q.buf.filter (fun e => decide (e.1 ≠ w)) ++ [(w, ch)] }
/-- The data of a racking read's piece comes from its cask (09 R176, R183): a stored marker, or an injected error (15 R328), poisons it. -/
def State.fetchPiece (s : State) (b : BayId) (tag w c off : Nat) (r : Region) (a : Int) : State :=
  let k := s.cask c
  let p := k.piece (some a) (r.phys off)
  let hit := k.injectHit (r.place off).1
  let ch : Chunk := if p.2 || hit.isSome then poisonPiece (bayIx b) s.freeCtr 64 else { bytes := p.1, bad := [] }
  let s := s.modBay b (fun x => { x with racks := x.racks.map (fun q => if q.tag = tag then q.hold w ch else q) })
  match hit with
  | some e =>
    ((({ s with freeCtr := s.freeCtr + 1 }).modCask c (fun x => { x with inject := none })).cellarUe b c off (a + 130).toNat (errStave e) true).findingCounts c e
  | none => if p.2 then ({ s with freeCtr := s.freeCtr + 1 }).cellarUe b c off (a + 130).toNat none false else s

/-- Does the return buffer of a transaction hold a piece already? -/
def Bay.buffered (x : Bay) (tag w : Nat) : Bool := x.racks.any (fun q => decide (q.tag = tag) && q.buf.any (fun e => decide (e.1 = w)))
/-- Data of a racking read reaches its return buffer (09 R183, R187): not in time where PRT_CELLAR or a forced refresh delays it (R188,
R193; DEDUCED, log entry 53). A piece that came during a stop (R194) stands, unless a write of an earlier access count has come since. -/
def State.readPiece (s : State) (b : BayId) (tag w c off : Nat) (a : Int) : State :=
  match (s.cask c).region off with
  | some r =>
    if (s.bay b).buffered tag w then
      if (latestWrite (some a) (r.phys off) (s.cask c).writes).isSome then s.fetchPiece b tag w c off r a else s
    else if s.prtLate c || ((s.cask c).forced && (s.cask c).delays) then s
    else s.fetchPiece b tag w c off r a
  | none => s
/-- While the count stands stopped the reads issued before it complete at the cask (09 R194): their data waits in the return buffer. -/
def State.readsComplete (s : State) (b : BayId) : State :=
  (s.bay b).racks.foldl (fun s q =>
    if q.kind = 1 && q.on then
      (List.range q.pieces).foldl (fun s w =>
        if q.next ≤ w ∧ !(s.bay b).buffered q.tag w then
          match (s.cask q.cask).region (q.off + 64 * w) with
          | some r => s.fetchPiece b q.tag w q.cask (q.off + 64 * w) r (q.u + 32 + (q.t w : Int))
          | none => s
        else s) s
    else s) s

/-- A write piece sets out for its channel (09 R176, R182): it carries the marker when its vat data is poisoned or a beat of it is uncorrectable at
the sill. -/
def State.putWrite (s : State) (b : BayId) (tag c phys : Nat) (a : Int) (d : Chunk) (beats : List Ecc) : State :=
  s.modCask c (fun k =>
    let w : CaskWrite :=
      { cask := c, off := phys, at_ := a, bayIx := bayIx b, seq := tag, bytes := d.bytes, poison := decide (d.bad ≠ []) || beatsBad beats }
    { k with writes := insertWrite w k.writes })
/-- What the sill finds in the beats of a racking write. -/
def State.rackBeats (s : State) (c off : Nat) (a : Int) (beats : List Ecc) : State :=
  if beats.all (fun x => decide (x = .ok)) then s else s.beatsMet c off a.toNat beats
def State.writePiece (s : State) (b : BayId) (tag c off : Nat) (a : Int) (d : Chunk) (beats : List Ecc) : State :=
  match (s.cask c).region off with
  | some r => (s.putWrite b tag c (r.phys off) a d beats).rackBeats c off a beats
  | none => s
/-- A broadcast piece reaches every named channel of every named cask (09 R190); each cask's sill checks its beats. -/
def State.bcastPiece (s : State) (b : BayId) (tag g off : Nat) (a : Int) (d : Chunk) (beats : List Ecc) : State :=
  let casks := (List.range 20).filter (fun c => bitsOf (Sparse.get 0 (s.cask (2 * fieldOf b)).grp.grpCask g) c 1 == 1)
  let chans := (List.range 32).filter (fun c => bitsOf (Sparse.get 0 (s.cask (2 * fieldOf b)).grp.grpChan g) c 1 == 1)
  casks.foldl (fun s c => match (s.cask c).region off with
    | some r => (chans.foldl (fun s ch => s.putWrite b tag c (ch * chanSpan + r.lb + (off - r.base)) a d beats) s).rackBeats c off a beats
    | none => s) s

/-- What a racking read's piece met at the port (09 R175, R176, R188, R201). -/
def State.pieceErr (s : State) (b : BayId) (c off : Nat) (err : PieceErr) (a : Int) : State :=
  let s := match err with
    | .uncorrectable st => s.cellarUe b c off (a + 2).toNat st false
    | .beatUncorrectable => s.cellarUe b c off (a + 2).toNat none false
    | _ => s
  s.findingCounts c err

/-- The scarf link that a hop between neighbouring bays leads over, if it crosses a seam (08 R152, R163). -/
def hopLink (x y nx ny : Nat) : Option ScarfLink :=
  (seamBetween (x / 12 + 5 * (y / 12)) (nx / 12 + 5 * (ny / 12))).map (fun n =>
    { seam := n, line := if y = ny then y % 12 else x % 12, up := decide (x < nx) || decide (y < ny) })

/-- The outputs of one leg from coordinate start to stop, the other coordinate fixed, with canonical count t (08 R156, R159); late gives the
spare positions that a hop passes, and each adds 2 fc to the outputs after it (R158). -/
def legHops (late : Nat → Nat → Nat) (horiz : Bool) (fixed stop : Nat) : Nat → Nat → Int → Nat → List Hop × Int
  | 0, _, t, _ => ([], t)
  | k + 1, start, t, behind =>
    if start = stop then ([], t)
    else
      let up := decide (start < stop)
      let nxt := if up then start + 1 else start - 1
      let dir := if horiz then (if up then 0 else 1) else (if up then 2 else 3)
      let link := if start / 12 = nxt / 12 then none
        else if horiz then hopLink start fixed nxt fixed else hopLink fixed start fixed nxt
      let hop : Hop :=
        { x := if horiz then start else fixed, y := if horiz then fixed else start, dir := dir, at_ := t + 2 * (behind : Int), link := link }
      let r := legHops late horiz fixed stop k nxt (t + (if start / 12 = nxt / 12 then 2 else 8)) (behind + late start nxt)
      (hop :: r.1, r.2)

/-- Fields in which an east-west leg has a hop (08 R156). -/
def legFields (a b : Nat) : Nat := if a = b then 0 else max a b / 12 - min a b / 12 + 1

/-- The outputs of a route that leaves its source router at a count; its margins are spent at the end of the east-west leg (08 R155-R159). late
says, for a row, which spare positions a hop passes. -/
def flitHops (late : Nat → Nat → Nat → Nat) (src dst : BayId) (yx : Bool) (leave : Int) : List Hop :=
  if yx then
    let a := legHops (fun _ _ => 0) false src.x dst.y 24 src.y leave 0
    a.1 ++ (legHops (late dst.y) true dst.y dst.x 60 src.x a.2 0).1
  else
    let a := legHops (late src.y) true src.y dst.x 60 src.x leave 0
    a.1 ++ (legHops (fun _ _ => 0) false dst.x dst.y 24 src.y (a.2 + 2 * (legFields src.x dst.x : Int)) 0).1

/-- The spare positions that an east-west hop of row y between neighbouring columns passes (08 R158): inside a bent it skips one, and a seam
hop leaves or enters a bent past one. -/
def State.sparesPassed (s : State) (y x nx : Nat) : Nat :=
  let bent := fun (c : Nat) => s.bent (c / 12 + 5 * (y / 12)) (y % 12)
  let lo := min x nx
  let hi := max x nx
  let a := bent lo
  let b := bent hi
  if lo / 12 = hi / 12 then (if a.phys (lo % 12) + 1 < a.phys (hi % 12) then 1 else 0)
  else (if a.phys (lo % 12) < a.spare then 1 else 0) + (if b.spare < b.phys (hi % 12) then 1 else 0)

/-- A flit leaves its source router (08 R157): the outputs on its way, and its arrival at the peer's router Λ later. -/
def State.flit (s : State) (b : BayId) (e : RouteEnt) (f : Nat) (leave : Int) (void poison : Bool) (data : Bytes) : State :=
  match s.parcelOfBay b with
  | none => s
  | some p =>
    let dst := (s.parcel p).bayAt e.peerX e.peerY
    let fl : Flight :=
      { routeId := e.routeId, f := f, void := void, poison := poison, data := data, parity := if void then 0xFFFF else parity16 data
        dst := bayIx dst, arrive := leave + (e.lambda : Int), path := flitHops s.sparesPassed b dst e.yx leave, fifo := none }
    { s with hops := s.hops ++ [fl] }

/-- Is a crossing closed to the traffic of a parcel: its seam in reset, or not between two fields of the parcel (08 R152, 12 R254)? -/
def State.linkClosed (s : State) (q : Parcel) (l : ScarfLink) : Bool :=
  !(s.seam l.seam).released || !(q.holds (seamEnds l.seam).1 && q.holds (seamEnds l.seam).2)

/-- What a flit is after a crossing (08 R163, 12 R255, R257): it lies in the entry that the write pointer names; with OVERRUN set it is
poisoned, and a link that is unusable spoils its parity (DEDUCED, log entry 53). -/
def State.crossing (s : State) (l : ScarfLink) (fl : Flight) : Flight :=
  let x := s.seam l.seam
  { fl with poison := fl.poison || x.overrun.contains l, parity := if x.linkFailed.contains l && !fl.void then fl.parity ^^^ 1 else fl.parity
            fifo := some (l, x.wptr) }

/-- A flit goes on over an output: to the next one, or to the destination's router. -/
def State.sendOn (s : State) (fl : Flight) : State :=
  match fl.path with
  | _ :: [] => s.modBay (bayOfIx fl.dst) (fun x => x.due fl.arrive 1 (.flitIn fl.routeId fl.f fl.void fl.poison fl.data fl.parity))
  | _ :: rest => { s with hops := s.hops ++ [{ fl with path := rest }] }
  | [] => s

/-- One flit at the output before it: at a closed crossing it is a misroute, raised 2 fc after it reaches the crossing, which it does 1 fc of
launch after the output (08 R162, 12 R254, R255). -/
def State.passOutput (s : State) (p : Nat) (fl : Flight) (h : Hop) : State :=
  match h.link with
  | none => s.sendOn { fl with fifo := none }
  | some l =>
    if s.linkClosed (s.parcel p) l then
      s.report { code := 0x0303, parcel := some p, count := (h.at_ + 3).toNat, unit := 0x02, x := h.x, y := h.y, idx := l.seam
                 detail := [(1, l.seam), (2, fl.routeId)] }
    else s.sendOn (s.crossing l fl)

/-- Do two flits hold one router output in one fc (08 R159)? -/
def Flight.meets (a b : Flight) : Bool := match a.path, b.path with
  | g :: _, h :: _ => decide (g.x = h.x) && decide (g.y = h.y) && decide (g.dir = h.dir) && decide (g.at_ = h.at_)
  | _, _ => false

/-- The flits that hold an output of a bay's router at count c or before (08 R159, R162): two on one output in one fc collide, one fault for
the output, and neither goes on; any other goes on. -/
def State.forward (s : State) (b : BayId) (c : Int) : State :=
  let here := fun (fl : Flight) => match fl.path with
    | h :: _ => decide (h.x = b.x) && decide (h.y = b.y) && decide (h.at_ ≤ c)
    | [] => false
  let now := s.hops.filter here
  if now.isEmpty then s
  else
    match s.parcelOfBay b with
    | none => { s with hops := s.hops.filter (fun fl => !here fl) }
    | some p =>
      (enumFrom 0 now).foldl (fun (s : State) e =>
        let others := (enumFrom 0 now).filter (fun o => decide (o.1 ≠ e.1) && o.2.meets e.2)
        match e.2.path with
        | h :: _ =>
          if others.isEmpty then s.passOutput p e.2 h
          else if others.all (fun o => decide (e.1 < o.1)) then
            s.report { code := 0x0301, parcel := some p, count := (h.at_ + 2).toNat, unit := 0x02, x := h.x, y := h.y, idx := h.dir
                       detail := [(1, h.x), (1, h.y), (1, h.dir), (8, h.at_.toNat)] }
          else s
        | [] => s) { s with hops := s.hops.filter (fun fl => !here fl) }

/-- One running cycle of a seam (12 R255): its writers and its readers advance by one entry of 16. -/
def Seam.cycle (x : Seam) : Seam := if x.released then { x with wptr := (x.wptr + 1) % 16, rptr := (x.rptr + 1) % 16 } else x
/-- The seams inside a parcel advance with its fabric count. -/
def State.seamsCycle (s : State) (p : Nat) : State := (s.parcel p).seams.foldl (fun s n => s.modSeam n Seam.cycle) s

/-- A crush hint reaches the trellis (06 R127, 14 R296). -/
def State.hint (s : State) (b : BayId) (phase : BitVec 8) (c : Int) : State :=
  match s.parcelOfBay b with
  | some p => s.modParcel p (fun q => { q with tr := { q.tr with hint := some (phase, c.toNat) } })
  | none => s

/-- One output of a bay. -/
def State.bout (s : State) (b : BayId) (o : BOut) : State :=
  match o with
  | .breach cause c u => s.bayBreach b cause c u
  | .fault code c idx d => s.bayFault b code c idx d
  | .token n ok ph phv _ isEnd => s.token b n ok ph phv isEnd
  | .crush ph c => s.hint b ph c
  | .readPiece tag w c off a => s.readPiece b tag w c off a
  | .writePiece tag c off a d bs => s.writePiece b tag c off a d bs
  | .bcast tag g off a d bs => s.bcastPiece b tag g off a d bs
  | .pieceErr c off err a => s.pieceErr b c off err a
  | .sopStart tag c => s.sopStart b tag c
  | .sopEnd r agree found => s.sopEnd b r agree found
  | .flit e f lv vd po d => s.flit b e f lv vd po d

/-- An access of the bay met an injected double error (15 R328): the fault it raises is INJECTED. -/
def State.injectMet (s : State) (b : BayId) (old new : Vat) : State :=
  match old.inject, new.inject with
  | some (bank, code), none => if code = 3 then { s with prt := { s.prt with live := some (bayIx b, bank) } } else s
  | _, _ => s

/-- Run an operation of one bay and let its outputs take effect, in order; once it has come to a later count its router passes on what has reached
it. -/
def State.runBay (s : State) (b : BayId) (f : BCtx → BayM → BayM) : State :=
  let old := s.bay b
  let m := f (s.bctx b) { bay := old, out := [] }
  if m.bay.seq.ticked = old.seq.ticked then m.out.foldl (fun s o => s.bout b o) (s.setBay b m.bay)
  else (m.out.foldl (fun s o => s.bout b o) ((s.setBay b m.bay).injectMet b old.vat m.bay.vat)).forward b m.bay.seq.ticked

/-- An operation of one bay as a command: a bay off the grid does not exist; a slot that the loader would reject does nothing. -/
def State.bayOp (s : State) (b : BayId) (ok : Bool) (f : BCtx → BayM → BayM) : Host.Outcome State Fault Refusal :=
  if b.ok then .next (if ok then s.runBay b f else s) else .refused .noSuchUnit

/-- A count at which a parcel's body stands
stopped issues nothing (11 R231): the boundary is the decided stop's count. -/
def State.stopsAt (s : State) (b : BayId) : Bool :=
  match s.parcelOfBay b with
  | some p => match (s.parcel p).inv with
    | some i => match i.stop with
      | some t => (s.bay b).seq.body && decide ((t.count : Int) ≤ (s.bay b).seq.count)
      | none => false
    | none => false
  | none => false

end Sys2Proof.Machine
end

