-- ==== Sys2Proof/Machine/ClockOps.lean ====
section
/-! DEFINITION. The plate's count tracker, and what a clock command does at an island or a seam (08 R168, R169, 11 R231, 12
R247-R262). -/

namespace Sys2Proof.Machine
open Sys2Proof

/-- The fabric count an island has reached: that of the bay furthest on. -/
def State.islandCount (s : State) (f : Nat) : Int := (fieldBays f).foldl (fun m b => max m (s.bay b).seq.count) (s.bay ((fieldBays f).headD ⟨0, 0⟩)).seq.count
/-- The fields of a parcel that have VFAB; all of them when none has. -/
def State.litFields (s : State) (p : Nat) : List Nat :=
  let fs := (s.parcel p).fields
  let up := fs.filter (fun f => (s.field f).supply.vfab)
  if up = [] then fs else up
/-- The count tracker of a parcel (R168); a field that went dark counts no longer. -/
def State.parcelCount (s : State) (p : Nat) : Int :=
  let fs := s.litFields p
  fs.foldl (fun m f => max m (s.islandCount f)) (s.islandCount (fs.headD 0))

/-- Does an invocation of the parcel that holds field f run? -/
def State.fieldRuns (s : State) (f : Nat) : Bool := match s.parcelOfField f with
  | some p => (s.parcel p).running
  | none => false
/-- The stop that the parcel of field f stands at. -/
def State.fieldStop (s : State) (f : Nat) : Option Stop :=
  match s.parcelOfField f with
  | some p => ((s.parcel p).inv.bind (fun i => i.stop)).bind (fun t => if t.reached then some t else none)
  | none => none

/-- Running pegs of a list of runs, and the count of the n-th from 0 (22 R466). -/
def pegTotal (rs : List PegRun) : Nat := (rs.map (fun r => r.repeat_)).foldl (· + ·) 0
def runAt : List PegRun → Nat → Option Nat
  | [], _ => none
  | r :: rs, n => if n < r.repeat_ then some (r.first + n * r.interval) else runAt rs (n - r.repeat_)
def Parcel.prologuePegs (p : Parcel) : Nat := match p.image with
  | some i => i.prologuePegs
  | none => 0
/-- The invocation count of the body peg whose PEGNO is n (R121, R466). -/
def Image.pegCount (i : Image) (n : Nat) : Option Nat := if n = 0 then none else runAt i.runs (n - 1)
/-- The invocation count at which the ord-th peg of an invocation issues, END last; counts of the prologue are negative. -/
def Image.ordCount (i : Image) (prologueRan : Bool) (ord : Nat) : Option Int :=
  let np := if prologueRan then i.prologuePegs else 0
  if ord = 0 then none
  else if ord ≤ np then (runAt i.pruns (ord - 1)).map (fun (c : Nat) => (c : Int) - (i.prologueCount : Int))
  else match runAt i.runs (ord - np - 1) with
    | some c => some (c : Int)
    | none => if ord - np = pegTotal i.runs + 1 then some (i.bodyCount : Int) else none

/-- Has the tracker passed the parcel's next unchecked peg (R168)? -/
def State.pegReached (s : State) (p : Nat) : Bool :=
  match (s.parcel p).inv, (s.parcel p).image with
  | some i, some m =>
    i.started && (match m.ordCount i.prologueRan (i.checked + 1) with
      | some c => decide (c < s.parcelCount p)
      | none => false)
  | _, _ => false

/-- V(f) in millivolts (14 R284). -/
def vOf (fcode : BitVec 8) : Nat := 535 + 5 * (((fcode.toNat - 24) * 2 + 2) / 3)
/-- FCODE values of 12 R251. -/
def fcodeOk (c : BitVec 8) : Bool := decide (0x18 ≤ c.toNat) && decide (c.toNat ≤ 0x48)

/-- The highest VBENT target of a field plus 15 mV, at most 780 mV (13 R272). -/
def Field.vTarget (x : Field) (fcode : BitVec 8) : Nat :=
  let top := x.bents.foldl (fun m e => max m (e.2.cal + e.2.esc)) 0
  min 780 (vOf fcode + top + 15 + x.supply.boostMv)

/-- The regulators move VFAB at 1 mV per us (14 R284): a new setpoint and the moment at which it has settled. -/
def Supply.setMv (x : Supply) (now mv : Nat) : Supply :=
  if x.mv = mv then x else { x with mv := mv, settleNs := now + 1000 * (max x.mv mv - min x.mv mv) }
/-- VFAB of a field takes the target of a frequency. -/
def State.vfabTo (s : State) (f : Nat) (fcode : BitVec 8) : State :=
  s.modField f (fun x => { x with supply := x.supply.setMv s.tNs (x.vTarget fcode) })
/-- The frequency that VFAB of a field stands for: the higher of the one it runs at and the one it is to switch to (R284). -/
def Field.topCode (x : Field) : BitVec 8 := match x.island.switch with
  | some c => if x.island.live.toNat < c.fcode.toNat then c.fcode else x.island.live
  | none => x.island.live
/-- The islands of a parcel between invocations take a frequency at once (14 R297, R299), but for REF_LOSS, under which no frequency is switched
(12 R248). -/
def State.idleTo (s : State) (p : Nat) (code : BitVec 8) : State :=
  if s.refLoss then s
  else (s.parcel p).fields.foldl (fun s f =>
    if !(s.field f).supply.vfab || decide ((s.field f).island.live = code) then s
    else (s.modField f (fun x => { x with island := { x.island with live := code, standby := x.island.live }, cnt := bump x.cnt 2 1 })).vfabTo f code) s
/-- CAL, ESC or the boost of a field changed: VFAB follows at once (13 R272, 14 R296). -/
def State.retarget (s : State) (f : Nat) : State := if (s.field f).supply.vfab then s.vfabTo f (s.field f).topCode else s

/-- Two fabric counts of 64 bits are compared by their difference modulo 2^64 (00_scope R8): has a count been reached, and is it past? -/
def countReached (now count : Int) : Bool := decide ((now - count) % 2 ^ 64 < 2 ^ 63)
def countPast (now count : Int) : Bool := countReached now count && decide ((now - count) % 2 ^ 64 ≠ 0)

/-- An island's stop cycle at a stop (11 R231): FCODE times 25 MHz over the time since the stop, or since its last switch within it. -/
def State.stopCycle (s : State) (f : Nat) (t : Stop) : Nat :=
  match t.since.find? (fun e => e.1 = f) with
  | some e => e.2.1 + (s.tNs - e.2.2) * (s.field f).island.live.toNat / 40
  | none => (s.tNs - t.atNs) * (s.field f).island.live.toNat / 40
/-- An island's frequency changes within a stop: its cycles so far stand. -/
def State.stopRebase (s : State) (f : Nat) : State :=
  match s.parcelOfField f, s.fieldStop f with
  | some p, some t =>
    s.modParcel p (fun q => q.modInv (fun i =>
      { i with stop := some { t with since := (f, s.stopCycle f t, s.tNs) :: t.since.filter (fun e => decide (e.1 ≠ f)) } }))
  | _, _ => s

/-- VFAB of the fields of a parcel follows the highest frequency that one of them runs at (12 R262, 14 R284). -/
def State.settleVolts (s : State) (fs : List Nat) : State :=
  let top := fs.foldl (fun m f => if m.toNat < (s.field f).island.live.toNat then (s.field f).island.live else m) (s.field (fs.headD 0)).island.live
  fs.foldl (fun s f => if (s.field f).supply.vfab then s.vfabTo f top else s) s

/-- LATE_COMMAND (08 R169). -/
def State.lateCommand (s : State) (f count : Nat) : State :=
  s.report { code := 0x0307, parcel := s.parcelOfField f, count := (s.islandCount f).toNat, unit := 0x04, x := f, detail := [(1, f), (8, count)] }

/-- Has the island passed the count that a clock command names? -/
def State.clockLate (s : State) (f : Nat) (c : ClockCmd) : Bool :=
  if c.stop then
    match s.fieldStop f with
    | some t => decide (c.count < s.stopCycle f t)
    | none => false
  else s.fieldRuns f && countPast (s.islandCount f) c.count

/-- How far an island is from the count or stop cycle that a clock command names: has it reached that count plus k? An island of a parcel that
runs nothing has. -/
def State.clockReached (s : State) (f : Nat) (c : ClockCmd) (k : Int) : Bool :=
  if c.stop then
    match s.fieldStop f with
    | some t => decide ((c.count : Int) + k ≤ s.stopCycle f t)
    | none => false
  else !s.fieldRuns f || countReached (s.islandCount f) (c.count + k)

/-- May a command with STOP set name its cycle: 64 to Z - 1 of the current stop (R262)? -/
def State.stopNamed (s : State) (f : Nat) (c : ClockCmd) : Bool :=
  match s.fieldStop f with
  | some t => decide (64 ≤ c.count) && (match t.z with
    | some z => decide (c.count < z)
    | none => true)
  | none => false

/-- SWITCH at an island (R260, R261 step 1). -/
def State.clockSwitch (s : State) (f : Nat) (c : ClockCmd) : State :=
  let x := s.field f
  if !x.supply.vfab || !fcodeOk c.fcode then s
  else if s.clockLate f c then s.lateCommand f c.count
  else if c.stop && !s.stopNamed f c then s
  else s.setField f { x with island := { x.island with switch := some c, standby := c.fcode, locked := true, unlocked := false } }

/-- CANCEL at an island (R260, R261 step 2). -/
def State.clockCancel (s : State) (f : Nat) (c : ClockCmd) : State :=
  let x := s.field f
  if !x.supply.vfab then s
  else if s.clockLate f c then s.lateCommand f c.count
  else match x.island.switch with
    | some w =>
      if w.count = c.count ∧ w.stop = c.stop then
        s.setField f { x with island := { x.island with switch := none, unlocked := false }, cnt := bump x.cnt 3 1 }
      else s
    | none => s

/-- May a SEAM group leave reset (R254)? Both fields are powered and raised or being raised, the seam is not retired, and no parcel
boundary lies on it. -/
def State.seamOpen (s : State) (n : Nat) : Bool :=
  let e := seamEnds n
  let up := fun f => (s.field f).supply.vfab && (decide ((s.field f).st = .raised) || decide ((s.field f).st = .raising) || decide ((s.field f).st = .unparking))
  up e.1 && up e.2 && !(s.seam n).retired && decide (s.parcelOfField e.1 = s.parcelOfField e.2)

/-- ALIGN at a SEAM group in reset (R256 step 2); both fields must run at one frequency. -/
def State.clockAlign (s : State) (n epoch : Nat) : State :=
  let e := seamEnds n
  if !s.seamOpen n || (s.seam n).released then s
  else if epoch < s.plate.master then s.lateCommand e.1 epoch
  else if (s.field e.1).island.live = (s.field e.2).island.live then s.modSeam n (fun x => { x with alignAt := some epoch })
  else s

/-- EPOCH_LOAD at an island (R247 step 2, R260). -/
def State.clockEpoch (s : State) (f epoch : Nat) : State :=
  let x := s.field f
  if !x.supply.vfab then s
  else if epoch < s.plate.master then s.lateCommand f epoch
  else s.setField f { x with island := { x.island with epochLoad := some epoch } }

/-- A SEAM group enters reset: nothing of its FIFOs, of its stretch wires or of a pending alignment stays (R254). -/
def Seam.reset (x : Seam) : Seam := { x with released := false, alignAt := none, wptr := 0, rptr := 10, sigma0 := [], shifts := [], overrun := [] }
/-- The seams of a field enter reset. -/
def State.seamsReset (s : State) (f : Nat) : State := (seamsOf f).foldl (fun s p => s.modSeam p.1 (fun x => { x.reset with tries := 0 })) s

/-- The FREF edge E of an alignment (R256 step 3): both sides leave reset, the pointers start, the lower field's stretch count goes to the
higher one. -/
def State.seamRelease (s : State) (n : Nat) : State :=
  let e := seamEnds n
  let st := (s.field e.1).island.st
  (s.modField e.2 (fun x => { x with island := { x.island with st := st } })).modSeam n (fun x =>
    { x.reset with released := true, alignAt := x.alignAt })
/-- The separations that the readers' monitors record, against the design value 6 (R256 steps 4 and 5): is each within 1 of it? -/
def sigmasOk (sigmas : List Int) : Bool := sigmas.all (fun v => decide ((v - 6).natAbs ≤ 1))
def sigmaMap (sigmas : List Int) : Sparse Int := (enumFrom 0 sigmas).foldl (fun m e => Sparse.set 6 m e.1 e.2) []
/-- The checks of an alignment pass: the separations stand as sigma0, the attempts are over. -/
def Seam.checked (x : Seam) (sigmas : List Int) : Seam := { x with alignAt := none, tries := 0, sigma0 := sigmaMap sigmas }
/-- An alignment that the Cellarmaster carries through in its own time (raising, parcel.create, resume, rollback): steps 2 to 5 of R256. -/
def State.seamAligned (s : State) (n : Nat) (sigmas : List Int) : State := (s.seamRelease n).modSeam n (fun x => x.checked sigmas)

/-- Is landing stopped for a cask (15 R328, PRT_LAND with LIMIT 0, which acts on LAND slots: while its parcel runs)? -/
def State.landStopped (s : State) (c : Nat) : Bool :=
  match s.parcelOfCask c with
  | some p => s.prtFor p && s.prt.land.getLsbD 31 && decide (s.prt.land.toNat % 256 = 0) && (s.parcel p).running
  | none => false

/-- The frame of a cask's schedule at its parcel's count, and whether it lies in a window of a kind (09 R191): the schedule repeats from frame 0,
backward too. -/
def Cask.inWindow (k : Cask) (count : Int) (rest : Bool) : Bool :=
  let n := ((Int.fdiv count 9).emod k.period).toNat
  decide (k.period ≠ 0) && k.windows.any (fun w => decide (w.rest = rest) && decide (w.first ≤ n) && decide (n < w.first + w.len))
/-- Does the parcel's count stand stopped with no vintage draw running (09 R194, 11 R237)? -/
def Inv.stoodStill (i : Inv) : Bool := match i.stop with
  | some t => t.reached && (!t.why.vintage || t.drawn)
  | none => false
/-- May the gateway reach a cask now (09 R195, R196)? Between invocations in every frame; while one runs in LAND frames and in a stop that no
draw uses. A parcel that waits for its start runs nothing yet. -/
def State.gwOpen (s : State) (c : Nat) : Bool :=
  match s.parcelOfCask c with
  | some p => match (s.parcel p).inv with
    | some i => !i.started || i.stoodStill || ((s.cask c).inWindow (s.parcelCount p) false && !s.landStopped c)
    | none => true
  | none => true
/-- May background work run in a cask now (09 R192, R194, R198, R199)? -/
def State.restNow (s : State) (c : Nat) : Bool :=
  match s.parcelOfCask c with
  | some p => match (s.parcel p).inv with
    | some i => !i.started || i.stoodStill || (s.cask c).inWindow (s.parcelCount p) true
    | none => true
  | none => true

end Sys2Proof.Machine
end

