-- ==== Sys2Proof/Machine/PortOps.lean ====
section
/-! DEFINITION. Host ports and answers: an answer's bytes and where they go (17 R357, 18 R370, R371, R401), port resets (17 R368),
the loss of a port's link. -/

namespace Sys2Proof.Machine
open Sys2Proof

/-- What the Cellarmaster answers. -/
structure Ans where
  status : Nat
  payload : Bytes := []
  cutDone : Nat := 0
  cutFail : Nat := 0xFFFF
  deriving DecidableEq, Repr

def Ans.ok : Ans := { status := 0 }
def Ans.err (n : Nat) : Ans := { status := n }

/-- Status codes that several families use (18 R374, 17 R369). -/
def eMalformed : Nat := 0x0001
def eUnknownMsg : Nat := 0x0002
def eNoFeature : Nat := 0x0003
def eNoParcel : Nat := 0x0004
def eNotReady : Nat := 0x0005
def eCmstDegraded : Nat := 0x0006

def requesterTag : Requester → DWord
  | .slot _ _ t => t
  | .entry _ _ _ _ t => t
  | .sideband _ t => t

/-- The answer header of R371 with its payload. -/
def answerBytes (msg parcel : Nat) (tag : DWord) (arrived done : Nat) (a : Ans) : Bytes :=
  natLe 2 msg ++ [1#8, 0#8] ++ natLe 2 a.payload.length ++ [BitVec.ofNat 8 parcel, 0#8] ++ natLe 8 tag.toNat ++ natLe 2 a.status ++
    natLe 2 a.cutDone ++ natLe 2 a.cutFail ++ [0#8, 0#8] ++ natLe 8 arrived ++ natLe 8 done ++ zeroBytes 24 ++ a.payload

/-- What the device writes back to bytes 32 to 39 of a cut-list entry when it ends (R362). -/
def writeBack (status moved : Nat) : Bytes := natLe 2 status ++ [0#8, 0#8] ++ natLe 4 moved

/-- Offset of a slot's bytes in a port's slot memory (R352, R357). -/
def slotAt (n : Nat) : Nat := 4096 * n

/-- The answer of a slot's request (R357 steps 3 and 4): the bytes, OWN, GEN, MBX_DONE, the vector. -/
def State.answerSlot (s : State) (p n : Nat) (bytes : Bytes) : State :=
  (s.modPort p (fun q =>
    { q with slots := q.slots.writeBytes (slotAt n) bytes
             own := q.own &&& ~~~(BitVec.ofNat 64 (2 ^ n))
             gen := Sparse.set 0 q.gen n ((Sparse.get 0 q.gen n + 1) % 256)
             done := q.done ||| BitVec.ofNat 64 (2 ^ n) })).vector p n

/-- An answer goes back to where its request came from (R357, R362, R401); none when a port reset has discarded it (R368). -/
def State.answer (s : State) (rq : Option Requester) (msg parcel arrived : Nat) (a : Ans) : State :=
  match rq with
  | none => s
  | some r =>
    let bs := answerBytes msg parcel (requesterTag r) arrived s.plate.wall.toNat a
    match r with
    | .slot p n _ => s.answerSlot p n bs
    | .entry p _ haddr addr _ => (s.emitPort p (.dmaWrite p haddr bs)).emitPort p (.dmaWrite p (addr + 32) (writeBack a.status 0))
    | .sideband eid _ => s.emit (.sideband eid bs)

/-- Put a request's answer off until an event. -/
def State.await (s : State) (rq : Requester) (msg parcel : Nat) (w : WaitFor) : State :=
  { s with waits := s.waits ++ [{ rq := some rq, msg := msg, parcel := parcel, arrivedNs := s.plate.wall.toNat, what := w }] }

/-- Answer every wait that a test picks. -/
def State.answerWaits (s : State) (pick : Wait → Bool) (a : Ans) : State :=
  let ws := s.waits.filter pick
  ws.foldl (fun s w => s.answer w.rq w.msg w.parcel w.arrivedNs a) { s with waits := s.waits.filter (fun w => !pick w) }

/-- A request that waits no longer has a place for its answer. -/
def dropRequester (p : Nat) (w : Wait) : Wait :=
  match w.rq with
  | some (.slot q _ _) => if q = p then { w with rq := none } else w
  | some (.entry q _ _ _ _) => if q = p then { w with rq := none } else w
  | _ => w

/-- Does the port decode its BARs (17 R351)? -/
def State.portLive (s : State) (p : Nat) : Bool := (s.port p).linkUp && !(s.port p).d3hot && !s.plate.plateReset

/-- Does a write of a port wait for posted-write credits (R355)? Its later writes then wait behind it. -/
def State.noCredits (s : State) (p : Nat) : Bool := s.held.any (fun h => h.write && decide (h.port = some p))
/-- A write of a port waits for credits. -/
def State.holdWrite (s : State) (p : Nat) (i : Instr) : State := { s with held := s.held ++ [{ port := some p, slot := none, write := true, keys := [], now := false, cmd := i }] }
/-- Must a write of a port to BAR0 wait behind one that waits for credits (R355)? -/
def State.writeHeld (s : State) (p : Nat) : Bool := decide (s.turn = 0) && s.portLive p && s.noCredits p

/-- What every reset of a port clears (R368): MSI-X, events, slots, pages, TEL_PORT_ERR, MBX_DROPPED; answers not yet read; writes and requests
that have not been taken up. -/
def State.portClear (s : State) (p : Nat) : State :=
  let q := s.port p
  let s := s.setPort p { Port.init with linkUp := q.linkUp, perst := q.perst, speed := q.speed, width := q.width, refmode := q.refmode, refLost := q.refLost }
  { s with waits := s.waits.map (dropRequester p), gwOrder := s.gwOrder.filter (fun k => decide (k ≠ p)), held := s.held.filter (fun h => decide (h.port ≠ some p)) }

/-- The link of a port goes down (R368, 12 R254): its crossings enter reset. -/
def State.portDown (s : State) (p : Nat) : State :=
  (s.portClear p).modPort p (fun q => { q with linkUp := false, speed := 0, width := 0 })

/-- The reference choice of R350: the cable's REFCLK, the module's oscillator unless it is lost (23 R489), FREF. -/
def State.refChoice (s : State) (refclk : Bool) : Nat := if refclk then 0 else if !s.plate.oscLost then 1 else 2

/-- Is the port the principal (16 R330)? -/
def State.isPrincipal (s : State) (p : Nat) : Bool := decide (s.raising.owner = some p)

/-- Limits of the installed licence (2 R2, 21 R453); none installed: no field, no parcel, no lane, park level. -/
def State.licFields (s : State) : Nat := (s.sealU.licence.map (fun l => l.fields)).getD 0
def State.licParcels (s : State) : Nat := (s.sealU.licence.map (fun l => l.parcels)).getD 0
def State.licLanes (s : State) : Nat := (s.sealU.licence.map (fun l => l.tapLanes)).getD 0
def State.licPower (s : State) : Nat := (s.sealU.licence.map (fun l => l.powerMax)).getD 0
def State.licFeatures (s : State) : Nat := (s.sealU.licence.map (fun l => l.features)).getD 0
def State.hasFeature (s : State) (k : Nat) : Bool := bitsOf s.licFeatures k 1 == 1

/-- Every tap link goes down (12 R249); the parcels that hold the ports see cause 0x5 for a link that was up (17 R361). -/
def State.tapOwner (s : State) (t : Nat) : Option Nat := (List.range 4).find? (fun p => (s.parcel p).live && (s.parcel p).taps.getLsbD t)
def State.subDown (s : State) (t u : Nat) : State :=
  let l := Sparse.get SubLink.init (s.tap t).subs u
  if l.link then
    let s := s.modTap t (fun x => { x with subs := Sparse.set SubLink.init x.subs u { l with link := false, neigh := [] } })
    match s.tapOwner t with
    | some p => s.eventOwner p 5
    | none => s
  else s
def State.tapDown (s : State) (t : Nat) : State := (List.range 4).foldl (fun s u => s.subDown t u) s

end Sys2Proof.Machine
end

