-- ==== Sys2Proof/Machine/SubOps.lean ====
section
/-! DEFINITION. Sub-links of the tap ports: their state, addresses and counters, and frames sent (19 R403-R408, R418). -/

namespace Sys2Proof.Machine
open Sys2Proof

def State.subLink (s : State) (t u : Nat) : SubLink := Sparse.get SubLink.init (s.tap t).subs u
def State.modSub (s : State) (t u : Nat) (f : SubLink → SubLink) : State :=
  s.modTap t (fun x => { x with subs := Sparse.modify SubLink.init x.subs u f })
/- Counters of a sub-link, in the order of R418. -/
def skFecCorrected : Nat := 0
def skFecUncorrected : Nat := 1
def skFramesIn : Nat := 2
def skFramesOut : Nat := 3
def skRxDiscard : Nat := 4
def State.subCount (s : State) (t u i k : Nat) : State := s.modSub t u (fun l => { l with cnt := bump l.cnt i k })
def State.rxDiscard (s : State) (t u : Nat) : State := s.subCount t u skRxDiscard 1

/-- An address with k added to its last octet modulo 256 (R404). -/
def addrPlus (a k : Nat) : Nat := a / 256 * 256 + (a + k) % 256
def Tap.subMac (x : Tap) (u : Nat) : BitVec 48 := BitVec.ofNat 48 (addrPlus x.mac.toNat u)
def Tap.subIpv6 (x : Tap) (u : Nat) : BitVec 128 := BitVec.ofNat 128 (addrPlus x.ipv6.toNat u)
def Tap.subIpv4 (x : Tap) (u : Nat) : BitVec 32 := BitVec.ofNat 32 (addrPlus x.ipv4.toNat u)
/-- An all-zero address disables its protocol on the port (R404). -/
def Tap.speaks (x : Tap) (ip : BitVec 128) : Bool := if isMapped4 ip then decide (x.ipv4 ≠ 0#32) else decide (x.ipv6 ≠ 0#128)

/-- A frame leaves on a sub-link that is up, and FRAMES_OUT counts it (R418). -/
def State.sendOut (s : State) (t u : Nat) (o : OutEv) : State := if (s.subLink t u).link then (s.emit o).subCount t u skFramesOut 1 else s
def State.sendUdp (s : State) (t u : Nat) (ip : BitVec 128) (sport dport : Nat) (payload : Bytes) : State :=
  if (s.tap t).speaks ip then s.sendOut t u (.datagram t u ip sport dport payload) else s

end Sys2Proof.Machine
end

