-- ==== Sys2Proof/Machine/PourOps.lean ====
section
/-! DEFINITION. Operations of the Pour service: frames to clients, pages and the page map, the composition of a step, the end of a
sequence and of the service (20 R422-R440). -/

namespace Sys2Proof.Machine
open Sys2Proof

/-- Lengths and codes of R422 and R423. -/
def pourFrame (type id : Nat) (payload : Bytes) : Bytes :=
  let b := natLe 2 0x5250 ++ natLe 1 1 ++ natLe 1 type ++ natLe 4 payload.length ++ natLe 8 id ++ payload
  b ++ natLe 4 (crc32c b).toNat

/-- The sub-link a service sends on when a request came from a cut list: the lowest of its ports' whose link is up (R426). -/
def State.pourSub (s : State) (x : Pour) : Option (Nat × Nat) :=
  ((List.range 8).flatMap (fun t => (List.range 4).map (fun u => (t, u)))).find? (fun e => x.taps.getLsbD e.1 && (s.subLink e.1 e.2).link)
/-- The sub-link of a sequence's frames. -/
def State.seqSub (s : State) (x : Pour) (src : PourSource) : Option (Nat × Nat) :=
  match src with
  | .datagram t u _ _ => some (t, u)
  | .cutList _ => s.pourSub x
/-- The reply address of a sequence (R424). -/
def PourSeq.reply (q : PourSeq) : BitVec 128 × Nat :=
  if q.replyIp ≠ 0#128 then (q.replyIp, q.replyPort)
  else match q.src with
    | .datagram _ _ ip sport => (ip, sport)
    | .cutList _ => (0#128, 0)
/-- A frame for a sequence goes to its reply address; one that finds its link down is dropped (R426). -/
def State.pourSend (s : State) (p : Nat) (q : PourSeq) (type : Nat) (payload : Bytes) : State :=
  let x := (s.parcel p).pour
  match s.seqSub x q.src with
  | some (t, u) => s.sendUdp t u q.reply.1 x.udpPort q.reply.2 (pourFrame type q.id payload)
  | none => s
/-- REFUSE goes to the sender of a datagram (R425). -/
def State.pourRefuse (s : State) (p : Nat) (src : PourSource) (id reason detail : Nat) : State :=
  match src with
  | .datagram t u ip sport => s.sendUdp t u ip (s.parcel p).pour.udpPort sport (pourFrame 0x16 id (natLe 1 reason ++ zeroBytes 3 ++ natLe 4 detail))
  | .cutList _ => s

def PourSeq.active (q : PourSeq) : Bool := decide (q.st = .prefill) || decide (q.st = .decode)
/-- Positions whose token is known, and those still to be computed. -/
def PourSeq.known (q : PourSeq) : Nat := q.nprompt + q.tokens.length
def PourSeq.remaining (q : PourSeq) : Nat := q.known - q.done
/-- The token at a position. -/
def PourSeq.tokenAt (q : PourSeq) (pos : Nat) : Nat := if pos < q.nprompt then (Sparse.get none q.prompt pos).getD 0 else q.tokens.getD (pos - q.nprompt) 0
def PourSeq.tokenBytes (q : PourSeq) : Bytes := q.tokens.flatMap (natLe 4)
def Pour.modSeq (x : Pour) (id : Nat) (f : PourSeq → PourSeq) : Pour := { x with seqs := x.seqs.map (fun q => if q.id = id then f q else q) }
def Pour.find (x : Pour) (id : Nat) : Option PourSeq := x.seqs.find? (fun q => q.id = id)
/-- A step is in progress: the parcel's invocation is the service's. -/
def Parcel.stepping (q : Parcel) : Bool := match q.inv with
  | some i => i.ofPour
  | none => false
def Parcel.decl (q : Parcel) : Option PourDecl := q.image.bind (fun m => m.pour)

/-- The entries of a slot in the page map (R430): MAX_BLOCKS × NSETS numbers, 0xFFFF_FFFF for a page not allocated. -/
def slotMap (d : PourDecl) (pages : List (Nat × Nat × Nat)) : Bytes :=
  (List.range d.maxBlocks).flatMap (fun b => (List.range d.nsets).flatMap (fun j =>
    natLe 4 (((pages.find? (fun e => decide (e.1 = b) && decide (e.2.1 = j))).map (fun e => e.2.2)).getD 0xFFFFFFFF)))
def Pour.slotPages (x : Pour) (k : Nat) : List (Nat × Nat × Nat) := ((x.seqs.find? (fun q => q.active && decide (q.slot = k))).map (fun q => q.pages)).getD []
/-- A write of firmware at a cask offset in DADDR form (R428). -/
def State.pourWrite (s : State) (p a : Nat) (data : Bytes) : State :=
  match (s.parcel p).absCask (daddrCask a) with
  | some c => s.fwWrite c (daddrOff a) data
  | none => s
def State.pourRead (s : State) (p a n : Nat) : Bytes :=
  match (s.parcel p).absCask (daddrCask a) with
  | some c => ((s.gwRead c (daddrOff a) n).map (fun r => r.1)).getD (zeroBytes n)
  | none => zeroBytes n
/-- The service changes, and the page map with it where a slot's pages have changed (R431). -/
def State.setPour (s : State) (p : Nat) (new : Pour) : State :=
  let old := (s.parcel p).pour
  let s := s.modParcel p (fun q => { q with pour := new })
  match (s.parcel p).decl with
  | none => s
  | some d => (List.range (max old.maxSeq new.maxSeq)).foldl (fun (s : State) k =>
      if old.slotPages k = new.slotPages k then s
      else s.pourWrite p (d.pageMap + 4 * (k * d.maxBlocks * d.nsets)) (slotMap d (new.slotPages k))) s

/-- Page numbers in use in a relative cask's pool, and the lowest free one (R431). -/
def Pour.usedIn (x : Pour) (d : PourDecl) (c : Nat) : List Nat :=
  x.seqs.flatMap (fun q => (q.pages.filter (fun e => decide (d.setCask.getD e.2.1 0 = c))).map (fun e => e.2.2))
def Pour.lowestFree (x : Pour) (d : PourDecl) (c : Nat) : Option Nat :=
  let used := x.usedIn d c
  (List.range (min (d.pool.getD c (0, 0)).2 (used.length + 1))).find? (fun n => !used.contains n)
/-- Free pages over every pool (R440). -/
def Pour.pagesFree (x : Pour) (d : PourDecl) : Nat :=
  (d.pool.foldl (fun n e => n + e.2) 0) - (x.seqs.foldl (fun n q => n + q.pages.length) 0)
/-- One page in each set's pool for a block of a sequence (R431). -/
def allocBlock (d : PourDecl) (id b : Nat) (x : Pour) : Option Pour :=
  (List.range d.nsets).foldl (fun (o : Option Pour) j => o.bind (fun x =>
    (x.lowestFree d (d.setCask.getD j 0)).map (fun n => x.modSeq id (fun q => { q with pages := q.pages ++ [(b, j, n)] })))) (some x)
/-- Pages for the blocks that rows first .. first+n-1 of a sequence enter for the first time. -/
def allocRows (d : PourDecl) (id first n : Nat) (x : Pour) : Option Pour :=
  let have_ := ((x.find id).map (fun q => q.pages.map (fun e => e.1))).getD []
  let blocks := ((List.range n).map (fun i => (first + i) / d.rowsPerPage)).eraseDups.filter (fun b => !have_.contains b)
  blocks.foldl (fun (o : Option Pour) b => o.bind (allocBlock d id b)) (some x)
/-- The most recently admitted active sequence that holds pages (R432). -/
def Pour.evictee (x : Pour) : Option PourSeq :=
  (x.seqs.filter (fun q => q.active && decide (q.pages ≠ []))).foldl (fun b q => match b with
    | some y => if y.admitted < q.admitted then some q else b
    | none => some q) none
/-- An evicted sequence loses its slot and its pages and returns to the queue (R432). -/
def PourSeq.evicted (q : PourSeq) : PourSeq := { q with st := .queued, pages := [], slot := 0, done := 0, rowAt := none }
/-- A pool gives a sequence its pages, evicting while it lacks one (R432). The fuel is the number of sequences. -/
def allocEvict (d : PourDecl) (id first n : Nat) : Nat → Pour → Pour
  | 0, x => x
  | k + 1, x =>
    if ((x.find id).map PourSeq.active).getD false then
      match allocRows d id first n x with
      | some y => y
      | none => match x.evictee with
        | some v => allocEvict d id first n k (x.modSeq v.id PourSeq.evicted)
        | none => x
    else x

/-- The rows of a step so far: sequences with their number of rows, in the order of the step table. -/
abbrev Rows := List (Nat × Nat)
def rowsUsed (r : Rows) : Nat := r.foldl (fun n e => n + e.2) 0
/-- Step 1 of R427: each DECODE sequence gets one row, those served longest ago first. -/
def decodeRows (d : PourDecl) (x : Pour) : Rows :=
  let l := (x.seqs.filter (fun q => decide (q.st = .decode))).mergeSort (fun a b =>
    decide (a.served < b.served) || (decide (a.served = b.served) && decide (a.admitted ≤ b.admitted)))
  (l.take d.rows).map (fun q => (q.id, 1))
/-- Step 2: each PREFILL sequence in admission order, when its rows remain free. -/
def prefillRows (d : PourDecl) (x : Pour) (rows : Rows) : Rows :=
  let l := (x.seqs.filter (fun q => decide (q.st = .prefill))).mergeSort (fun a b => decide (a.admitted ≤ b.admitted))
  l.foldl (fun rows q =>
    let n := min d.prefillRows q.remaining
    if rowsUsed rows + n ≤ d.rows then rows ++ [(q.id, n)] else rows) rows
/-- The queue: evicted sequences in admission order, then requests in the order of their arrival (R427, R432). -/
def Pour.queue (x : Pour) : List PourSeq :=
  let w := x.seqs.filter (fun q => decide (q.st = .queued))
  (w.filter (fun q => decide (q.admitted ≠ 0))).mergeSort (fun a b => decide (a.admitted ≤ b.admitted)) ++ w.filter (fun q => decide (q.admitted = 0))
/-- The lowest free slot. -/
def Pour.freeSlot (x : Pour) : Option Nat := (List.range x.maxSeq).find? (fun k => !x.seqs.any (fun q => q.active && decide (q.slot = k)))
/-- Step 3: admission in queue order while a slot, the rows and the pages are free. -/
def admitGo (d : PourDecl) : List PourSeq → Pour × Rows → Pour × Rows
  | [], r => r
  | q :: qs, (x, rows) =>
    let n := min d.prefillRows q.remaining
    match x.freeSlot with
    | none => (x, rows)
    | some k =>
      if d.rows < rowsUsed rows + n then (x, rows)
      else
        let y := { x.modSeq q.id (fun q => { q with st := .prefill, slot := k, admitted := x.nextOrder, done := 0 }) with nextOrder := x.nextOrder + 1 }
        match allocRows d q.id 0 n y with
        | some z => admitGo d qs (z, rows ++ [(q.id, n)])
        | none => (x, rows)
/-- Number the rows. -/
def numberRows : Rows → Nat → Pour → Pour
  | [], _, x => x
  | (id, n) :: r, at_, x => numberRows r (at_ + n) (x.modSeq id (fun q => { q with rowAt := some (at_, n), served := x.steps + 1 }))
/-- The composition of a step (R427, R431, R432). -/
def composeStep (d : PourDecl) (x : Pour) : Pour :=
  let rows := prefillRows d x (decodeRows d x)
  let y := rows.foldl (fun (x : Pour) e =>
    let first := ((x.find e.1).map (fun q => q.done)).getD 0
    allocEvict d e.1 first e.2 (x.seqs.length + 1) x) { x with seqs := x.seqs.map (fun q => { q with rowAt := none }) }
  let rows := rows.filter (fun e => ((y.find e.1).map PourSeq.active).getD false)
  let r := admitGo d y.queue (y, rows)
  numberRows r.2 0 r.1

/-- An entry of the step table (R428). -/
def PourSeq.rowBytes (q : PourSeq) (i : Nat) : Bytes :=
  let pos := q.done + i
  natLe 4 (q.tokenAt pos) ++ natLe 4 pos ++ natLe 2 q.slot ++ natLe 2 (1 + if pos + 1 = q.known then 2 else 0) ++ natLe 4 q.temp ++ natLe 4 q.topP ++ natLe 4 q.topK ++
    natLe 8 q.seed
def unusedRow : Bytes := zeroBytes 8 ++ natLe 2 0xFFFF ++ zeroBytes 22
def Pour.tableBytes (x : Pour) (d : PourDecl) : Bytes :=
  (List.range d.rows).flatMap (fun r =>
    match x.seqs.find? (fun q => match q.rowAt with
      | some (f, n) => decide (f ≤ r) && decide (r < f + n)
      | none => false) with
    | some q => q.rowBytes (r - (q.rowAt.map (fun e => e.1)).getD 0)
    | none => unusedRow)

/-- END (R423, R434). -/
def PourSeq.endBytes (q : PourSeq) (reason : Nat) (labelled : Bool) : Bytes :=
  natLe 1 reason ++ natLe 1 (if labelled then 1 else 0) ++ zeroBytes 2 ++ natLe 4 q.tokens.length ++ sha384 q.tokenBytes ++ zeroBytes 8
/-- A sequence ends: END goes out, its slot and pages are free, and the last 65,536 ended are kept (R427, R434). -/
def State.pourEnd (s : State) (p : Nat) (q : PourSeq) (reason : Nat) (label : Option Bytes) : State :=
  let s := s.pourSend p q 0x13 (q.endBytes reason label.isSome)
  let x := (s.parcel p).pour
  let k := x.kept ++ [{ q with st := .ended, reason := reason, label := label, waits := (label.map (fun b => b.leAt 6 2 % 2 == 1)).getD false, pages := [], rowAt := none }]
  s.setPour p { x with seqs := x.seqs.filter (fun y => decide (y.id ≠ q.id)), kept := k.drop (k.length - 65536) }
/-- Every queued and active sequence ends with a reason and no label; a request that is not complete is dropped. -/
def State.pourEndAll (s : State) (p reason : Nat) : State :=
  let s := ((s.parcel p).pour.seqs.filter (fun q => decide (q.st ≠ .incomplete))).foldl (fun (s : State) q => s.pourEnd p q reason none) s
  s.setPour p { (s.parcel p).pour with seqs := [] }
/-- The service is over (R437): event cause 0x4, and the answers of the stops that wait. -/
def State.pourOver (s : State) (p : Nat) : State :=
  let s := (s.setPour p { (s.parcel p).pour with serving := false, draining := false, stopping := false, seqs := [] }).eventOwner p 4
  s.answerWaits (fun w => decide (w.parcel = p) && decide (w.what = .pourStop)) Ans.ok
/-- The answers of pour.cancel that wait for the step boundary (18 R397): CANCELLED, or 0 where the service failed first. -/
def State.answerCancels (s : State) (p : Nat) (took : Bool) : State :=
  (s.waits.filter (fun w => decide (w.parcel = p))).foldl (fun (s : State) w => match w.what with
    | .pourCancel n => s.answerWaits (fun v => decide (v = w)) { status := 0, payload := natLe 4 (if took then n else 0) }
    | _ => s) s
/-- The failure of a step stops the service (R439). -/
def State.pourFails (s : State) (p : Nat) : State := if (s.parcel p).pour.serving then ((s.pourEndAll p 5).answerCancels p false).pourOver p else s

end Sys2Proof.Machine
end

