-- ==== Sys2Proof/Machine/ImageOps.lean ====
section
/-! DEFINITION. Reading a Eukin image's container (22 R458-R476) and writing what it gives each bay (06 R106, 08 R170, R171). -/

namespace Sys2Proof.Machine
open Sys2Proof

/-- A directory entry (R460). -/
structure Sect where
  type : Nat
  rsv : Nat
  count : Nat
  off : Nat
  len : Nat
  digest : Nat
  deriving DecidableEq, Repr

def imgNsect (bs : Bytes) : Nat := bs.leAt 12 4
def imgTotal (bs : Bytes) : Nat := bs.leAt 16 8
def imgSect (bs : Bytes) (i : Nat) : Sect :=
  let o := 64 + 72 * i
  { type := bs.leAt o 2, rsv := bs.leAt (o + 2) 2, count := bs.leAt (o + 4) 4, off := bs.leAt (o + 8) 8, len := bs.leAt (o + 16) 8
    digest := bs.leAt (o + 24) 48 }
def imgDir (bs : Bytes) : List Sect := (List.range (imgNsect bs)).map (imgSect bs)
def imgFind (bs : Bytes) (t : Nat) : Option Sect := (imgDir bs).find? (fun s => s.type = t)
/-- The image digest of R462. -/
def imgDigest (bs : Bytes) : BitVec 384 := sha384Val (bs.take (64 + 72 * imgNsect bs))

/-- A targeted record (R465): its header, and where its items lie. -/
structure Rec where
  at_ : Nat
  dkind : Nat
  a : Nat
  b : Nat
  rsv : Nat
  first : Nat
  n : Nat
  deriving DecidableEq, Repr

/-- The records of a section whose items take size bytes. -/
def imgRecords (bs : Bytes) (size : Nat) : Nat → Nat → List Rec
  | 0, _ => []
  | k + 1, o =>
    let r : Rec := { at_ := o, dkind := bs.leAt o 1, a := bs.leAt (o + 1) 1, b := bs.leAt (o + 2) 1, rsv := bs.leAt (o + 3) 1 + bs.leAt (o + 12) 4
                     first := bs.leAt (o + 4) 4, n := bs.leAt (o + 8) 4 }
    r :: imgRecords bs size k (o + 16 + size * r.n)
/-- The records of section type t. -/
def imgRecs (bs : Bytes) (t size : Nat) : List Rec := match imgFind bs t with
  | some s => imgRecords bs size s.count s.off
  | none => []

/-- Item sizes of R465: PLAN, PEGTAB, ROUTE, SILLDESC. -/
def itemSize : Nat → Nat
  | 2 => 32
  | 3 => 4
  | 5 => 16
  | _ => 64

/-- Does a record reach the bay at relative (x, y) with these groups? -/
def Rec.hits (r : Rec) (groups : DWord) (x y : Nat) : Bool :=
  if r.dkind = 0 then decide (r.a = x) && decide (r.b = y) else groups.getLsbD r.a

/-- Write items into a store from an index upward; indices at or past the store's size hold nothing. -/
def storeItems {α : Type} [DecidableEq α] (d : α) (size : Nat) : Sparse α → Nat → List α → Sparse α
  | m, _, [] => m
  | m, k, v :: vs => storeItems d size (if k < size then Sparse.set d m k v else m) (k + 1) vs

/-- The store that a section's records give a bay. -/
def imgStore {α : Type} [DecidableEq α] (bs : Bytes) (t : Nat) (d : α) (size : Nat) (item : Bytes → α) (groups : DWord) (x y : Nat) : Sparse α :=
  ((imgRecs bs t (itemSize t)).filter (fun r => r.hits groups x y)).foldl (fun m r =>
    storeItems d size m r.first ((List.range r.n).map (fun i => item (bs.slice (r.at_ + 16 + itemSize t * i) (itemSize t))))) []

/-- A route table entry (08 R154). -/
def routeOf (bs : Bytes) : RouteEnt :=
  { kind := bs.leAt 0 1, yx := bs.leAt 1 1 == 1, nflits := bs.leAt 2 2, peerX := bs.leAt 4 1, peerY := bs.leAt 5 1, lambda := bs.leAt 6 2
    routeId := bs.leAt 8 2 }
/-- A sill descriptor (10 R204). -/
def descOf (bs : Bytes) : SillDesc :=
  { opk := bs.leAt 0 1, cask := bs.leAt 1 1, rho := bs.leAt 2 1, opt := bs.leAt 3 1, inl := bs.leAt 4 2, outl := bs.leAt 6 2, n := bs.leAt 8 4
    rb := bs.leAt 12 4, a := bs.leAt 16 8, b := bs.leAt 24 8, c := bs.leAt 32 8, fmtA := BitVec.ofNat 4 (bs.leAt 40 1)
    fmtB := BitVec.ofNat 4 (bs.leAt 40 1 / 16), mode := bs.leAt 41 1, e := bs.leAt 42 2, anchA := signedOf 9 (bs.leAt 44 2)
    anchB := signedOf 9 (bs.leAt 46 2), scale := BitVec.ofNat 32 (bs.leAt 48 4), pattern := BitVec.ofNat 32 (bs.leAt 52 4), t := bs.leAt 56 4 }

/-- A bay's PLACE entry (R464). -/
structure Place where
  body : Nat
  prologue : Nat
  groups : DWord
  resident : DWord
  deriving DecidableEq, Repr
def imgPlace (bs : Bytes) (cols x y : Nat) : Place :=
  let o := (match imgFind bs 1 with
    | some s => s.off
    | none => 0) + 32 * (y * (12 * cols) + x)
  { body := bs.leAt o 2, prologue := bs.leAt (o + 2) 2, groups := BitVec.ofNat 64 (bs.leAt (o + 8) 8), resident := BitVec.ofNat 64 (bs.leAt (o + 16) 8) }

/-- A CRC-32C carried on over more bytes (06 R123, 08 R171). -/
def crcMore (c : Word) (bs : Bytes) : Word := ~~~crcRun (~~~c) bs
/-- The LOAD_CRC that an image gives a bay: over its bundles in order (08 R171). -/
def imgLoadCrc (bs : Bytes) (groups : DWord) (x y : Nat) : Word :=
  ((imgRecs bs 2 32).filter (fun r => r.hits groups x y)).foldl (fun c r => crcMore c (bs.slice (r.at_ + 16) (32 * r.n))) 0#32

/-- What an image writes into a bay (06 R106, 08 R170, R171): plan store, digest table, routes, descriptors, groups. -/
def imgBay (bs : Bytes) (cols x y : Nat) (b : Bay) : Bay :=
  let pl := imgPlace bs cols x y
  { b with
    plan := imgStore bs 2 0#256 16384 (fun w => BitVec.ofNat 256 (leNat w)) pl.groups x y
    pegtab := imgStore bs 3 0#32 4096 (fun w => BitVec.ofNat 32 (leNat w)) pl.groups x y
    routes := imgStore bs 5 RouteEnt.none 1024 routeOf pl.groups x y
    descs := imgStore bs 6 SillDesc.none 4096 descOf pl.groups x y
    lath := { groups := pl.groups, loadCrc := imgLoadCrc bs pl.groups x y }
    seq := { b.seq with bodyEntry := BitVec.ofNat 14 pl.body }
    vat := { b.vat with residentMask := pl.resident } }

/-- Write an image's plans into every bay of its parcel. -/
def State.loadBays (s : State) (p : Nat) (m : Image) : State :=
  let q := s.parcel p
  q.bays.foldl (fun s b => s.modBay b (imgBay m.bytes q.w (b.x - 12 * q.c0) (b.y - 12 * q.r0))) s

end Sys2Proof.Machine
end

