-- ==== Sys2Proof/Machine/Units.lean ====
section
/-! DEFINITION. Units that fail: the loss of a field's power, suspect counts, sistering, stave and cask escalation, steered wires, retired
seams (01 R13, 08 R158, R163, 13 R269-R273, 15 R316-R318, 16 R337). -/

namespace Sys2Proof.Machine
open Sys2Proof

/-- A bay whose field's VFAB is off holds nothing but its event counters, which only module reset clears (05 R101, 06 R106). -/
def Bay.dark (b : Bay) : Bay := { Bay.init with counters := b.counters }

/-- A field's VFAB goes down (13 R269): its bays hold nothing, its seams and its casks' ports enter reset, the casks go into
self-refresh (01 R13, 12 R254). -/
def State.vfabDown (s : State) (f : Nat) : State :=
  let s := (fieldBays f).foldl (fun s b => s.modBay b (fun x => x.dark)) s
  let s := s.seamsReset f
  let s := s.modField f (fun x => { x with supply := { x.supply with vfab := false, mv := 0 }, island := Island.init, cellarUp := false })
  [2 * f, 2 * f + 1].foldl (fun s c => s.modCask c (fun k => { k with portUp := false, selfRefresh := k.rails })) s

/-- A field leaves the RAISED state for another that has VFAB off (16 R337). -/
def State.fieldOff (s : State) (f : Nat) (st : FState) : State := (s.vfabDown f).modField f (fun x => { x with st := st })
/-- A field fails at run time: it stays FAILED until module reset, and its calibration is discarded (16 R337, R346). -/
def State.fieldFails (s : State) (f : Nat) : State := (s.fieldOff f .failed).modField f (fun x => { x with failRaise := false, calib := false })

/-- A suspect count takes one attributed fault at a peg clock (R316). -/
def Suspect.bump (x : Suspect) (clock : Nat) : Suspect :=
  { n := if 1000000 < clock - x.last then 1 else x.n + 1, last := clock }

def State.modBent (s : State) (f b : Nat) (g : Bent → Bent) : State :=
  s.modField f (fun x => { x with bents := Sparse.set Bent.init x.bents b (g (Sparse.get Bent.init x.bents b)) })

/-- Mark what firmware did about an entry (R325 ACTION). -/
def State.setAction (s : State) (seq action : Nat) : State :=
  { s with flog := { s.flog with ring := s.flog.ring.map (fun e => if e.seq = seq then { e with action := action } else e) } }

/-- Sister a bay (R318). The second result: was the spare position free? The bay is recorded as a hole either way. -/
def State.sister (s : State) (b : BayId) : State × Bool :=
  let f := fieldOf b
  let k := bentOf b
  let t := s.bent f k
  let pos := t.phys (b.x % 12)
  let s := s.modEsc (fun e => { e with holes := e.holes ++ [(12 * f + k, pos)] })
  if t.holes.isEmpty then
    let s := s.modBent f k (fun t => { t with spare := pos, holes := [pos] })
    let at_ := fun (s : State) x => Sparse.get Suspect.init s.baySus (60 * b.y + 12 * (b.x / 12) + x)
    let sus := (List.range 12).foldl (fun m x =>
      if b.x % 12 ≤ x then Sparse.set Suspect.init m (60 * b.y + 12 * (b.x / 12) + x) (if x < 11 then at_ s (x + 1) else Suspect.init) else m) s.baySus
    ({ s with baySus := sus }, true)
  else (s.modBent f k (fun t => { t with holes := t.holes ++ [pos] }), false)

/-- One more attributed fault of a bay (R316): the state, the ACTION, and whether a spare was missing. -/
def State.bayFaulted (s : State) (b : BayId) : State × Nat × Bool :=
  let f := fieldOf b
  let x := (Sparse.get Suspect.init s.baySus (bayIx b)).bump (s.field f).pegClock
  let s := { s with baySus := Sparse.set Suspect.init s.baySus (bayIx b) x }
  match x.n with
  | 2 =>
    let k := bentOf b
    let e := (s.bent f k).esc
    if 40 ≤ e then (s, 1, false)
    else (((s.modBent f k (fun t => { t with esc := e + 10 })).retarget f).modEsc (fun z => { z with esc := Sparse.set 0 z.esc (12 * f + k) (e + 10) }), 2, false)
  | 3 => let r := s.sister b; (r.1, 3, !r.2)
  | _ => (s, 1, false)

/-- A cask is excluded (R316): CASK_EXCLUDED, its field FAILED. -/
def State.excludeCask (s : State) (c : Nat) : State :=
  let s := (s.modCask c (fun k => { k with excluded := true })).modEsc (fun e => { e with casks := e.casks ++ [c] })
  let s := s.report { code := 0x0905, parcel := s.parcelOfCask c, unit := 0x05, idx := c, action := 10 }
  s.fieldFails (c / 2)

/-- One more attributed fault of a cask (R316). Its sill runs at a lower ceiling from the peg at which the fabric frequency allows it (10 R203). -/
def State.caskFaulted (s : State) (c : Nat) : State × Nat × Bool :=
  let k := s.cask c
  let x := k.suspect.bump (s.field (c / 2)).pegClock
  let s := s.modCask c (fun k => { k with suspect := x })
  if x.n < 2 then (s, 1, false)
  else if 12 < k.ceiling then
    ((s.modCask c (fun k => { k with ceiling := k.ceiling - 1 })).modEsc
      (fun e => { e with ceil := Sparse.set 0 e.ceil c (k.ceiling - 1) }), 4, false)
  else (s.excludeCask c, 10, true)

/-- A hub loses its power: the LATH groups that it ends enter reset (12 R254). -/
def State.hubDown (s : State) (f : Nat) : State :=
  let s := s.modField f (fun x => { x with hub := false })
  let s := (seamsOf f).foldl (fun s e => s.modSeam e.1 (fun m => { m with lathReleased := false })) s
  { s with plate := { s.plate with lathPlate := s.plate.lathPlate.filter (fun g => decide (g ≠ f)) } }
/-- The hubs that the plate reaches (08 R164, 13 R277): over powered hubs and LATH groups out of reset, by way of the other row where one is
dark. -/
def State.hubsReached (s : State) : List Nat :=
  let on := (List.range 10).filter (fun f => (s.field f).hub)
  let step := fun (r : List Nat) => on.filter (fun f => r.contains f || (seamsOf f).any (fun e => (s.seam e.1).lathReleased && r.contains e.2))
  (List.range 10).foldl (fun r _ => step r) (on.filter (fun f => s.plate.lathPlate.contains f))
def State.hubUp (s : State) (f : Nat) : Bool := s.hubsReached.contains f

/-- A cause of R293 falls during the ramp contracts that are active (14 R293): 2 INPUT, 3 REF, 4 THERMAL, 5 FAULT. -/
def Contract.sees (c : Contract) (why : Nat) : Contract := if c.seen.contains why then c else { c with seen := c.seen ++ [why] }
def State.contractSees (s : State) (why : Nat) : State :=
  { s with trellis := { s.trellis with contractP := s.trellis.contractP.map (fun c => c.sees why), contractL := s.trellis.contractL.map (fun c => c.sees why) } }

/-- A seam is retired (R317): SEAM_RETIRED; its fields become FAILED when a parcel holds it (16 R337). -/
def State.retireSeam (s : State) (n : Nat) : State :=
  let s := (s.modSeam n (fun x => { x.reset with retired := true })).modEsc (fun e => { e with seams := e.seams ++ [n] })
  s.report { code := 0x0904, parcel := s.parcelOfField (seamEnds n).1, unit := 0x03, x := n, action := 9 }

/-- The wire groups of a link and the spares of each (08 R163, 12 R259): 17 groups of 64 wires with one spare each in a mesh scarf link, 39
wires with 2 spares in a lath crossing (line 12), 4 stretch wires with one spare (line 13). -/
def linkGroups (l : ScarfLink) : Nat := if l.line < 12 then 17 else if l.line < 14 then 1 else 0
def linkSpares (l : ScarfLink) : Nat := if l.line = 12 then 2 else 1
/-- The parcel whose region contains a link that became unusable (08 R163): a run fails by its caller; without one the parcel meets
CAPACITY_REDUCED all the same. -/
def State.linkCapacity (s : State) (n : Nat) : State :=
  match (List.range 4).find? (fun p => (s.parcel p).seams.contains n) with
  | some p => if (s.parcel p).running then s else s.report { code := 0x0901, parcel := some p, unit := 0x03, x := n, action := 8 }
  | none => s
/-- A wire of a group is steered onto a spare, or the link fails (08 R163). The flag: the link is unusable. A group the link does not have
is no wire. -/
def State.steerWire (s : State) (l : ScarfLink) (g : Nat) : State × Bool :=
  let m := s.seam l.seam
  if linkGroups l ≤ g then (s, false)
  else if linkSpares l ≤ m.wires.count (l, g) then
    let s := s.modSeam l.seam (fun x => { x with linkFailed := if x.linkFailed.contains l then x.linkFailed else x.linkFailed ++ [l] })
    ((s.report { code := 0x0309, parcel := s.parcelOfField (seamEnds l.seam).1, unit := 0x03, x := l.seam, idx := l.line, action := 8
                 detail := [(1, l.seam), (1, l.line), (1, if l.up then 0 else 1), (1, g)] }).linkCapacity l.seam, true)
  else
    let e := seamEnds l.seam
    let s := s.modSeam l.seam (fun x => { x with wires := x.wires ++ [(l, g)] })
    ([e.1, e.2].foldl (fun s f => s.modField f (fun x => { x with hubCnt := bump x.hubCnt 3 1 })) s, false)

end Sys2Proof.Machine
end

