-- ==== Sys2Proof/Machine/SoundOps.lean ====
section
/-! DEFINITION. Soundings of bays, casks, channels, links and tap ports (15 R322, 18 R394). -/

namespace Sys2Proof.Machine
open Sys2Proof

/-- What a sounding names (R394). -/
inductive SoundTarget where
  | bay (b : BayId)
  | cask (c : Nat)
  | channel (c : Nat) (ch : Nat)
  | link (l : ScarfLink)
  | lath (seam : Nat)
  | tap (t : Nat)
  | stress (unit : Nat)
  deriving DecidableEq, Repr

/-- An absolute cask from the A of a request. -/
def State.soundCask (s : State) (parcel a : Nat) : Option Nat :=
  if parcel = 0xFF then (if a < 20 then some a else none) else (s.parcel parcel).absCask a
/-- The target of a request, when it exists (R394). -/
def State.soundTarget (s : State) (parcel : Nat) (f : SoundF) : Option SoundTarget :=
  match f.kind.toNat with
  | 1 =>
    if parcel = 0xFF then (if f.a < 60 ∧ f.b < 24 then some (.bay { x := f.a, y := f.b }) else none)
    else
      let q := s.parcel parcel
      if f.a < 12 * q.w ∧ f.b < 12 * q.h then some (.bay (q.bayAt f.a f.b)) else none
  | 2 => (s.soundCask parcel f.a).map SoundTarget.cask
  | 3 => if f.b < 32 then (s.soundCask parcel f.a).map (fun c => .channel c f.b) else none
  | 4 => if f.a < 13 ∧ f.b < 12 ∧ f.c < 2 then some (.link { seam := f.a, line := f.b, up := decide (f.c = 0) }) else none
  | 5 => if f.a < 13 then some (.lath f.a) else none
  | 6 => if f.a < 8 then some (.tap f.a) else none
  | 7 => if f.a < 6 then some (.stress f.a) else none
  | _ => none

/-- The parcel that holds a target. -/
def State.seamParcel (s : State) (n : Nat) : Option Nat := (List.range 4).find? (fun p => (s.parcel p).seams.contains n)
def State.targetParcel (s : State) (parcel : Nat) : SoundTarget → Option Nat
  | .bay b => s.parcelOfBay b
  | .cask c => s.parcelOfCask c
  | .channel c _ => s.parcelOfCask c
  | .link l => s.seamParcel l.seam
  | .lath n => s.seamParcel n
  | .tap t => s.tapOwner t
  | .stress u => if u < 3 ∧ parcel < 4 then some parcel else none

/-- A bay that has been sounded holds nothing (15 R322: march tests of the vat and the plan store); its plan is loaded again (log entry 42). -/
def State.soundedBay (s : State) (b : BayId) : State :=
  match s.parcelOfBay b with
  | some p =>
    let q := s.parcel p
    let s := s.modBay b (fun x => { Bay.init with counters := x.counters, micro := x.micro, presses := x.presses.map (fun e => (e.1, { Press.init with column := e.2.column })) })
    (match q.image with
      | some m => s.modBay b (imgBay m.bytes q.w (b.x - 12 * q.c0) (b.y - 12 * q.r0))
      | none => s)
  | none => s.modBay b (fun x => { Bay.init with counters := x.counters, micro := x.micro, presses := x.presses.map (fun e => (e.1, { Press.init with column := e.2.column })) })

/-- Steer each failed wire group of a link (R322), then realign its SEAM group. -/
def State.soundLink (s : State) (l : ScarfLink) (wires : List Nat) : State :=
  let s := wires.foldl (fun s g => (s.steerWire l g).1) s
  if (s.seam l.seam).released then s.seamAligned l.seam [] else s

/-- A sounding that is not a stress sounding (R322). -/
def State.soundRun (s : State) (f : SoundF) (found : SoundFinding) : SoundTarget → State
  | .bay b =>
    let s := s.soundedBay b
    if !f.pass && f.sflag.getLsbD 0 then
      let s := (s.sister b).1
      (List.range 12).foldl (fun s x => if b.x % 12 ≤ x then s.soundedBay { x := 12 * (b.x / 12) + x, y := b.y } else s) s
    else s
  | .cask c =>
    let s := if f.sflag.getLsbD 1 then s.modCask c (fun k => { k with mem := [], poison := [] }) else s
    (found.staves.filter (fun st => decide (st < 17))).foldl (fun s st => s.staveFails c st) s
  | .channel c ch => if !f.pass && found.wires.contains ch then (s.caskFaulted c).1 else s
  | .link l => s.soundLink l found.wires
  | .lath n => s.soundLink { seam := n, line := 12, up := true } found.wires
  | .tap t => s.tapDown t
  | .stress _ => s

/-- The answer of a sounding (R394): RESULT, and the SEQ of the entry that its failure made. -/
def soundAns (pass : Bool) (before after : Nat) : Ans :=
  { status := 0, payload := natLe 1 (if pass then 0 else 1) ++ zeroBytes 7 ++ natLe 8 (if !pass && decide (before < after) then before else 0) }

/-- Soundings that waited for the end of an invocation of the parcel (R322). -/
def State.soundsDue (s : State) (p : Nat) : State :=
  let due := fun (w : Wait) => match w.what with
    | .sound f _ => (s.soundTarget w.parcel f).any (fun t => decide (s.targetParcel w.parcel t = some p))
    | _ => false
  let ws := s.waits.filter due
  ws.foldl (fun s w => match w.what with
    | .sound f found =>
      match s.soundTarget w.parcel f with
      | some t =>
        let n := s.flog.next
        let s := s.soundRun f found t
        s.answer w.rq w.msg w.parcel w.arrivedNs (soundAns f.pass n s.flog.next)
      | none => s
    | _ => s) { s with waits := s.waits.filter (fun w => !due w) }

end Sys2Proof.Machine
end

