-- ==== Sys2Proof/Machine/RunOps.lean ====
section
/-! DEFINITION. The life of an invocation: its start, its stops, vintages, completion, the label, and the loss of a field's power
(05 R102, R103, 06 R125, 11 R227-R244, 16 R337, 18 R386-R388). -/

namespace Sys2Proof.Machine
open Sys2Proof

/-- Bytes of an entry of a label specification (22 R474). -/
def State.specBytes (s : State) (p : Nat) (e : Nat × Nat × Nat) : Bytes :=
  match (s.parcel p).absCask e.1 with
  | some c => match (s.cask c).region e.2.1 with
    | some r => ((s.cask c).getBytes r e.2.1 e.2.2).1
    | none => []
  | none => []
/-- INPUT_DIGEST and OUTPUT_DIGEST (11 R242, 22 R474). -/
def State.specDigest (s : State) (p : Nat) (es : List (Nat × Nat × Nat)) : BitVec 384 := sha384Val (es.flatMap (s.specBytes p))

/-- The WEIGHT regions of a parcel in ascending (relative cask, BASE), and WEIGHTS_DIGEST over their 72-byte entries (R242). -/
def State.weights (s : State) (p : Nat) : List (Nat × Region) :=
  let q := s.parcel p
  (List.range (2 * q.w * q.h)).flatMap (fun rc =>
    let rs := ((q.absCask rc).map (fun c => (s.cask c).regions)).getD []
    ((rs.filter (fun r => decide (r.use_ = .weight))).mergeSort (fun a b => decide (a.base ≤ b.base))).map (fun r => (rc, r)))
def weightEntry (e : Nat × Region) : Bytes :=
  natLe 1 e.1 ++ zeroBytes 7 ++ natLe 8 e.2.base ++ natLe 8 e.2.size ++ digestBytes e.2.digest
def State.weightsDigest (s : State) (p : Nat) : BitVec 384 := sha384Val ((s.weights p).flatMap weightEntry)
def State.weightsValid (s : State) (p : Nat) : Bool := (s.weights p).all (fun e => e.2.digestValid)

/-- FLAGS of a label (R242). -/
def Bay.labelFlags (b : Bay) : Nat :=
  let d := b.presses.foldl (fun (m : BitVec 4) e => m ||| e.2.dflags) b.lathe.dflags
  b.lathe.lflags.toNat + 32 * d.toNat + 512 * b.vat.vflags.toNat
def State.labelFlags (s : State) (p : Nat) : Nat :=
  let a := (s.parcel p).bays.foldl (fun m b => m ||| (s.bay b).labelFlags) 0
  (s.parcel p).casks.foldl (fun m c => m ||| (s.cask c).sflags.toNat) a

/-- The parts of a label that differ between an invocation and a Pour sequence (R242). -/
structure LabelIn where
  pour : Bool
  prologueRan : Bool
  shape : Nat
  nweight : Nat
  image : BitVec 384
  weights : BitVec 384
  input : BitVec 384
  output : BitVec 384
  runKey : Nat
  fabricCount : Nat
  prologueCount : Nat
  holdCount : Nat
  wall : Nat
  flags : Nat
  sequence : Nat
  deriving DecidableEq, Repr

/-- Does the seal sign labels now (21 R457, 15 R319)? -/
def State.labelSigns (s : State) : Bool := s.hasFeature 1 && !s.sealU.halted && decide (s.sealU.scope / 2 % 2 = 0)

/-- Bytes 0 to 271 of a label (R242). -/
def labelBody (l : LabelIn) (signed : Bool) : Bytes :=
  natLe 4 0x424C4B53 ++ natLe 2 1 ++ natLe 2 ((if signed then 1 else 0) + (if l.pour then 2 else 0) + (if l.prologueRan then 4 else 0)) ++
    natLe 2 0x01D0 ++ natLe 1 0xA0 ++ natLe 1 l.shape ++ natLe 4 l.nweight ++ digestBytes l.image ++ digestBytes l.weights ++
    digestBytes l.input ++ digestBytes l.output ++ natLe 16 l.runKey ++ natLe 8 l.fabricCount ++ natLe 8 l.prologueCount ++
    natLe 8 l.holdCount ++ natLe 8 l.wall ++ natLe 4 l.flags ++ zeroBytes 4 ++ natLe 8 l.sequence
/-- A label with its digest and, when it is to be signed, its SIGNER; r and s follow when the seal signs it. -/
def labelOf (l : LabelIn) (signed : Bool) : Bytes :=
  let b := labelBody l signed
  b ++ digestBytes (sha384Val b) ++ (if signed then digestBytes (keyHash (Config.devicePublicKey 0)) else zeroBytes 48) ++ zeroBytes 96
/-- Is a new label to be signed: its LFLAG says so? -/
def labelWaits (bs : Bytes) : Bool := bs.leAt 6 2 % 2 == 1
/-- The seal's signature over bytes 0 to 367 (R242, 21 R442). -/
def labelSign (bs : Bytes) : Bytes :=
  let g := Config.signature 0 (sha384Val (bs.take 368)).toNat
  bs.take 368 ++ natLe 48 g.1 ++ natLe 48 g.2

/-- A label that is issued unsigned after all: LFLAG.SIGNED 0, its digest anew, no SIGNER and no signature. -/
def labelUnsign (bs : Bytes) : Bytes :=
  let b := bs.take 6 ++ natLe 2 (bs.leAt 6 2 - 1) ++ bs.slice 8 264
  b ++ digestBytes (sha384Val b) ++ zeroBytes 144
/-- Labels that wait for the seal are issued unsigned, because it has halted, a FULL unlock stands or the licence no longer carries
LABEL_SIGN (15 R319, 21 R454, R456): their records and LABEL frames wait no longer. -/
def State.unsignLabels (s : State) : State :=
  (List.range 4).foldl (fun (s : State) p =>
    let rs := ((s.parcel p).records.filter (fun r => !r.signed)).length
    let s := s.modParcel p (fun q => { q with records := q.records.map (fun r => if r.signed then r else { r with label := labelUnsign r.label, signed := true }) })
    let s := if 0 < rs then s.eventOwner p 3 else s
    (s.parcel p).pour.kept.foldl (fun (s : State) y => match y.label with
      | some l =>
        if y.waits then
          let s := s.modParcel p (fun z => { z with pour := { z.pour with kept := z.pour.kept.map (fun v => if v = y then { v with label := some (labelUnsign l), waits := false } else v) } })
          s.pourSend p y 0x14 (labelUnsign l)
        else s
      | none => s) s) s

/-- A new invocation that waits to start (18 R385). -/
def Inv.new (serial : Nat) (key : BitVec 128) (waitTrellis : Bool) : Inv :=
  { serial := serial, started := false, waitTrellis := waitTrellis, runKey := key, prologueRan := false, startNs := 0, holdCount := 0,
    rollbacks := 0, restores := 0, ledger := .empty, checked := 0, decided := 1, endSeen := false, endNs := 0, tokens := [], bayTok := [],
    stop := none, later := [], inputDigest := 0#384, fault := none, dfault := none, vintageReq := false, parkReq := false,
    abortReq := false, digestsHeld := true, ofPour := false }

/-- Is the prologue to be skipped (05 R103)? -/
def State.resident (s : State) (p : Nat) : Bool := (s.parcel p).bays.all (fun b => (s.bay b).vat.residentValid)

/-- The flits of a parcel. -/
def State.flitsOf (s : State) (p : Nat) : List Flight := s.hops.filter (fun h => (s.parcel p).holds (fieldOf (bayOfIx h.dst)))
def State.dropFlits (s : State) (p : Nat) : State := { s with hops := s.hops.filter (fun h => !(s.parcel p).holds (fieldOf (bayOfIx h.dst))) }

/-- The bays at an invocation's first count, of the prologue or of the body (05 R102, 06 R112, R497). -/
def State.startBays (s : State) (p : Nat) (m : Image) (prologue : Bool) (key : BitVec 128) : State :=
  let q := s.parcel p
  let s := q.bays.foldl (fun s b => s.modBay b (fun x =>
    let pl := imgPlace m.bytes q.w (b.x - 12 * q.c0) (b.y - 12 * q.r0)
    let keep := if !prologue && x.vat.residentValid then x.vat.residentMask else 0#64
    let vat := { x.vat.fresh keep with residentValid := x.vat.residentValid && !prologue, residentPend := false, proFault := false }
    let x := { x with vat := vat }
    let x := { x with seq := { x.seq with bodyEntry := BitVec.ofNat 14 pl.body }, breach := { cause := 0, count := 0, unit := 0 }, accs := [], carry := [],
                      racks := [], sops := [], route := [], flits := [] }
    if prologue then x.startState (BitVec.ofNat 14 pl.prologue) false (-(m.prologueCount : Int)) key false
    else x.startState (BitVec.ofNat 14 pl.body) true 0 key false)) s
  let s := q.casks.foldl (fun s c => s.modCask c (fun k => { k with sflags := 0#9, writes := [] })) s
  s.dropFlits p

/-- An invocation starts (R103, 18 R385): at the prologue, or at the body when it has none or every bay's RESIDENT_VALID stands. -/
def State.startInv (s : State) (p : Nat) (i : Inv) (m : Image) : State :=
  let pro := m.prologue && !s.resident p
  let s := s.startBays p m pro i.runKey
  let s := (s.parcel p).casks.foldl (fun s c => s.modCask c (fun k => { k with journal := [] })) s
  let held := s.weightsValid p
  let now := s.plate.wall.toNat
  let dig := s.specDigest p m.labelIn
  let i := { i with started := true, waitTrellis := false, prologueRan := pro, startNs := now, digestsHeld := held, inputDigest := dig }
  let s := s.modParcel p (fun q => { q with base := none, inv := some i })
  s.setPState p .running

/-- An occurrence of a phase begins, and the one before it has ended (14 R294). -/
def PTrellis.occStart (r : PTrellis) (phase : BitVec 8) (now : Nat) : PTrellis :=
  { r with occEnd := (r.occNow.map (fun o => { o with untilNs := now })).or r.occEnd
           occNow := some (Occurrence.start phase now (r.occNow.bind (fun o => if o.n = 0 then none else some (o.amps / o.n)))) }
def PTrellis.occStop (r : PTrellis) (now : Nat) : PTrellis :=
  { r with occEnd := (r.occNow.map (fun o => { o with untilNs := now })).or r.occEnd, occNow := none }

/-- The invocation's first count is reached (R113): START_NS, the input regions' digest, whether the weights' digests are valid (R243), phase
0 (06 R126), and the answer of run.start (18 R384). -/
def State.firstCount (s : State) (p : Nat) : State :=
  match (s.parcel p).inv, (s.parcel p).image with
  | some i, some m =>
    let d := s.specDigest p m.labelIn
    let held := s.weightsValid p
    let s := s.modInv p (fun i => { i with startNs := s.plate.wall.toNat, inputDigest := d, digestsHeld := held })
    let s := s.modParcel p (fun q => { q with tr := { q.tr with phase := 0#8 }.occStart 0#8 s.tNs })
    s.answerWaits (fun w => decide (w.parcel = p) && decide (w.what = .runStart i.serial)) { status := 0, payload := natLe 8 i.serial ++ zeroBytes 8 }
  | _, _ => s

/-- Awaits due at PEGNO 1 (22 R467). -/
def Parcel.firstLanded (q : Parcel) : Bool := q.awaits.all (fun a => a.landed || decide (a.due ≠ 1))
/-- Awaits due at a peg. -/
def Parcel.dueLanded (q : Parcel) (peg : Nat) : Bool := q.awaits.all (fun a => a.landed || decide (a.due ≠ peg))

/-- Is any journal area of the parcel more than half full (22 R470)? Its bytes follow the two slots of the VINTAGE region (11 R238). -/
def Cask.journalHalf (c : Cask) : Bool :=
  match c.regions.find? (fun r => decide (r.use_ = .vintage)) with
  | some r => decide (r.size - 2 * (664 * 2 ^ 20) < 2 * (128 * c.journal.length))
  | none => false

/-- The body count that the record and the label report (R224, 18 R386). -/
def Parcel.pourKind (q : Parcel) : Bool := match q.inv with
  | some i => i.ofPour
  | none => false

/-- The records of an invocation's end: the last 64 are kept (18 R385). -/
def Parcel.addRecord (q : Parcel) (r : Completion) : Parcel :=
  let rs := q.records ++ [r]
  { q with records := rs.drop (rs.length - 64) }

/-- The invocation ends: every bay's banks take the state of R102, uncommitted writes are performed, the casks' sills run at 16/16
between invocations (14 R288). -/
def State.endBays (s : State) (p : Nat) : State :=
  let q := s.parcel p
  let s := q.bays.foldl (fun s b => s.modBay b (fun x =>
    { x with vat := x.vat.atEnd, seq := { x.seq with issuing := false }, accs := [], carry := [], racks := [], sops := [], route := [], flits := [],
             agenda := [], drains := [], loads := [], waves := [], taste := none })) s
  let s := q.casks.foldl (fun s c => s.modCask c (fun k => { k.commit none with sclk := k.ceiling, ledger := 0 })) s
  s.dropFlits p

/-- One count of every bay of a parcel. -/
def State.quietTicks (s : State) (p : Nat) : State :=
  (s.parcel p).bays.foldl (fun s b => s.runBay b quietTick) s
/-- Work that is under way at END runs out, count by count in every bay together; fuel bounds the counts. -/
def State.settleGo (p : Nat) : Nat → State → State
  | 0, s => s
  | k + 1, s => if (s.parcel p).bays.all (fun b => (s.bay b).quiet) && !((s.flitsOf p).any (fun _ => true)) then s else State.settleGo p k (s.quietTicks p)
def State.settleBays (s : State) (p : Nat) : State := State.settleGo p 1048576 s

/-- The end of an invocation: its completion record, the ledger, RUN event, and the parcel idle (18 R385-R388). -/
def State.endRun (s : State) (p : Nat) (status code : Nat) : State :=
  match (s.parcel p).inv, (s.parcel p).image with
  | some i, some m =>
    let ok := decide (status = 0)
    let pro := if i.prologueRan then m.prologueCount else 0
    let fc := if i.endSeen then m.bodyCount else match i.stop with
      | some t => t.count
      | none => if i.started then (s.parcelCount p).toNat else 0
    let peg := match i.stop with
      | some t => t.peg - 1
      | none => pegnoOf (some m) i
    let now := s.plate.wall.toNat
    let fl := s.labelFlags p
    let bound := i.digestsHeld && s.weightsValid p
    let lab := if ok && bound then
        labelOf { pour := false, prologueRan := i.prologueRan, shape := (s.parcel p).shape, nweight := (s.weights p).length, image := m.digest
                  weights := s.weightsDigest p, input := i.inputDigest, output := s.specDigest p m.labelOut, runKey := i.runKey.toNat
                  fabricCount := fc, prologueCount := pro, holdCount := i.holdCount, wall := now, flags := fl, sequence := i.serial } s.labelSigns
      else zeroBytes 464
    let r : Completion :=
      { serial := i.serial, status := status, faultCode := code, labelState := if ok && bound then 0 else if ok then 1 else 2, flags := fl
        pegno := peg, fabricCount := fc, prologueCount := pro, holdCount := i.holdCount, startNs := i.startNs, endNs := now
        rollbacks := i.rollbacks, label := lab, signed := !labelWaits lab }
    let s := (s.endBays p).modParcel p (fun q => { (if i.ofPour then q else q.addRecord r) with inv := none, tr := { q.tr.occStop s.tNs with rising := none } })
    let s := s.answerWaits (fun w => decide (w.parcel = p) && decide (w.what = .runStart i.serial)) { status := if ok then 0 else status }
    let s := s.answerWaits (fun w => decide (w.parcel = p) && w.what.isVintage) (Ans.err 0x0708)
    let s := (s.modParcel p (fun q => { q with exp := none })).answerWaits (fun w => decide (w.parcel = p) && w.what.isExport) (Ans.err 0x0707)
    let s := (s.setPState p .idle).soundsDue p
    let s := if i.ofPour && !ok then s.pourFails p else s
    if labelWaits lab || i.ofPour then s else s.eventOwner p 3
  | _, _ => s

/-- Every field of a parcel is parked, and the parcel with it (R240, 14 R297, 16 R337). -/
def State.parkNow (s : State) (p : Nat) (by_ : ParkBy) : State :=
  let s := (s.parcel p).fields.foldl (fun s f => if (s.field f).st = .raised then s.fieldOff f .parked else s) s
  let s := (s.modParcel p (fun q => { q with parkedBy := some by_ })).setPState p .parked
  s.answerWaits (fun w => decide (w.parcel = p) && decide (w.what = .parked)) Ans.ok

/-- A run ends, and a park that was asked for takes effect (14 R297: between invocations at once). -/
def State.endAndPark (s : State) (p : Nat) (status code : Nat) : State :=
  let want := match (s.parcel p).inv with
    | some i => i.parkReq
    | none => false
  let s := s.endRun p status code
  if want then s.parkNow p ((s.parcel p).parkedBy.getD .trellis) else s

/-- A stop that stands and has named no restart takes a park that comes now (11 R232: no restart while a park is pending); the park
vintage is still to be drawn. -/
def Stop.takePark (t : Stop) : Stop :=
  if t.reached && t.z.isNone then { t with drawn := false, why := { t.why with park := true, vintage := true } } else t

/-- A park is asked for (14 R297): at once between invocations, at the stop that the parcel stands at (log entry 14), else at the first
decidable peg. -/
def State.askPark (s : State) (p : Nat) (by_ : ParkBy) : State :=
  let q := s.parcel p
  match q.inv with
  | some i =>
    if i.started then
      ((s.modParcel p (fun q => { q with parkedBy := some by_ })).modInv p (fun i =>
        { i with parkReq := true, stop := i.stop.map (fun t => t.takePark) })).setPState p .parking
    else (s.modInv p (fun i => { i with waitTrellis := true })).parkNow p by_
  | none => s.parkNow p by_

/-- The unacknowledged writes that a vintage leaves in the casks: writes old enough to be acknowledged are performed (09 R194). -/
def State.commitAt (s : State) (p count : Nat) : State :=
  (s.parcel p).casks.foldl (fun s c => s.modCask c (fun k => k.commit (some ((count : Int) - 256)))) s

/-- One record of a vintage (R236): KIND, X and Y, its payload. -/
structure VRec where
  kind : Nat
  x : Nat
  y : Nat
  payload : Bytes
  deriving DecidableEq, Repr
/-- A record with its 16-byte header; SIZE is the record's own size, header and payload (DESIGN CHOICE, log entry 8). -/
def VRec.bytes (r : VRec) : Bytes := natLe 2 r.kind ++ natLe 1 r.x ++ natLe 1 r.y ++ natLe 4 (16 + r.payload.length) ++ zeroBytes 8 ++ r.payload

/-- The tuns of a bay in the form of 02 R28: cell tuns and latches of its presses, the lathe's. -/
def Bay.tunRecords (b : Bay) : List Bytes :=
  (b.presses.flatMap (fun e => e.2.tuns.map (fun t => tunRecord t.2) ++ e.2.latch.map (fun t => tunRecord t.2))) ++ b.lathe.lt.map (fun t => tunRecord t.2)
/-- What a crossing's record holds in fixed form: its pointers, then the flits its FIFOs hold. -/
def Vintage.crossing (v : Vintage) (i : Nat) (n : Nat) : List Bytes :=
  let c := v.crossings.getD i (0, 10)
  [natLe 1 c.1, natLe 1 c.2] ++ (v.flights.filter (fun e => (e.fifo.map (fun w => decide (w.1.seam = n))).getD false)).map (fun e => e.data)
/-- The records of a vintage, in the order of R237. -/
def Vintage.records (v : Vintage) (q : Parcel) : List VRec :=
  let pay := fun k at_ parts => Config.recordPayload k at_ parts v.tag
  let bays := (enumFrom 0 v.bays).map (fun e =>
    ({ kind := 1, x := e.1 % (12 * q.w), y := e.1 / (12 * q.w), payload := (pay 1 e.1 e.2.2.tunRecords).take (9 * 2 ^ 20 - 16) } : VRec))
  let ports := v.writes.map (fun e => ({ kind := 2, x := e.1, y := 0, payload := (pay 2 e.1 (e.2.map (fun w => w.bytes))).take (2 ^ 20 - 16) } : VRec))
  let sills := v.sflags.map (fun e => ({ kind := 3, x := e.1, y := 0, payload := (pay 3 e.1 [natLe 2 e.2.toNat]).take 48 } : VRec))
  let cross := (enumFrom 0 q.seams).map (fun e =>
    let g := (seamEnds e.2).2
    ({ kind := 4, x := 12 * (g % 5 - q.c0), y := 12 * (g / 5 - q.r0), payload := (pay 4 e.1 (v.crossing e.1 e.2)).take (2 ^ 16 - 16) } : VRec))
  let flags := v.awaits.map (fun a => natLe 1 ((if a.1 then 1 else 0) + (if a.2 then 2 else 0)))
  bays ++ ports ++ sills ++ cross ++ [{ kind := 5, x := 0, y := 0, payload := (pay 5 0 flags).take (2 ^ 16 - 16) }]

/-- The header of a vintage without its digest: bytes 0 to 207 (R239). -/
def Vintage.headBody (v : Vintage) (nrec : Nat) : Bytes :=
  natLe 4 0x544E4956 ++ natLe 2 1 ++ natLe 1 0xA0 ++ natLe 1 v.shape ++ natLe 8 v.generation ++ digestBytes v.imageDigest ++
    natLe 16 v.runKey.toNat ++ natLe 8 v.count ++ natLe 4 v.pegno ++ natLe 4 ((if v.auto then 1 else 0) + (if v.park then 2 else 0)) ++
    natLe 8 v.holdCount ++ natLe 4 nrec ++ zeroBytes 4 ++ digestBytes v.bodyDigest ++ digestBytes v.weightsDigest
/-- The header of a vintage in 256 bytes (R239). -/
def Vintage.header (v : Vintage) (nrec : Nat) : Bytes := v.headBody nrec ++ digestBytes v.headerDigest

/-- A flit's places seen from the parcel's first bay, and back. -/
def Flight.shift (fl : Flight) (f : Nat → Nat) (g : Nat → Nat) : Flight :=
  let d := bayOfIx fl.dst
  let link := fun (h : Hop) (nx ny : Nat) => h.link.bind (fun _ => hopLink (f h.x) (g h.y) nx ny)
  { fl with
    dst := bayIx { x := f d.x, y := g d.y }
    path := fl.path.map (fun h =>
      let nx := if h.dir = 0 then f h.x + 1 else if h.dir = 1 then f h.x - 1 else f h.x
      let ny := if h.dir = 2 then g h.y + 1 else if h.dir = 3 then g h.y - 1 else g h.y
      { h with x := f h.x, y := g h.y, link := link h nx ny }) }
/-- A bay with its presses at the levels they stepped down from (03 R58). -/
def Bay.atLevels (b : Bay) (ix : Nat) (levels : Sparse Nat) : Bay :=
  levels.foldl (fun b e => if e.1 / 4 = ix then { b with presses := Sparse.modify Press.init b.presses (e.1 % 4) (fun y => { y with level := e.2 }) } else b) b
/-- The levels of a parcel's presses, by 4 × bay + press. -/
def State.pressLevels (s : State) (p : Nat) : Sparse Nat :=
  (s.parcel p).bays.foldl (fun m b => (s.bay b).presses.foldl (fun m e => Sparse.set 0 m (4 * bayIx b + e.1) e.2.level) m) []

/-- A vintage of the parcel at a stop (R236, R239): the state at the boundary, with the presses' levels before the step-down. -/
def State.snapshot (s : State) (p : Nat) (t : Stop) (i : Inv) (m : Image) (gen : Nat) (auto : Bool) : Vintage :=
  let q := s.parcel p
  let v : Vintage :=
    { valid := true, generation := gen, imageDigest := m.digest, runKey := i.runKey, count := t.count, pegno := t.peg - 1, auto := auto
      park := t.why.park, holdCount := i.holdCount, shape := q.shape
      bays := q.bays.map (fun b => (bayIx b, (s.bay b).atLevels (bayIx b) t.levels))
      writes := q.casks.map (fun c => (q.relCask c, (s.cask c).writes)), sflags := q.casks.map (fun c => (q.relCask c, (s.cask c).sflags))
      awaits := q.awaits.map (fun a => (a.landed, a.locked)), crossings := q.seams.map (fun n => ((s.seam n).wptr, (s.seam n).rptr))
      flights := (s.flitsOf p).map (fun fl => fl.shift (fun x => x - 12 * q.c0) (fun y => y - 12 * q.r0))
      bodyDigest := 0, weightsDigest := s.weightsDigest p, headerDigest := 0, tag := s.freeCtr }
  let rs := v.records q
  let v := { v with bodyDigest := sha384Val (rs.flatMap VRec.bytes) }
  { v with headerDigest := sha384Val (v.headBody rs.length) }

/-- The cask that takes a record (R237): for a bay of Ff, C(2f) in the left half of the field and C(2f + 1) in the right; for the others the
first cask of the first field. -/
def Parcel.recordCask (q : Parcel) (r : VRec) : Nat :=
  if r.kind = 1 then 2 * fieldOf (q.bayAt r.x r.y) + (if r.x % 12 < 6 then 0 else 1) else 2 * (q.c0 + 5 * q.r0)
/-- Bytes go to an offset of a slot in a cask's VINTAGE region (R238). -/
def Cask.putSlot (c : Cask) (slot off : Nat) (bs : Bytes) : Cask :=
  match c.regions.find? (fun r => decide (r.use_ = .vintage)) with
  | some r => c.putBytes r (r.base + slot * (664 * 2 ^ 20) + off) bs
  | none => c
/-- A vintage is written into the casks' slots (R237, R239): in each cask its records one after the other from byte 256 (DESIGN CHOICE, log
entry 8), the header last. -/
def State.writeSlot (s : State) (p slot : Nat) (v : Vintage) : State :=
  let q := s.parcel p
  let rs := v.records q
  let r := rs.foldl (fun (a : State × Sparse Nat) r =>
    let c := q.recordCask r
    let o := Sparse.get 256 a.2 c
    (a.1.modCask c (fun k => k.putSlot slot o r.bytes), Sparse.set 256 a.2 c (o + r.bytes.length))) (s, [])
  r.1.modCask (2 * (q.c0 + 5 * q.r0)) (fun k => k.putSlot slot 0 (v.header rs.length))

/-- The header of a vintage becomes valid (R228, R235, R237, R238): it is the base, the slots alternate (across invocations too), journals empty, locks whose peg is past end, the
restore tally clears, and the draws that this peg took are answered. -/
def State.vintageDrawn (s : State) (p : Nat) (t : Stop) (i : Inv) (m : Image) : State :=
  let s := s.commitAt p t.count
  let q := s.parcel p
  let gen := ((q.base.bind (fun k => q.vint[k]?)).map (fun v => v.generation)).getD 0 + 1
  let auto := decide (t.peg % m.interval = 0)
  let v := s.snapshot p t i m gen auto
  let vs := if q.vint.length < 2 then [Vintage.none, Vintage.none] else q.vint
  let k := q.nextSlot
  let s := (s.writeSlot p k v).modParcel p (fun q =>
    { q with vint := listSet vs k v, base := some k, nextSlot := 1 - k
             awaits := q.awaits.map (fun a => if a.due < t.peg then { a with locked := false } else a)
             inv := some { i with restores := 0, stop := some { t with drawn := true } } })
  let s := q.casks.foldl (fun s c => s.modCask c (fun k => { k with journal := [] })) { s with freeCtr := s.freeCtr + 1 }
  s.answerWaits (fun w => decide (w.parcel = p) && decide (w.what = .vintage (some t.peg))) { status := 0, payload := natLe 8 gen ++ natLe 4 (t.peg - 1) ++ zeroBytes 4 }

/-- Every cask of the parcel takes the contents of the base vintage, or of the first count, back (R228). -/
def State.rewind (s : State) (p : Nat) : State :=
  (s.parcel p).casks.foldl (fun s c => s.modCask c (fun k => k.rewind)) s

/-- Draws that stops which will not be reached had taken are asked for again (R230). -/
def State.redraw (s : State) (p : Nat) : State :=
  let mine := fun (w : Wait) => decide (w.parcel = p) && w.what.isVintage
  let s := if s.waits.any mine then s.modInv p (fun i => { i with vintageReq := true }) else s
  { s with waits := s.waits.map (fun w => if mine w then { w with what := .vintage none } else w) }

/-- The parcel takes a vintage's state (R227, R240, R241): it stands stopped before the vintage's peg, its presses stepped down (03 R58). What
belongs to the loaded image stays (06 R106), as do counters and steering; crossings take their pointers and flits, the trellis the
first bay's phase. On its own module, a range that has landed since stays landed. -/
def State.restoreVintage (s : State) (p : Nat) (v : Vintage) (foreign : Bool) : State :=
  let q := s.parcel p
  let s := (q.bays.zip v.bays).foldl (fun s e => s.modBay e.1 (fun b =>
    { e.2.2 with
      counters := b.counters, plan := b.plan, pegtab := b.pegtab, routes := b.routes, descs := b.descs, micro := b.micro, lath := b.lath
      vat := { e.2.2.vat with residentMask := b.vat.residentMask }
      seq := { e.2.2.seq with bodyEntry := b.seq.bodyEntry }
      presses := e.2.2.presses.map (fun y => (y.1, { y.2 with column := (b.press y.1).column })) })) s
  let levels := s.pressLevels p
  let s := levels.foldl (fun s e => s.modBay (bayOfIx (e.1 / 4)) (fun b => b.atLevels (e.1 / 4) [(e.1, 0)])) s
  let s := (q.seams.zip v.crossings).foldl (fun s e => s.modSeam e.1 (fun x => { x with wptr := e.2.1, rptr := e.2.2 })) s
  let s := q.casks.foldl (fun s c => s.modCask c (fun k =>
    { k with writes := ((v.writes.find? (fun e => e.1 = q.relCask c)).map (fun e => e.2)).getD []
             sflags := ((v.sflags.find? (fun e => e.1 = q.relCask c)).map (fun e => e.2)).getD 0#9 })) s
  let s := s.dropFlits p
  let s := ({ s with hops := s.hops ++ v.flights.map (fun fl => fl.shift (fun x => x + 12 * q.c0) (fun y => y + 12 * q.r0)) } : State).redraw p
  let phase := (v.bays.head?.map (fun e => e.2.seq.phase)).getD 0#8
  let st : Stop := { peg := v.pegno + 1, count := v.count, why := { hold := false, vintage := false, park := false, forced := false, fault := false, abort := false }
                     reached := true, drawn := true, z := none, atNs := s.tNs, since := [], levels := levels }
  s.modParcel p (fun q =>
    { q with tr := { q.tr with phase := phase, occNow := some (Occurrence.start phase s.tNs none) }
             awaits := (enumFrom 0 q.awaits).map (fun e =>
               let w := v.awaits.getD e.1 (false, false)
               { e.2 with landed := w.1 || (!foreign && e.2.landed), locked := w.2 || (!foreign && e.2.locked) })
             inv := q.inv.map (fun i =>
               let np := if i.prologueRan then (q.image.map (fun m => m.prologuePegs)).getD 0 else 0
               { i with checked := np + v.pegno, decided := v.pegno + 1, endSeen := false, tokens := []
                        bayTok := (q.bays.map bayIx).map (fun b => (b, np + v.pegno)), stop := some st, later := [], fault := none }) })

end Sys2Proof.Machine
end

