-- ==== Sys2Proof/Machine/Recovery.lean ====
section
/-! DEFINITION. Recovery from a detected fault: attribution, escalation, sistering, rewind, restore (11 R227, R228, 13 R273, R276,
15 R310-R318). -/

namespace Sys2Proof.Machine
open Sys2Proof

/-- The parcel fails and its run ends with the outcome code (R307): an entry with that code, the record, the rewind. Other fields of a
parcel that lost one are parked (13 R276). -/
def State.failRun (s : State) (p code action : Nat) (rewind : Bool) : State :=
  let s := if rewind then s.rewind p else s
  let s := s.report { code := code, parcel := some p, count := (s.parcelCount p).toNat, unit := 0x0B, idx := p, action := action }
  s.endAndPark p 0x0608 code

/-- CAPACITY_REDUCED of a parcel (R307): its run fails; a parcel that runs nothing is only reported. -/
def State.capacityReduced (s : State) (p : Nat) : State :=
  if (s.parcel p).running then s.failRun p 0x0901 8 true
  else s.report { code := 0x0901, parcel := some p, unit := 0x0B, idx := p, action := 8 }
/-- A parcel that has lost a field fails (13 R273, R276): it is rewound and its other fields are parked. -/
def State.loseParcel (s : State) (p : Nat) : State := (s.capacityReduced p).parkNow p .trellis

/-- The parcel that holds a field which went dark (13 R273, R276): while another of its fields runs, those stop at their next peg boundary and
ROLLBACK carries the failure through; otherwise it fails at once. -/
def State.darkField (s : State) (f : Nat) : State :=
  match s.parcelOfField f with
  | some p =>
    let q := s.parcel p
    if q.running && q.fields.any (fun g => (s.field g).supply.vfab) then
      s.modInv p (fun i => { i with fault := some { code := 0x0901, unit := 0x0A, x := f, y := 0, idx := f, peg := q.pegno, seq := s.flog.next - 1, cask := none
                                                    stave := none, injected := false } })
    else s.loseParcel p
  | none => s

/-- The source bay of the route that a mesh fault names (R312): the peer of the receiving bay's RECV entry; the bay of the report where
no entry says more. -/
def State.sourceBay (s : State) (p : Nat) (r : FaultRec) : BayId :=
  let b : BayId := { x := r.x, y := r.y }
  let e := s.flog.ring.find? (fun e => e.seq = r.seq)
  match e with
  | some e =>
    if r.code = 0x0302 ∨ r.code = 0x0304 then
      let rt := Sparse.get RouteEnt.none (s.bay b).routes ((e.detail.getD 2 (0, 0)).2)
      if rt.kind = 2 then (s.parcel p).bayAt rt.peerX rt.peerY else b
    else b
  | none => b

/-- The bay that a LATH_TOKEN's own CONTROL_DIGEST names (R307). -/
def State.digestBay (s : State) (p seq : Nat) : Option BayId :=
  (s.flog.ring.find? (fun e => decide (e.code = 0x0204) && decide (e.parcel = p) && decide (seq < e.seq))).map (fun e => { x := e.x, y := e.y })

/-- A SEAM group is realigned in a rollback (12 R256, R257): the fields of a parcel that run at different frequencies after a late switch are
brought to the lowest of them first (DESIGN CHOICE, log entry 55). -/
def State.equalise (s : State) (fs : List Nat) : State :=
  let low := fs.foldl (fun m f => if (s.field f).island.live.toNat < m.toNat then (s.field f).island.live else m) (s.field (fs.headD 0)).island.live
  fs.foldl (fun s f => if (s.field f).island.live = low then s
    else s.modField f (fun x => { x with island := { x.island with live := low, standby := x.island.live }, cnt := bump x.cnt 2 1 })) s
def State.realignSeam (s : State) (n : Nat) : State :=
  let s := match s.parcelOfField (seamEnds n).1 with
    | some p => s.equalise (s.parcel p).fields
    | none => s
  if (s.seam n).released then s.seamAligned n [] else s.modSeam n (fun x => { x with overrun := [], shifts := [] })
/-- Every seam of a parcel whose OVERRUN stands is realigned before the parcel resumes (12 R257). -/
def State.realignAll (s : State) (p : Nat) : State :=
  (s.parcel p).seams.foldl (fun s n => if (s.seam n).overrun ≠ [] then s.realignSeam n else s) s

/-- A crossing that overran is realigned, and the third overrun within 1,000,000 pegs retires the seam (R317). -/
def State.seamOverran (s : State) (n : Nat) : State × Nat × Bool :=
  let clock := (s.field (seamEnds n).1).pegClock
  let x := s.seam n
  let os := (x.overruns ++ [clock]).filter (fun o => decide (clock - o ≤ 1000000))
  let s := s.modSeam n (fun x => { x with overruns := os })
  if 3 ≤ os.length then (s.retireSeam n, 9, true)
  else (s.realignSeam n, 7, false)

/-- Attribution and escalation of a parcel's first fault (R307, R311, R312, R316, R317, R321): the state, the ACTION, and whether the
repair needed a spare that is in use. -/
def State.escalate (s : State) (p : Nat) (r : FaultRec) (found : PathFinding) : State × Nat × Bool :=
  let here : BayId := { x := r.x, y := r.y }
  if r.injected then (s, 1, false)
  else if r.code = 0x010B ∨ r.code = 0x0402 ∨ r.code = 0x0404 ∨ r.code = 0x0408 then
    match r.cask with
    | some c => s.caskFaulted c
    | none => (s, 1, false)
  else if r.code = 0x0401 ∨ r.code = 0x0406 then
    match r.stave, r.cask with
    | some _, _ => (s, 5, false)
    | none, some c => s.caskFaulted c
    | none, none => (s, 1, false)
  else if r.code = 0x0308 then s.seamOverran r.x
  else if 0x0301 ≤ r.code ∧ r.code ≤ 0x0304 then
    match found with
    | .nothing => s.bayFaulted (s.sourceBay p r)
    | .wire l g => let x := s.steerWire l g; (x.1, 6, x.2)
    | .router b => s.bayFaulted b
  else if r.code = 0x0306 then
    match s.digestBay p r.seq with
    | some b => s.bayFaulted b
    | none => (s, 1, false)
  else if r.unit = 0x01 then s.bayFaulted here
  else (s, 1, false)

/-- Class D (R311): the first occurrence is only remembered; the same code in the same bay and peg interval again is a DATA_FAULT. -/
def dataAgain (i : Inv) (r : FaultRec) : Bool := isClassD r.code && decide (i.dfault = some (r.code, r.x, r.y, r.peg))

/-- A first occurrence whose re-execution did not raise the same is attributed as a class U fault (R311). -/
def State.settleData (s : State) (i : Inv) : State × Bool :=
  match i.dfault with
  | some (_, x, y, _) => let r := s.bayFaulted { x := x, y := y }; (r.1, r.2.2)
  | none => (s, false)

/-- The rollback of a parcel that stands stopped, or whose END has issued (R227, R310-R318). -/
def State.rollback (s : State) (p : Nat) (i : Inv) (m : Image) (r : FaultRec) (found : PathFinding) : State :=
  if r.code = 0x0901 then s.loseParcel p
  else if i.abortReq then s.endAndPark p 0x0607 0
  else if s.plate.cmstFailed then s.failRun p 0x0502 12 false
  else
  let s := s.contractSees 5
  if !(r.injected) && dataAgain i r then
    (s.setAction r.seq 8).failRun p 0x0903 8 true
  else
    let fresh := isClassD r.code && !r.injected
    let (s, short1) := if fresh && i.dfault.isNone then (s, false) else s.settleData i
    let (s, act, short2) := if fresh then (s, 1, false) else s.escalate p r found
    let s := (s.setAction r.seq act).modInv p (fun i => { i with dfault := if fresh then some (r.code, r.x, r.y, r.peg) else none })
    if short1 || short2 then (s.setAction r.seq 8).failRun p 0x0901 8 true
    else if 6 ≤ i.restores then s.failRun p 0x0902 8 true
    else
      let s := (s.realignAll p).rewind p
      let s := s.modInv p (fun i => { i with rollbacks := i.rollbacks + 1, restores := i.restores + 1, fault := none })
      match (s.parcel p).base.bind (fun k => (s.parcel p).vint[k]?) with
      | some v => s.restoreVintage p v false
      | none =>
        let s := (s.startBays p m i.prologueRan i.runKey).redraw p
        s.modInv p (fun i => { i with checked := 0, decided := 1, endSeen := false, tokens := [], bayTok := [], stop := none, later := [], fault := none })

/-- Has every bay of the parcel stopped issuing? -/
def State.allEnded (s : State) (p : Nat) : Bool := (s.parcel p).bays.all (fun b => !(s.bay b).seq.issuing)

end Sys2Proof.Machine
end

