-- ==== Sys2Proof/Machine/TrellisOps.lean ====
section
/-! DEFINITION. What the trellis computes: voltages, the effective cap, forecasts, shares, headroom (13 R266, R279, 14 R281-R299). Powers
in milliwatts unless a name says W. -/

namespace Sys2Proof.Machine
open Sys2Proof

/-- The converter term of R266, in force while fewer than 3 converter modules work. -/
def convCount (c : BitVec 4) : Nat := (List.range 4).foldl (fun n k => if c.getLsbD k then n + 1 else n) 0
def State.convCap (s : State) : Option Nat := match convCount s.plate.conv with
  | 2 => some 3400
  | 1 => some 1700
  | 0 => some 0
  | _ => none

/-- The contract level: the lowest of the active contracts' (R285, R291). -/
def contractTerm : Option Contract → List (Nat × Nat)
  | some c => if c.state = 1 then [(2, c.level)] else []
  | none => []

/-- The terms of R285 in force, each with its SOURCE code (R303). Park level by a failed trellis or control plane stands as the host
term (15 R319, R320). -/
def State.capTerms (s : State) : List (Nat × Nat) :=
  let t := s.trellis
  let lic := s.licPower
  [(0, if t.failed || s.plate.cmstFailed then 0 else min lic (t.hostCap.getD lic))] ++
    (match t.leaseCap with
      | some c => [(1, min lic c)]
      | none => []) ++
    contractTerm t.contractP ++ contractTerm t.contractL ++
    (if t.fastActive.getLsbD 31 then [(3, min lic (t.fastActive.toNat % 65536))] else []) ++
    [(4, lic)] ++
    (match s.convCap with
      | some c => [(5, c)]
      | none => []) ++
    (if s.inputLost then [(6, 1000)] else [])
/-- The lowest term, the highest code among equals (R303). -/
def State.capTerm (s : State) : Nat × Nat :=
  s.capTerms.foldl (fun b c => if c.2 < b.2 ∨ (c.2 = b.2 ∧ b.1 < c.1) then c else b) (4, s.licPower)
/-- 10 % off for each step of a thermal warning (R299). -/
def cutTenth : Nat → Nat → Nat
  | 0, w => w
  | k + 1, w => cutTenth k (w * 9 / 10)
/-- The effective cap in watts. -/
def State.effCap (s : State) : Nat := cutTenth s.trellis.thermalCut s.capTerm.2

/-- 2^(k/25) in units of 2⁻¹⁶, k = 0 to 24. -/
def exp25 : List Nat :=
  [65536, 67378, 69272, 71220, 73222, 75281, 77397, 79573, 81810, 84110, 86475, 88906, 91405, 93975, 96617, 99334, 102126, 104997, 107949,
   110984, 114104, 117312, 120610, 124001, 127487]
/-- 2^(n/25) in units of 2⁻¹⁶ (R295). -/
def leakFactor (n : Int) : Nat :=
  let k := exp25.getD (n % 25).toNat 65536
  let q := n / 25
  if 0 ≤ q then k * 2 ^ q.toNat else k / 2 ^ q.natAbs

/-- The three terms of R295 at an FCODE, a temperature and a shim budget. -/
def PhaseEnt.dynMw (e : PhaseEnt) (f beta : Nat) : Nat :=
  let v := vOf (BitVec.ofNat 8 f)
  e.pdyn * 1000 * f * v * v * (65536 * 16 - e.sigma * (16 - beta)) / (72 * 695 * 695 * 65536 * 16)
def PhaseEnt.leakMw (e : PhaseEnt) (f : Nat) (temp : Int) : Nat :=
  let v := vOf (BitVec.ofNat 8 f)
  e.pleak * 1000 * v * v * v * leakFactor (temp - e.tref) / (695 * 695 * 695 * 65536)
def PhaseEnt.caskMw (e : PhaseEnt) (f : Nat) : Nat := e.pcask * 1000 * f / 72
/-- The forecast of a phase without its share of base power (R295). -/
def PhaseEnt.forecastMw (e : PhaseEnt) (f beta : Nat) (temp : Int) : Nat := e.caskMw f + e.leakMw f temp + e.dynMw f beta

/- The trellis's sensors by number (R281): rails and phases, bays by physical position, sills, the plate and the module, the coolant. -/
def railKey (rail phase : Nat) : Nat := 64 * rail + phase
def bayKey (f bent pos : Nat) : Nat := 10000 + 156 * f + 13 * bent + pos
def sillKey (c : Nat) : Nat := 12000 + c
def plateKey (k : Nat) : Nat := 13000 + k
def inletKey : Nat := 13998
def outletKey : Nat := 13999
/-- The period at which a sensor reports, in nanoseconds (R281). -/
def sensorPeriod (k : Nat) : Nat := if k < 10000 then 10000 else if k < 13000 then 100000 else 1000000
/-- The field that a rail feeds: its VFAB, or the rails of one of its casks. -/
def railField (r : Nat) : Option Nat := if r < 10 then some r else if r < 90 then some ((r - 10) % 20 / 2) else none
/-- The field that a bay or sill sensor lies in. -/
def sensorField (k : Nat) : Option Nat :=
  if k < 10000 then none else if k < 11560 then some ((k - 10000) / 156) else if 12000 ≤ k ∧ k < 12020 then some ((k - 12000) / 2) else none
/-- Is what a sensor measures powered? -/
def State.sensorOn (s : State) (k : Nat) : Bool :=
  if k < 640 then (s.field (k / 64)).supply.vfab
  else if k < 5760 then (s.cask ((k / 64 - 10) % 20)).rails
  else if k < 10000 then true
  else if k < 12000 then (s.field ((k - 10000) / 156)).supply.vfab
  else if k < 13000 then (s.cask (k - 12000)).rails
  else true
def State.reading (s : State) (k : Nat) : Reading := Sparse.get Reading.init s.trellis.sensors k
/-- Is a reading stale: have three of its periods passed without an update (R283)? -/
def State.staleAt (s : State) (k ns : Nat) : Bool := decide (ns + 3 * sensorPeriod k ≤ s.tNs)
/-- The rail powers in milliwatts over the rails that a test takes; a stale sample counts 1.25 times (R283). -/
def State.railMw (s : State) (ok : Nat → Bool) : Nat :=
  s.trellis.sensors.foldl (fun n e =>
    if decide (e.1 < 10000) && ok (e.1 / 64) && s.sensorOn e.1 then n + (if s.staleAt e.1 e.2.ns then e.2.v * 5 / 4 else e.2.v) else n) 0
/-- Is a rail sample of a field stale (R283)? -/
def State.staleRail (s : State) (f : Nat) : Bool :=
  s.trellis.sensors.any (fun e => decide (e.1 < 10000) && decide (railField (e.1 / 64) = some f) && s.sensorOn e.1 && s.staleAt e.1 e.2.ns)

/-- The hottest fresh reading of the sensors that a test takes, if one is fresh. -/
def State.freshMax (s : State) (ok : Nat → Bool) : Option Nat :=
  s.trellis.sensors.foldl (fun m e =>
    if decide (10000 ≤ e.1) && ok e.1 && s.sensorOn e.1 && !s.staleAt e.1 e.2.ns then some (max (m.getD 0) e.2.v) else m) none
/-- A bay or sill sensor as the trellis takes it: a stale one reads the hottest fresh reading of its bent, or of its field for a sill, and 5
degrees (R283); its own last value and 5 degrees where none is fresh (DESIGN CHOICE, log entry 54). -/
def State.heat (s : State) (k : Nat) (r : Reading) : Nat :=
  if s.staleAt k r.ns then
    (s.freshMax (fun j => if k < 12000 then decide (j < 12000) && decide ((j - 10000) / 13 = (k - 10000) / 13)
      else decide (12000 ≤ j) && decide (j < 12020) && decide ((j - 12000) / 2 = (k - 12000) / 2))).getD r.v + 5
  else r.v
/-- Has every sensor of a field been stale for 10 ms (R283)? -/
def State.fieldBlind (s : State) (f : Nat) : Bool :=
  let own := s.trellis.sensors.filter (fun e => decide (sensorField e.1 = some f) && s.sensorOn e.1)
  decide (own ≠ []) && own.all (fun e => decide (e.2.ns + 3 * sensorPeriod e.1 + 10000000 ≤ s.tNs))
/-- The hottest bay sensor and the hottest sill sensor of a parcel's fields. -/
def State.hotBay (s : State) (q : Parcel) : Nat :=
  let m := s.trellis.sensors.foldl (fun m e =>
    if decide (10000 ≤ e.1) && decide (e.1 < 11560) && q.holds ((e.1 - 10000) / 156) && s.sensorOn e.1 then max m (s.heat e.1 e.2) else m) 0
  if q.fields.any (fun f => s.fieldBlind f) then max m 105 else m
def State.hotSill (s : State) (q : Parcel) : Nat :=
  s.trellis.sensors.foldl (fun m e =>
    if decide (12000 ≤ e.1) && decide (e.1 < 12020) && q.holds ((e.1 - 12000) / 2) && s.sensorOn e.1 then max m (s.heat e.1 e.2) else m) 0
/-- The temperature that a parcel's leakage is forecast at: its hottest bay. -/
def State.parcelTemp (s : State) (q : Parcel) : Int := s.hotBay q

/-- The entry of a phase: learned, else the image's estimate (22 R468), else the defaults of 14 R294. -/
def Parcel.phaseEnt (q : Parcel) (ph : Nat) (temp : Int) : PhaseEnt :=
  let l := Sparse.get PhaseEnt.none q.tr.learned ph
  if l ≠ PhaseEnt.none then l
  else match q.image.bind (fun m => m.phases.find? (fun e => e.phase = ph)) with
    | some e => e
    | none =>
      let n := q.w * q.h
      { PhaseEnt.none with phase := ph, tref := temp.toNat, pdyn := 341 * n, pleak := 53 * n, pcask := 93 * n }

/-- The FCODE at which the parcel runs. -/
def State.fcode (s : State) (q : Parcel) : Nat := (s.field (q.c0 + 5 * q.r0)).island.live.toNat
/-- A raised, idle field draws 45 W (the example of chapter 14). -/
def idleFieldMw : Nat := 45000

/-- The parcel's forecast at an FCODE and a shim budget, in its present phase. -/
def State.parcelMw (s : State) (q : Parcel) (f beta : Nat) : Nat :=
  let temp := s.parcelTemp q
  (q.phaseEnt q.tr.phase.toNat temp).forecastMw f beta temp

/-- Does every field of the parcel stay within its current cap and 700 A at an FCODE (R288)? -/
def State.currentOk (s : State) (q : Parcel) (f beta : Nat) : Bool :=
  let temp := s.parcelTemp q
  let e := q.phaseEnt q.tr.phase.toNat temp
  let amps := (e.leakMw f temp + e.dynMw f beta) / (max 1 (q.w * q.h) * vOf (BitVec.ofNat 8 f))
  q.fields.all (fun k => decide (amps ≤ min 700 (s.field k).supply.capA))

/-- The highest FCODE that heat and, with sill operations, the slowest sill allow (10 R203, 14 R299). -/
def State.maxF (s : State) (q : Parcel) : Nat :=
  let sill := q.casks.foldl (fun m c => min m (s.cask c).ceiling) 16
  match q.image with
  | some m => if m.sillOps then min q.tr.ceil (72 * sill / 16) else q.tr.ceil
  | none => q.tr.ceil
/-- FCODE values from the highest down. -/
def fcodesDown : List Nat := (List.range 49).map (fun i => 0x48 - i)
/-- The highest FCODE that a test and the limits allow; 0x18 when none. -/
def State.bestF (s : State) (q : Parcel) (beta : Nat) (ok : Nat → Bool) : Nat :=
  (fcodesDown.find? (fun f => decide (f ≤ s.maxF q) && s.currentOk q f beta && ok f)).getD 0x18
/-- need of R287: the forecast at the highest frequency the other limits allow. -/
def State.needMw (s : State) (q : Parcel) : Nat := s.parcelMw q (s.bestF q 16 (fun _ => true)) 16
/-- The least a parcel can run at. -/
def State.leastMw (s : State) (q : Parcel) : Nat := s.parcelMw q 0x18 1

/-- The running parcels. -/
def State.runners (s : State) : List Nat := (List.range 4).filter (fun p => (s.parcel p).running && decide ((s.parcel p).st ≠ .parked))

/-- Runners that no park waits for. -/
def State.steady (s : State) : List Nat := s.runners.filter (fun p => match (s.parcel p).inv with
  | some i => !i.parkReq
  | none => false)
/-- A line of the division of R287. -/
structure ShareLine where
  p : Nat
  weight : Nat
  need : Nat
  share : Nat
  deriving DecidableEq, Repr

/-- One round: split b in proportion to WEIGHT, clip at need; what was clipped is left. -/
def shareRound (b : Nat) (ls : List ShareLine) : Nat × List ShareLine :=
  let w := ls.foldl (fun n l => if l.share < l.need then n + l.weight else n) 0
  if w = 0 then (0, ls)
  else
    let give := fun (l : ShareLine) => if l.share < l.need then b * l.weight / w else 0
    (ls.foldl (fun n l => n + (give l - (l.need - l.share))) 0, ls.map (fun l => { l with share := min l.need (l.share + give l) }))
def shareGo : Nat → Nat → List ShareLine → List ShareLine
  | 0, _, ls => ls
  | k + 1, b, ls => if b = 0 then ls else let r := shareRound b ls; shareGo k r.1 r.2
/-- The division of R287 over some running parcels: what is left of the cap after base power and the floors, and the shares; negative means
that parcels park. -/
def State.divideOver (s : State) (ps : List Nat) : Int × List ShareLine :=
  let ls := ps.map (fun p => let q := s.parcel p; let n := s.needMw q
                                    ({ p := p, weight := q.tr.weight, need := n, share := min (q.tr.floor * 1000) n } : ShareLine))
  let b : Int := (s.effCap * 1000 : Nat) - (s.trellis.base : Nat) - ((ls.foldl (fun n l => n + l.share) 0 : Nat) : Int)
  (b, if b < 0 then ls else shareGo 4 b.toNat ls)

/-- The shares of every running parcel, those that wait for their park among them: they draw power until they stop (R287). -/
def State.divide (s : State) : Int × List ShareLine := s.divideOver s.runners

/-- The module forecast now: the running parcels at their levels, and base power once (R295). -/
def State.forecastMw (s : State) : Nat :=
  s.runners.foldl (fun n p => let q := s.parcel p; n + s.parcelMw q (s.fcode q) q.tr.beta) s.trellis.base

/-- The phase of a parcel at a count to come: the last marker that its pegs bring by then, else its present one; a hinted phase from its count
on (R295, R296). -/
def Parcel.phaseAt (q : Parcel) (now c : Int) : BitVec 8 :=
  let ph := match ((q.image.map (fun m => m.marks)).getD []).findRev? (fun e => decide (now < e.1) && decide (e.1 ≤ c)) with
    | some e => e.2
    | none => q.tr.phase
  match q.tr.hint with
  | some (h, at_) => if (at_ : Int) ≤ c ∧ ph = q.tr.phase then h else ph
  | none => ph
/-- A parcel's forecast j ms ahead, in mW without its share of base power (R295): the phase that the walk along its pegs finds at that count,
raised-idle power past END. -/
def State.aheadMw (s : State) (p j : Nat) : Nat :=
  let q := s.parcel p
  let f := s.fcode q
  let c := s.parcelCount p + ((j * 25000 * f : Nat) : Int)
  let body := (q.image.map (fun m => m.bodyCount)).getD 0
  if (body : Int) ≤ c then idleFieldMw * (q.w * q.h)
  else
    let ph := q.phaseAt (s.parcelCount p) c
    (q.phaseEnt ph.toNat (s.parcelTemp q)).forecastMw f q.tr.beta (s.parcelTemp q)
/-- The module forecast of each of the next 100 ms, in milliwatts; in watts. -/
def State.aheadAll (s : State) : List Nat := (List.range 100).map (fun j => s.runners.foldl (fun n p => n + s.aheadMw p j) s.trellis.base)
def State.aheadW (s : State) : List Nat := s.aheadAll.map (fun n => n / 1000)
def maxOf (l : List Nat) : Nat := l.foldl max 0
def meanOf (l : List Nat) : Nat := l.foldl (· + ·) 0 / max 1 l.length

/-- Headroom for one field's grant (13 R279): with 120 W more, the forecast over the next 100 ms stays within the running cap and the
capability of every working converter but one. No grant while INPUT_LOSS stands (16 R344). -/
def State.headroom (s : State) : Bool :=
  let w := maxOf s.aheadAll + 120000
  !s.inputLost && decide (w ≤ 1000 * s.effCap) && decide (w ≤ 1000 * (1750 * (convCount s.plate.conv - 1)))

/-- Does a parcel's least running draw fit beside the others (R298)? -/
def State.resumeFits (s : State) (p : Nat) : Bool :=
  decide (s.runners.foldl (fun n r => n + s.leastMw (s.parcel r)) s.trellis.base + s.leastMw (s.parcel p) ≤ 1000 * s.effCap) &&
    decide (s.effCap ≠ 0) && !s.inputLost

/-- The VFAB boost for a phase in mV: 40 µV for each ampere of its current rise, at most 30 mV (R296). -/
def PhaseEnt.boostMv (e : PhaseEnt) : Nat := min 30 (40 * e.irise / 1000)

/-- The sill clock in sixteenths that a fabric FCODE needs (10 R203): s at least f / 1.8 GHz. -/
def sclkFor (f : Nat) : Nat := max 12 ((16 * f + 71) / 72)
/-- The sill clock that the parcel's sills may not fall below now: for the frequency they run at and the one they are ordered to (R203); 12/16
for an image without sill operations (R288). -/
def State.sclkNeed (s : State) (q : Parcel) : Nat := match q.image with
  | some m => if m.sillOps then sclkFor (q.fields.foldl (fun n k => max n (s.field k).topCode.toNat) 0) else 12
  | none => 12
/-- The highest FCODE that the sills' present clocks allow (R203). -/
def State.sclkMaxF (s : State) (q : Parcel) : Nat := match q.image with
  | some m => if m.sillOps then 72 * (q.casks.foldl (fun n c => min n (s.cask c).sclk) 16) / 16 else 0x48
  | none => 0x48

/-- A peg brings the shim budget and the sill clock that the trellis chose (R288, 03 R57): a sill clock falls only as far as the frequency
allows (10 R203). A phase marker brings its own boost of VFAB; a hint for it is used up (R296), and the phase before it has ended (R294). -/
def State.pegLevers (s : State) (p : Nat) (mark : Option (BitVec 8)) : State :=
  let q := s.parcel p
  let need := s.sclkNeed q
  let s := s.modParcel p (fun q => { q with tr := { q.tr with beta := q.tr.betaNext } })
  let s := if s.trellis.started then q.casks.foldl (fun s c => s.modCask c (fun k => { k with sclk := max (min k.ceiling q.tr.sclkNext) (min k.sclk need) })) s else s
  match mark with
  | some ph =>
    let boost := (q.phaseEnt ph.toNat (s.parcelTemp q)).boostMv
    let s := s.modParcel p (fun q => { q with tr := { q.tr with phase := ph, hint := none }.occStart ph s.tNs })
    q.fields.foldl (fun s k => (s.modField k (fun x => { x with supply := { x.supply with boostMv := boost } })).retarget k) s
  | none => s

/-- The bays of field g that lie next to its neighbour f (13 R279). -/
def seamBays (g f : Nat) : List BayId :=
  (fieldBays g).filter (fun b =>
    if f = g + 1 then decide (b.x % 12 = 11) else if g = f + 1 then decide (b.x % 12 = 0)
    else if f = g + 5 then decide (b.y % 12 = 11) else decide (b.y % 12 = 0))
/-- A grant precharges the struts of the neighbouring raised fields' bays next to the seam to 1.5 V until 100 us after the 200 us ramp, the rise
itself taking 20 us (13 R279). -/
def State.precharge (s : State) (f : Nat) : State :=
  (seamsOf f).foldl (fun s e =>
    if decide ((s.field e.2).st = .raised) then
      s.modField e.2 (fun x => { x with supply := { x.supply with strutPre := (seamBays e.2 f).foldl (fun m b => Sparse.set 0 m (bayIx b) (s.tNs + 320000)) x.supply.strutPre } })
    else s) s
/-- The voltage of a bay's struts (13 R274, R279). -/
def State.strutMv (s : State) (b : BayId) : Nat :=
  let x := (s.field (fieldOf b)).supply
  let low := Sparse.get (0, 0) x.strutLow (bayIx b)
  if !x.vfab then 0 else if s.tNs < low.2 then low.1 else if s.tNs < Sparse.get 0 x.strutPre (bayIx b) then 1500 else x.strutMv

end Sys2Proof.Machine
end

