-- ==== Sys2Proof/Machine/RaiseOps.lean ====
section
/-! DEFINITION. Raising: the checks of a signed package, of the grain map and of a licence (16 R331, R333, 21 R448, R449, R453), the
RAISE block's commands (16 R336), and the steps that bring a field up (R338-R346). -/

namespace Sys2Proof.Machine
open Sys2Proof

/-- The key hash of the device identity key (21 R442, R444). -/
def deviceHash : BitVec 384 := keyHash (Config.devicePublicKey 0)
/-- Extending a measurement register (21 R450). -/
def extendMr (m d : BitVec 384) : BitVec 384 := sha384Val (digestBytes m ++ digestBytes d)
def Seal.extend (x : Seal) (i : Nat) (d : BitVec 384) : Seal := { x with mr := listSet x.mr i (extendMr (x.mr.getD i 0#384) d) }

/-- One component of the package: its offset, length and digest. -/
def fwComp (h : Bytes) (k : Nat) : Nat × Nat × Nat := (h.leAt (40 + 72 * k) 8, h.leAt (48 + 72 * k) 8, h.leAt (56 + 72 * k) 48)
/-- Is a component well described, within the package, and its digest good (21 R448)? -/
def fwCompOk (m : Mem) (h : Bytes) (len k : Nat) : Bool :=
  let c := fwComp h k
  decide (h.leAt (32 + 72 * k) 4 = k + 1) && decide (h.leAt (36 + 72 * k) 4 = 0) && decide (c.1 % 4096 = 0) && decide (352 ≤ c.1) &&
    decide (c.1 + c.2.1 ≤ len) && decide ((sha384Val (m.readBytes c.1 c.2.1)).toNat = c.2.2)
/-- The header's fixed fields and its signature. -/
def fwHeadOk (h : Bytes) (len : Nat) : Bool :=
  decide (352 ≤ len) && decide (len ≤ 2 ^ 24) && decide (h.leAt 0 4 = 0x4B504D43) && decide (h.leAt 4 2 = 1) && decide (h.leAt 6 1 = 0xA0) &&
    decide (h.leAt 7 1 = 0) && decide (h.leAt 12 4 ≤ h.leAt 8 4) && decide (h.leAt 16 4 = 3) && allZero (h.slice 20 12) && allZero (h.slice 248 8) &&
    ecdsaVerify (Config.skaxoKey 0) (sha384 (h.take 256)) (h.leAt 256 48) (h.leAt 304 48)
/-- The outcome of VERIFY_FW (21 R448): E_OK, E_RAISE_FW_AUTH or E_RAISE_FW_ROLLBACK. -/
def fwCheck (m : Mem) (len floor : Nat) : Nat :=
  let h := m.readBytes 0 352
  if !(fwHeadOk h len && (List.range 3).all (fwCompOk m h len)) then 0x0F06
  else if h.leAt 8 4 < floor then 0x0F07
  else 0

/-- The grain map envelope verifies (21 R443, R449): a signed whole, bound to the device identity key and to stepping A0. -/
def grainOk (identity : Bool) (g : Bytes) : Bool :=
  let n := g.leAt 56 4
  identity && decide (g.length = 64 + n + 96) && decide (g.leAt 0 4 = 0x504D5247) && decide (g.leAt 4 2 = 1) && decide (g.leAt 6 1 = 0xA0) &&
    decide (g.leAt 7 1 = 0) && decide (g.leAt 8 48 = deviceHash.toNat) && allZero (g.slice 60 4) &&
    ecdsaVerify (Config.skaxoKey 1) (sha384 (g.take (64 + n))) (g.leAt (64 + n) 48) (g.leAt (112 + n) 48)

/-- A licence's own fields and its signature (21 R453). -/
def licSound (l : Bytes) : Bool :=
  decide (l.length = 192) && decide (l.leAt 0 4 = 0x4E43494C) && decide (l.leAt 4 2 = 1) && decide (l.leAt 7 1 < 8) && decide (1 ≤ l.leAt 64 1) &&
    decide (l.leAt 64 1 ≤ 10) && decide (1 ≤ l.leAt 65 1) && decide (l.leAt 65 1 ≤ 4) && decide (l.leAt 66 1 ≤ 32) && decide (l.leAt 66 1 % 4 = 0) &&
    decide (l.leAt 67 1 = 0) && decide (900 ≤ l.leAt 68 4) && decide (l.leAt 68 4 ≤ 5000) && allZero (l.slice 72 24) &&
    ecdsaVerify (Config.skaxoKey 2) (sha384 (l.take 96)) (l.leAt 96 48) (l.leAt 144 48)
/-- A licence's binding to this device (21 R443, R453). -/
def licBound (identity : Bool) (l : Bytes) : Bool := identity && decide (l.leAt 6 1 = 0xA0) && decide (l.leAt 16 48 = deviceHash.toNat)
def licOf (l : Bytes) : Licence :=
  { serial := l.leAt 8 8, fields := l.leAt 64 1, parcels := l.leAt 65 1, tapLanes := l.leAt 66 1, powerMax := l.leAt 68 4, features := l.leAt 7 1 }
/-- BUNDLE (21 R454). -/
def Licence.bundle (l : Licence) : Nat :=
  let f := l.features % 4
  if l.fields = 6 ∧ l.parcels = 1 ∧ l.tapLanes = 8 ∧ l.powerMax = 3000 ∧ f = 0 then 1
  else if l.fields = 8 ∧ l.parcels = 2 ∧ l.tapLanes = 16 ∧ l.powerMax = 4000 ∧ f = 1 then 2
  else if l.fields = 10 ∧ l.parcels = 4 ∧ l.tapLanes = 32 ∧ l.powerMax = 5000 ∧ f = 3 then 3
  else 4
/-- The key table as it is measured (21 R450, R455): KEY_ID, USE and the point of each key. -/
def keyTableBytes (ks : List RegKey) : Bytes := ks.flatMap (fun k => natLe 4 k.id ++ natLe 4 k.use_ ++ k.pub)

/-- Fields RAISED, RAISING or UNPARKING (16 R337). -/
def FState.counts : FState → Bool
  | .raised => true
  | .raising => true
  | .unparking => true
  | _ => false
def State.raisedCount (s : State) : Nat := ((List.range 10).filter (fun f => (s.field f).st.counts)).length
def maskFields (m : BitVec 10) : List Nat := (List.range 10).filter (fun f => m.getLsbD f)

/-- Is a field in the state that an OP requires (R336, R344)? -/
def State.opState (s : State) (op f : Nat) : Bool :=
  let x := s.field f
  match op with
  | 4 => decide (x.st = .dark) || (decide (x.st = .failed) && x.failRaise && !x.tripped)
  | 5 => decide (x.st = .raised)
  | 6 => decide (x.st = .parked)
  | _ => false
/-- Does an OP suit the stage (R336)? -/
def opStage (op stage : Nat) : Bool :=
  match op with
  | 1 => decide (stage = 1)
  | 2 => decide (stage = 2)
  | 3 => decide (stage = 3)
  | 4 => decide (stage = 4) || decide (stage = 5)
  | 5 => decide (stage = 4)
  | 6 => decide (stage = 4)
  | _ => false
/-- Why a write to RAISE_CMD is refused, 0 when it is accepted (R336). -/
def State.raiseRefusal (s : State) (op : Nat) (fields : BitVec 10) : Nat :=
  let r := s.raising
  let up := decide (op = 4) || decide (op = 6)
  if r.cmd.isSome || r.finishing then 0x0F01
  else if !opStage op r.stage then 0x0F02
  else if up && !r.grainOk then 0x0F09
  else if up && s.refLoss then 0x0F0B
  else if op ≤ 3 && decide (fields ≠ 0#10) then 0x0F03
  else if 4 ≤ op ∧ (maskFields fields).any (fun f => !s.opState op f) then 0x0F03
  else if up && decide (s.licFields < s.raisedCount + (maskFields fields).length) then 0x0F04
  else if op = 1 ∧ r.fwLen = 0 then 0x0F05
  else 0

def State.modRaising (s : State) (f : Raising → Raising) : State := { s with raising := f s.raising }
/-- RAISE_ERR takes a code (R335). -/
def State.raiseErr (s : State) (code step field op : Nat) : State :=
  s.modRaising (fun r => { r with errCode := code, errStep := step, errField := field, errOp := op })

/-- A write to RAISE_CMD by the principal (R336): refused, or accepted with BUSY, LASTOP and E_OK in RAISE_ERR; fields that are to come
up are RAISING or UNPARKING from then on. -/
def State.raiseAccept (s : State) (port op : Nat) (fields : BitVec 10) (memtest : Bool) : State :=
  let why := s.raiseRefusal op fields
  if why ≠ 0 then (s.raiseErr why 0 15 op).modRaising (fun r => { r with cmdRej := true })
  else
    let s := (s.raiseErr 0 0 15 op).modRaising (fun r =>
      { r with lastOp := op, cmd := some { op := op, port := port, fields := fields, memtest := memtest, atNs := s.tNs } })
    match op with
    | 4 => (maskFields fields).foldl (fun s f => s.modField f (fun x => { x with st := .raising, step := 1, fast := false, newHoles := 0, code := 0 })) s
    | 6 => (maskFields fields).foldl (fun s f => s.modField f (fun x => { x with st := .unparking, step := 1, fast := true, code := 0 })) s
    | _ => s
/-- The command that a row completes: the one accepted before, or one accepted now. -/
def State.raiseTake (s : State) (port op : Nat) (fields : BitVec 10) (memtest : Bool) : State × Option RaiseCmd :=
  if !s.isPrincipal port then (s, none)
  else match s.raising.cmd with
    | some c => if c.op = op then (s, some c) else if s.portLive port then (s.raiseAccept port op fields memtest, none) else (s, none)
    | none => if s.portLive port then (let t := s.raiseAccept port op fields memtest; (t, t.raising.cmd)) else (s, none)
def State.raiseIdle (s : State) : State := s.modRaising (fun r => { r with cmd := none })

/-- What raising meets in a field that shows no failure. -/
def FieldFindings.good (f : Nat) : FieldFindings :=
  { field := f, softstartOk := true, tripped := false, pllOk := true, structOk := true, badBays := [], badColumns := [], slicesBad := [], epochBad := 0, wiresBad := []
    alignFail := [], microOk := true, clearOk := true, cellarFail := none, memtestOk := true, overrun := none, models := [], leakMa := 0, leakT := 0 }
def findingOf (found : List FieldFindings) (f : Nat) : FieldFindings := (found.find? (fun x => x.field = f)).getD (FieldFindings.good f)

/-- A field on its way through the steps: the state and the code of the step that failed. -/
structure RStep where
  s : State
  code : Nat
  step : Nat
  deriving DecidableEq, Repr

/-- One step (R338): it overruns its timeout, or does its work, or fails; REF_LOSS stops the field at the end of a step (R344). -/
def RStep.run (r : RStep) (f k : Nat) (d : FieldFindings) (work : State → State × Nat) : RStep :=
  if r.code ≠ 0 then r
  else
    let s := r.s.modField f (fun x => { x with step := k })
    if d.overrun = some k then { s := s, code := 0x0F18, step := k }
    else
      let w := work s
      { s := w.1, code := if w.2 = 0 ∧ s.refLoss then 0x0F0B else w.2, step := k }

/-- A field's regulators trip (13 R276): FIELD_SHORT, the field stays dark until module reset, its hub too. -/
def State.fieldTrips (s : State) (f : Nat) (p : Option Nat) : State :=
  let s := (if s.plate.cmstRunning then s.powerEvent 11 0x0A f 0 f p false else s).modField f (fun x => { x with supply := { x.supply with shorted := true }, tripped := true })
  (s.modEsc (fun e => { e with shorted := (e.shorted ++ [f]).eraseDups })).hubDown f
/-- GRANT (R338, 13 R279, R275, R276, 14 R294). Raising repeats the measurement of the bump groups and of the leakage; a field that trips in its
soft-start fails raising. -/
def stepGrant (f : Nat) (d : FieldFindings) (fast : Bool) (s : State) : State × Nat :=
  if !s.headroom then (s, 0x0F0C)
  else
    let s := [2 * f, 2 * f + 1].foldl (fun s c => s.modCask c (fun k => { k with rails := true })) s
    let s := s.precharge f
    if d.tripped then (s.fieldTrips f none, 0x0F0D)
    else if !d.softstartOk then (s, 0x0F0D)
    else
      (s.modField f (fun x => { x with supply := { x.supply with
          vfab := true, mv := 550, settleNs := s.tNs, models := if fast then x.supply.models else d.models, leakMa := if fast then x.supply.leakMa else d.leakMa
          leakT := if fast then x.supply.leakT else d.leakT, strutPre := [], strutLow := [], crackNs := none, crack := [] } }), 0)

/-- One EPOCH_LOAD of raising (12 R247): V is 64 edges ahead of the master. -/
def State.loadEpoch (s : State) (f : Nat) : State :=
  s.emit (.clockCmd f 0x23 { count := (s.plate.master + 64) % 2 ^ 48, fcode := 0#8, stop := false })
/-- PLL (R338): the field's hub must be reached (13 R278); both PLLs at FCODE 0x18; the island's epoch is loaded from the master, again up to three times while its report differs
(12 R247); CAL and ESC applied. The island then counts as the master does. -/
def stepPll (f : Nat) (d : FieldFindings) (s : State) : State × Nat :=
  if !d.pllOk || !s.hubUp f then (s, 0x0F0E)
  else
    let s := (List.range (min 4 (d.epochBad + 1))).foldl (fun (s : State) _ => s.loadEpoch f) (s.modField f (fun x => { x with island := Island.init }))
    if 4 ≤ d.epochBad then (s, 0x0F0E)
    else
      let m := s.plate.master
      (s.modField f (fun x =>
        let x := { x with island := { x.island with epoch := m } }
        { x with supply := x.supply.setMv s.tNs (x.vTarget 0x18#8) }), 0)

/-- The candidates of a test source (R339): 0xF is the plate. -/
def testSources (f : Nat) : List Nat := if f % 5 = 0 then [0xF] else [f - 1, (f + 5) % 10]
def State.testSource (s : State) (f : Nat) : Option Nat :=
  (testSources f).find? (fun g => decide (g = 0xF) || decide ((s.field g).st = .raised))
/-- TEST (R338, R339). -/
def stepTest (f : Nat) (d : FieldFindings) (waits : Bool) (s : State) : State × Nat :=
  match s.testSource f with
  | none => (s, if waits then 0x0F18 else 0x0F0F)
  | some src =>
    let s := s.modField f (fun x => { x with src := src })
    if d.structOk then (s, 0) else (s, 0x0F10)

/-- The logical column of a physical position (08 R158). A hole found at the spare position, which has no logical column, is named by the last
one (DESIGN CHOICE, log entry 55). -/
def logicalCol (spare pos : Nat) : Nat := min 11 (if pos < spare then pos else pos - 1)
/-- Positions of a bent that TEST fails: failing bays, and presses with two failed columns, one of which may be known from the grain map or the
summary (R340, 03 R43). -/
def failedBays (d : FieldFindings) (known : List (Nat × Nat × Nat × Nat)) (k : Nat) : List Nat :=
  let two := fun (e : Nat × Nat × Nat × Nat) => (d.badColumns ++ known).any (fun g => g.1 = e.1 ∧ g.2.1 = e.2.1 ∧ g.2.2.1 = e.2.2.1 ∧ g.2.2.2 ≠ e.2.2.2)
  (((d.badBays.filter (fun e => e.1 = k)).map (fun e => e.2)) ++ ((d.badColumns.filter (fun e => decide (e.1 = k) && two e)).map (fun e => e.2.1))).eraseDups

/-- RECONCILE for one bent (R340): its hole set, entries for new holes, the spare position. The result is the number of new holes. -/
def reconcileBent (f : Nat) (d : FieldFindings) (k : Nat) (s : State) : State × Nat :=
  let t := s.bent f k
  let old := (t.holes ++ ((s.flog.esc.holes.filter (fun h => h.1 = 12 * f + k)).map (fun h => h.2))).eraseDups
  let spare := if old.length = 1 then old.headD 12 else 12
  let new := (failedBays d (s.field f).columns k).filter (fun p => !old.contains p)
  let s := new.foldl (fun s p =>
    (s.modEsc (fun e => { e with holes := e.holes ++ [(12 * f + k, p)] })).report
      { code := 0x0906, unit := 0x01, x := 12 * (f % 5) + logicalCol spare p, y := 12 * (f / 5) + k, action := 3 }) s
  let h := old ++ new
  let s := s.modBent f k (fun t => { t with holes := h, spare := if h.length = 1 then h.headD 12 else 12 })
  let cols := d.badColumns.filter (fun e => decide (e.1 = k) && !h.contains e.2.1 && !(s.field f).columns.contains e)
  let s := cols.foldl (fun s e =>
    ((s.modEsc (fun z => { z with columns := z.columns ++ [(f, k, e.2.1, 4 * e.2.2.2 + e.2.2.1)] })).modField f (fun x =>
      { x with columns := x.columns ++ [e] })).report
      { code := 0x0907, unit := 0x01, x := 12 * (f % 5) + logicalCol (s.bent f k).spare e.2.1, y := 12 * (f / 5) + k, idx := e.2.2.1 }) s
  (s, new.length)

/-- Failed trim slices that raising finds (R340, 13 R273): one is logged, two retire the bent. -/
def reconcileSlices (f : Nat) (d : FieldFindings) (s : State) : State :=
  (List.range 12).foldl (fun (s : State) b =>
    let bad := ((d.slicesBad.filter (fun e => decide (e.1 = b) && decide (e.2 < 14))).map (fun e => e.2)).eraseDups
    let s := s.modBent f b (fun t => { t with slices := bad })
    if bad = [] then s
    else if bad.length = 1 then s.powerEvent 8 0x0A f 0 b none true
    else (s.modBent f b (fun t => { t with retired := true })).modEsc (fun z => { z with bents := (z.bents ++ [12 * f + b]).eraseDups })) s

/-- RECONCILE (R340). -/
def stepReconcile (f : Nat) (d : FieldFindings) (s : State) : State × Nat :=
  let r := (List.range 12).foldl (fun (a : State × Nat) k => let b := reconcileBent f d k a.1; (b.1, a.2 + b.2)) (s, 0)
  let s := r.1.modField f (fun x => { x with newHoles := min 12 r.2 })
  let s := reconcileSlices f d s
  let bad := (List.range 12).any (fun k => let t := s.bent f k; decide (2 ≤ t.holes.length) || t.retired || s.flog.esc.bents.contains (12 * f + k))
  (s, if bad then 0x0F11 else 0)

/-- ALIGN of one seam (R341): wires are steered, a group with no spare left retires the seam, the SEAM group is aligned; one that fails R256
four times has made three repeats (12 R263). -/
def alignSeam (f n : Nat) (d : FieldFindings) (s : State) : State × Nat :=
  let r := (d.wiresBad.filter (fun e => e.1.seam = n)).foldl (fun (a : State × Bool) e => let b := a.1.steerWire e.1 e.2; (b.1, a.2 || b.2)) (s, false)
  if r.2 then ((r.1.retireSeam n).modField f (fun x => { x with code := 0x0F13 }), 0)
  else if d.alignFail.contains n then ((([(seamEnds n).1, (seamEnds n).2]).foldl (fun (s : State) g => s.modField g (fun y => { y with cnt := bump y.cnt 4 3 })) r.1), 0x0F12)
  else if r.1.seamOpen n then (r.1.seamAligned n [], 0)
  else (r.1, 0)
/-- ALIGN (R341), for each seam to a RAISED neighbour. -/
def stepAlign (f : Nat) (d : FieldFindings) (s : State) : State × Nat :=
  ((seamsOf f).filter (fun e => decide ((s.field e.2).st = .raised) && !(s.seam e.1).retired)).foldl (fun (a : State × Nat) e =>
    if a.2 ≠ 0 then a else alignSeam f e.1 d a.1) (s, 0)

/-- The microcode words of the verified package (R338, 21 R448). -/
def lathWords (bs : Bytes) : List Word := (List.range (bs.length / 4)).map (fun i => BitVec.ofNat 32 (bs.leAt (4 * i) 4))
def State.microWords (s : State) : List Word :=
  let c := fwComp (s.raising.staging.readBytes 0 352) 1
  lathWords (s.raising.staging.readBytes c.1 c.2.1)
/-- MICRO (R338). -/
def stepMicro (f : Nat) (d : FieldFindings) (s : State) : State × Nat :=
  if !d.microOk then (s, 0x0F14)
  else
    let ws := s.microWords
    ((fieldBays f).foldl (fun s b => s.modBay b (fun x => { x with micro := storeItems 0#32 (2 ^ 32) [] 0 ws })) s, 0)

/-- The column of a press that is steered at a logical bay (R43, R340). -/
def State.steered (s : State) (f : Nat) (b : BayId) (pr : Nat) : Option Nat :=
  let pos := (s.bent f (bentOf b)).phys (b.x % 12)
  ((s.field f).columns.find? (fun e => e.1 = bentOf b ∧ e.2.1 = pos ∧ e.2.2.1 = pr)).map (fun e => e.2.2.2)
/-- A cleared bay (R338 CLEAR): zero and empty, every bank OFF, its microcode and its event counters as they were. -/
def State.clearedBay (s : State) (f : Nat) (b : BayId) (x : Bay) : Bay :=
  { Bay.init with
    micro := x.micro, counters := x.counters
    presses := (List.range 4).foldl (fun m pr => Sparse.set Press.init m pr { Press.init with column := s.steered f b pr }) []
    vat := { Vat.init with banks := (List.range 64).map (fun k => (k, { Bank.init with power := .off })) } }
/-- CLEAR (R338). -/
def stepClear (f : Nat) (d : FieldFindings) (s : State) : State × Nat :=
  if !d.clearOk then (s, 0x0F15) else ((fieldBays f).foldl (fun s b => s.modBay b (s.clearedBay f b)) s, 0)

/-- CELLAR (R342, R346): on the fast path the contents and the region tables stay. -/
def cellarUp (fast : Bool) (k : Cask) : Cask :=
  if fast then { k with portUp := true, selfRefresh := false, sclk := k.ceiling }
  else { k with portUp := true, selfRefresh := false, sclk := k.ceiling, mem := [], poison := [], regions := [], writes := [], journal := [], windows := [], period := 0 }
def stepCellar (f : Nat) (d : FieldFindings) (fast : Bool) (s : State) : State × Nat :=
  if d.cellarFail.isSome then (s, 0x0F16)
  else
    let s := [2 * f, 2 * f + 1].foldl (fun s c => s.modCask c (cellarUp fast)) s
    (s.modField f (fun x => { x with cellarUp := true }), 0)

/-- MEMTEST (R343, 15 R316): a pass clears an exclusion; failing staves are spared while a reserve is free. -/
def stepMemtest (f : Nat) (d : FieldFindings) (s : State) : State × Nat :=
  if !d.memtestOk then (s, 0x0F17)
  else
    ([2 * f, 2 * f + 1].foldl (fun s c =>
      let k := s.cask c
      let s := s.modCask c (fun k => { k with mem := [], poison := [], suspect := if k.excluded then Suspect.init else k.suspect, excluded := false })
      let s := if k.excluded then s.modEsc (fun e => { e with casks := e.casks.filter (fun y => y ≠ c) }) else s
      if k.reserve.isSome && k.failing ≠ [] then (s.modCask c (fun k => { k with copying := if k.copying.isSome then k.copying else k.failing.head? })).staveSpared c
      else s) s, 0)

/-- END (R338), or the failure of R344 and R346. The results are the code and the step that RAISE_ERR takes. -/
def RStep.finish (r : RStep) (f : Nat) (fast endParked : Bool) : State × Nat × Nat :=
  if r.code = 0 then
    let warn := (r.s.field f).code
    let s := r.s.modField f (fun x => { x with st := .raised, step := 10, calib := true, failRaise := false })
    (if endParked then s.fieldOff f .parked else s, warn, if warn = 0 then 0 else 5)
  else
    let trip := (r.s.field f).tripped
    let st : FState := if r.code = 0x0F0B then (if fast then .parked else .dark) else if fast && !trip then .parked else .failed
    let s := r.s.fieldOff f st
    let held := trip || (List.range 12).any (fun k => s.flog.esc.bents.contains (12 * f + k)) || (s.cask (2 * f)).excluded || (s.cask (2 * f + 1)).excluded
    (s.modField f (fun x => { x with code := r.code, failRaise := decide (st = .failed) && !held
                                     calib := x.calib && decide (st = .parked) }), r.code, r.step)

/-- The full raise of a field (R338); waits says that its test source was still RAISING at the timeout. -/
def State.raiseField (s : State) (f : Nat) (d : FieldFindings) (memtest waits endParked : Bool) : State × Nat × Nat :=
  let ex := (s.cask (2 * f)).excluded || (s.cask (2 * f + 1)).excluded
  let s := s.modField f (fun x => { x with st := .raising, step := 1, fast := false, newHoles := 0, code := 0 })
  let r : RStep := { s := s, code := 0, step := 1 }
  let r := r.run f 1 d (stepGrant f d false)
  let r := r.run f 2 d (stepPll f d)
  let r := r.run f 3 d (stepTest f d waits)
  let r := r.run f 4 d (stepReconcile f d)
  let r := r.run f 5 d (stepAlign f d)
  let r := r.run f 6 d (stepMicro f d)
  let r := r.run f 7 d (stepClear f d)
  let r := r.run f 8 d (stepCellar f d false)
  let r := if memtest || ex then r.run f 9 d (stepMemtest f d) else r
  r.finish f false endParked

/-- The fast re-raise of a field (R346). -/
def State.fastField (s : State) (f : Nat) (d : FieldFindings) : State × Nat × Nat :=
  let calib := (s.field f).calib
  let s := s.modField f (fun x => { x with st := .unparking, step := 1, fast := true, code := 0 })
  let r : RStep := { s := s, code := if calib then 0 else 0x0F19, step := 0 }
  let r := r.run f 1 d (stepGrant f d true)
  let r := r.run f 2 d (stepPll f d)
  let r := r.run f 4 d (fun s => (s, 0))
  let r := r.run f 5 d (stepAlign f d)
  let r := r.run f 6 d (stepMicro f d)
  let r := r.run f 7 d (stepClear f d)
  let r := r.run f 8 d (stepCellar f d true)
  r.finish f true false

/-- Ascending column, and within a column F(c) before F(c + 5) (R338). -/
def columnOrder (fs : List Nat) : List Nat := (List.range 10).filterMap (fun i => let f := i / 2 + 5 * (i % 2); if fs.contains f then some f else none)

/-- The first failure of a command goes to RAISE_ERR (R344). -/
def State.noteRaise (s : State) (f op : Nat) (r : Nat × Nat) : State :=
  if r.1 ≠ 0 ∧ s.raising.errCode = 0 then s.raiseErr r.1 r.2 f op else s

/-- A RAISE goes through its fields (R338, R339): a field whose test source is still to come waits for it; fields that wait for each
other reach the TEST timeout. -/
def raiseGo (found : List FieldFindings) (memtest endParked : Bool) : Nat → List Nat → State → State
  | 0, _, s => s
  | k + 1, fs, s =>
    match fs.find? (fun f => (s.testSource f).isSome || !(testSources f).any (fun g => fs.contains g)) with
    | some f =>
      let r := s.raiseField f (findingOf found f) memtest false endParked
      raiseGo found memtest endParked k (fs.filter (fun g => g ≠ f)) (r.1.noteRaise f 4 r.2)
    | none => fs.foldl (fun s f => let r := s.raiseField f (findingOf found f) memtest true endParked; r.1.noteRaise f 4 r.2) s

/-- Firmware brings a field to RAISED for a parcel: the fast path, or a full raise where no calibration is stored (R346). -/
def State.bringUp (s : State) (f : Nat) (found : List FieldFindings) : State :=
  if (s.field f).st = .raised then s
  else
    let d := findingOf found f
    if (s.field f).calib then (s.fastField f d).1 else (s.raiseField f d false false false).1
def State.bringUpAll (s : State) (fs : List Nat) (found : List FieldFindings) : State := (columnOrder fs).foldl (fun s f => s.bringUp f found) s

end Sys2Proof.Machine
end

