-- ==== Sys2Proof/Machine/Resume.lean ====
section
/-! DEFINITION. Bringing a parcel's fields up again, restoring its vintage, and taking it down (11 R240, 14 R298, 16 R346, 18 R379). -/

namespace Sys2Proof.Machine
open Sys2Proof

/-- The code of the first field of a list that is not RAISED. -/
def State.firstDown (s : State) (fs : List Nat) : Option Nat :=
  ((columnOrder fs).find? (fun f => decide ((s.field f).st ≠ .raised))).map (fun f => (s.field f).code)

/-- Fields that came up for a parcel which cannot have them all are parked again (17 R364). -/
def State.parkAgain (s : State) (fs : List Nat) : State :=
  fs.foldl (fun s f => if (s.field f).st = .raised then s.fieldOff f .parked else s) s

/-- A parked parcel comes up (14 R298): the fast re-raise path, the plan stores, the vintage; it stands stopped at the vintage's peg at
0.6 GHz until it is restarted. The second result is the raising status of the first field that fails. -/
def State.resumeParcel (s : State) (p : Nat) (found : List FieldFindings) : State × Nat :=
  let s := s.setPState p .resuming
  let fs := (s.parcel p).fields
  let s := s.bringUpAll fs found
  match s.firstDown fs with
  | some c => ((s.parkAgain fs).setPState p .parked, c)
  | none =>
    let q := s.parcel p
    let s := match q.image with
      | some m => s.loadBays p m
      | none => s
    let s := s.modParcel p (fun q => { q with parkedBy := none, inv := q.inv.map (fun i => { i with waitTrellis := false, parkReq := false }) })
    match q.inv with
    | some i =>
      if i.started then
        let s := match q.base.bind (fun k => q.vint[k]?) with
          | some v => s.restoreVintage p v false
          | none => s
        (s.setPState p .running, 0)
      else (s.setPState p .idle, 0)
    | none => (s.setPState p .idle, 0)

/-- Answer the resumes that wait for a parcel. -/
def State.resumeDone (s : State) (p : Nat) (code : Nat) : State :=
  s.answerWaits (fun w => decide (w.parcel = p) && decide (w.what = .resumed)) { status := code }

end Sys2Proof.Machine
end

