-- ==== Sys2Proof/Machine/Trellis.lean ====
section
/-! DEFINITION. The trellis's commands (14 R281-R301, 15 R320): the control loop, its reload, the forecast, learning, hints, leases and
contracts. -/

namespace Sys2Proof.Machine
open Sys2Proof

def State.modTrellis (s : State) (f : Trellis → Trellis) : State := { s with trellis := f s.trellis }
def State.modTr (s : State) (p : Nat) (f : PTrellis → PTrellis) : State := s.modParcel p (fun q => { q with tr := f q.tr })

/-- The readings of a loop: each sensor that reported takes its reading and this moment (R281). -/
def State.takeReadings (s : State) (t : TrellisInputs) : State :=
  let now := s.tNs
  let put := fun (m : Sparse Reading) (k v lim : Nat) => Sparse.set Reading.init m k { v := v, limit := lim, ns := now }
  let m := t.rails.foldl (fun m e => if e.1 < 94 ∧ e.2.1 < 64 then put m (railKey e.1 e.2.1) (e.2.2.1 * e.2.2.2 / 1000) 0 else m) s.trellis.sensors
  let m := t.bayT.foldl (fun m e => if e.1 < 10 ∧ e.2.1 < 12 ∧ e.2.2.1 < 13 then put m (bayKey e.1 e.2.1 e.2.2.1) e.2.2.2 0 else m) m
  let m := t.sillT.foldl (fun m e => if e.1 < 20 then put m (sillKey e.1) e.2 0 else m) m
  let m := t.plateT.foldl (fun m e => if e.1 < 40 then put m (plateKey e.1) e.2.1 e.2.2 else m) m
  let m := match t.inletT with
    | some v => put m inletKey v 45
    | none => m
  let m := match t.outletT with
    | some v => put m outletKey v 0
    | none => m
  s.modTrellis (fun x => { x with sensors := m, vin := t.vin, iin := t.iin })

/-- One terminal sample joins its window of 1 ms of the wall timebase; the last 100 windows stay (R282). -/
def addSample (wins : List PowerWin) (no power rails : Nat) : List PowerWin :=
  match wins with
  | w :: r =>
    if w.no = no then { w with n := w.n + 1, sum := w.sum + power, peak := max w.peak power, rails := w.rails + rails } :: r
    else { no := no, n := 1, sum := power, peak := power, rails := rails } :: (w :: r).take 99
  | [] => [{ no := no, n := 1, sum := power, peak := power, rails := rails }]
/-- The window that closed last; the present one before any has. -/
def Trellis.lastWin (x : Trellis) : PowerWin := match x.wins with
  | _ :: w :: _ => w
  | w :: _ => w
  | [] => { no := 0, n := 0, sum := 0, peak := 0, rails := 0 }
def PowerWin.mean (w : PowerWin) : Nat := w.sum / max 1 w.n
/-- The module power of the window in which something arrives (R290): the mean of its samples so far (DESIGN CHOICE, log entry 54). -/
def Trellis.windowPower (x : Trellis) : Nat := match x.wins with
  | w :: _ => w.mean
  | [] => x.power
/-- Rail milliwatts referred to the terminal by the ratio of R282, over the last 100 ms. -/
def State.terminalMw (s : State) (mw : Nat) : Nat :=
  let term := s.trellis.wins.foldl (fun n w => n + w.sum) 0
  let rails := s.trellis.wins.foldl (fun n w => n + w.rails) 0
  if rails = 0 then 0 else mw * (1000 * term) / rails
/-- The rails of a parcel: VFAB of its fields, and the rails of its casks (R282). -/
def Parcel.ownRail (q : Parcel) (r : Nat) : Bool := match railField r with
  | some f => q.holds f
  | none => false
/-- Attributed power in watts (R282). -/
def State.attributed (s : State) (q : Parcel) : Nat := s.terminalMw (s.railMw q.ownRail) / 1000

/-- Measurement (R281, R282): the readings, the sample in its window, module power, attributed and base power, 10 µs of energy. -/
def State.measure (s : State) (t : TrellisInputs) : State :=
  let s := s.takeReadings t
  let rails := s.railMw (fun _ => true)
  let s := s.modTrellis (fun x => { x with wins := addSample x.wins (s.plate.wall.toNat / 1000000) t.powerW rails, energyUj := x.energyUj + 10 * t.powerW })
  let s := s.modTrellis (fun x => { x with power := x.lastWin.mean })
  let s := (List.range 4).foldl (fun s p => s.modTr p (fun r => { r with power := s.attributed (s.parcel p) })) s
  let used := s.runners.foldl (fun n p => n + (s.parcel p).tr.power) 0
  s.modTrellis (fun x => { x with base := 1000 * (x.power - used) })

/-- One sample of a running parcel's phase (R294): leakage from the fields' calibration at 535 mV, scaled to the voltage and temperature; the
rest of the VFAB power referred to 1.8 GHz and 695 mV by R295; the casks' to 1.8 GHz. All of it referred to the terminal (DESIGN CHOICE,
log entry 54). -/
def State.occSample (s : State) (p : Nat) : State :=
  let q := s.parcel p
  let stopped := match q.inv with
    | some i => (i.stop.map (fun t => t.reached)).getD false
    | none => true
  if stopped || !q.running then s
  else
    let temp := s.parcelTemp q
    let f := s.fcode q
    let v := vOf (BitVec.ofNat 8 f)
    let die := s.terminalMw (s.railMw (fun r => decide (r < 10) && q.holds r))
    let cask := s.terminalMw (s.railMw (fun r => decide (10 ≤ r) && q.ownRail r))
    let leakAt := fun (mv : Nat) => q.fields.foldl (fun n k =>
      let x := (s.field k).supply
      n + x.leakMa * 535 * mv * mv * mv * leakFactor (temp - x.leakT) / (1000 * 535 * 535 * 535 * 65536)) 0
    let leak := s.terminalMw (leakAt v)
    let e := q.phaseEnt q.tr.phase.toNat temp
    let dyn := (die - leak) * 72 * 695 * 695 * (65536 * 16) / (max 1 f * v * v * (65536 * 16 - e.sigma * (16 - q.tr.beta)))
    s.modTr p (fun r => { r with occNow := r.occNow.map (fun o =>
      { o with n := o.n + 1, dyn := o.dyn + dyn, leak := o.leak + s.terminalMw (leakAt 695), cask := o.cask + cask * 72 / max 1 f, temp := o.temp + temp.toNat
               amps := o.amps + s.railMw (fun r => decide (r < 10) && q.holds r) / (v * max 1 (q.w * q.h)) }) })

/-- TELE_STALE for each sample that has become stale (R283). -/
def State.staleEvents (s : State) : State :=
  let now := (s.trellis.sensors.filter (fun e => s.sensorOn e.1 && s.staleAt e.1 e.2.ns)).map (fun e => e.1)
  let fresh := now.filter (fun k => !s.trellis.stale.contains k)
  fresh.foldl (fun s k => s.trellisEvent 8 none [(2, k)]) (s.modTrellis (fun x => { x with stale := now }))

/-- Heat in one parcel (R299). The lever of a running parcel follows its ceiling; an idle parcel's islands move at once. -/
def State.thermal (s : State) (p : Nat) : State :=
  let q := s.parcel p
  if !q.live || decide (q.st = .parked) then s
  else
    let hb := s.hotBay q
    let hs := s.hotSill q
    let f := s.fcode q
    let now := s.tNs
    let s :=
      if 105 ≤ hb ∨ 100 ≤ hs then
        if !q.tr.hot || decide (q.tr.ceilNs + 1000000 ≤ now) then
          let s := s.modTr p (fun r => { r with ceil := max 0x18 (min r.ceil f - 4), ceilNs := now, hot := true })
          let s := s.contractSees 4
          let s := if q.st = .idle ∧ (s.parcel p).tr.ceil < f then s.idleTo p (BitVec.ofNat 8 (s.parcel p).tr.ceil) else s
          if q.tr.hot then s else s.trellisEvent 1 (some p) []
        else s
      else
        let s := s.modTr p (fun r => { r with hot := false })
        if hb < 100 ∧ hs < 100 ∧ q.tr.ceil < 0x48 ∧ q.tr.ceilNs + 10000000 ≤ now then
          s.modTr p (fun r => { r with ceil := r.ceil + 1, ceilNs := now })
        else s
    if 110 ≤ hb ∧ f = 0x18 then
      match q.tr.hotNs with
      | none => s.modTr p (fun r => { r with hotNs := some now })
      | some a =>
        if a + 10000000 ≤ now then (((s.modTr p (fun r => { r with hotNs := none })).trellisEvent 2 (some p) []).contractSees 4).askPark p .thermal
        else s
    else s.modTr p (fun r => { r with hotNs := none })

/-- Heat of the plate and the coolant (R299): ALERT_N and a cap 10 % lower every 10 ms. -/
def State.warm (s : State) : State :=
  if s.trellis.sensors.any (fun e => decide (13000 ≤ e.1) && decide (e.1 ≠ outletKey) && decide (e.2.limit < e.2.v)) then
    let s := (s.setAlert true).contractSees 4
    match s.trellis.warnNs with
    | none => (s.modTrellis (fun x => { x with warnNs := some s.tNs, thermalCut := 1 })).trellisEvent 3 none []
    | some a => if a + 10000000 ≤ s.tNs then s.modTrellis (fun x => { x with warnNs := some s.tNs, thermalCut := x.thermalCut + 1 }) else s
  else (s.modTrellis (fun x => { x with warnNs := none, thermalCut := 0 })).setAlert s.trellis.failed

/-- A contract in its windows of 20 ms (R291). The flag: this loop is at a window boundary. -/
def Contract.sample (c : Contract) (wall power : Nat) : Contract × Bool :=
  let c := { c with sum := c.sum + power, cnt := c.cnt + 1 }
  let k := (wall - c.arrived) / 20000000
  if c.win < k then
    ({ c with level := if c.p0 < c.target then min c.target (c.sum / c.cnt + c.rateUp * 20) else c.target, win := k, sum := 0, cnt := 0 }, true)
  else (c, false)
def Contract.upward (c : Contract) : Bool := decide (c.p0 < c.target)

/-- Parcels that stand parked by the trellis, for its cap or for REF_LOSS (R290, R297). -/
def State.trellisParked (s : State) : List Nat :=
  (List.range 4).filter (fun p => decide ((s.parcel p).st = .parked) && (decide ((s.parcel p).parkedBy = some .trellis) || decide ((s.parcel p).parkedBy = some .refLoss)))
/-- Does every running parcel run at the highest level its share allows, and does none stand parked by the trellis (R292)? -/
def State.atLevels (s : State) : Bool :=
  s.runners.all (fun p => let q := s.parcel p
                          decide (s.bestF q 16 (fun f => decide (s.parcelMw q f 16 ≤ 1000 * q.tr.share)) ≤ s.fcode q)) && decide (s.trellisParked = [])
/-- Is a contract met (R292)? An upward one that a lower term keeps below TARGET, or during which REF_LOSS fell, is not (R293). -/
def State.contractMet (s : State) (c : Contract) : Bool :=
  let power := s.trellis.power
  if c.upward then s.atLevels && decide (c.level = c.target) && decide (c.target ≤ s.effCap) && !c.seen.contains 3 && !s.refLoss
  else if c.target = 0 then decide (power ≤ 130) else decide (power * 100 ≤ c.target * 102)
/-- A contract ends (R292): its outcome stands in TRL_CONTRACT, and TARGET replaces the issuer's cap. -/
def State.endContract (s : State) (c : Contract) (state reason : Nat) : State :=
  s.modTrellis (fun x =>
    let x := { x with latest := some { c with state := state, reason := reason } }
    if c.lessee then { x with contractL := none, leaseCap := some c.target } else { x with contractP := none, hostCap := some c.target })
/-- A contract takes a loop's sample. The flag: this loop is at a boundary of its windows. -/
def State.sampleContract (s : State) (power : Nat) (lessee : Bool) : State × Bool :=
  match (if lessee then s.trellis.contractL else s.trellis.contractP) with
  | some c =>
    let r := c.sample s.plate.wall.toNat power
    (s.modTrellis (fun x => if lessee then { x with contractL := some r.1 } else { x with contractP := some r.1 }), r.2)
  | none => (s, false)
/-- Once the loop's levers are chosen, a contract may be met (R292). -/
def State.closeContract (s : State) (lessee : Bool) : State :=
  match (if lessee then s.trellis.contractL else s.trellis.contractP) with
  | some c => if s.contractMet c then (s.endContract c 2 0).trellisEvent 4 none [] else s
  | none => s
/-- The upward contracts, and the one whose level governs (R291). -/
def State.upContracts (s : State) : List Contract := (s.trellis.contractP.toList ++ s.trellis.contractL.toList).filter (fun c => c.upward)
def State.governs (s : State) (lessee : Bool) : Bool := match s.upContracts with
  | [c] => decide (c.lessee = lessee)
  | [c, d] => decide ((if d.level < c.level then d.lessee else c.lessee) = lessee)
  | _ => false

/-- Does a switch of the parcel's islands stand or wait for its report? -/
def State.switchPending (s : State) (q : Parcel) : Bool := q.fields.any (fun k => (s.field k).island.switch.isSome || (s.field k).island.switchedDue.isSome)
/-- Send a SWITCH to every island of a parcel (12 R261): at the named count, at the shortest lead, or in a stop cycle while the parcel stands
stopped (R262). -/
def State.sendSwitch (s : State) (p f : Nat) (count : Option Nat) : State :=
  let q := s.parcel p
  let code := BitVec.ofNat 8 f
  let c : ClockCmd := match s.fieldStop (q.c0 + 5 * q.r0) with
    | some t => { count := s.stopCycle (q.c0 + 5 * q.r0) t + 64, fcode := code, stop := true }
    | none => { count := count.getD (s.parcelCount p + 4096).toNat, fcode := code, stop := false }
  q.fields.foldl (fun s k => s.clockSwitch k c) (s.modTr p (fun r => { r with rising := none, fitNs := none }))
/-- Order a switch of every island of a parcel (12 R261). No switch while REF_LOSS stands (R293, 12 R248). An increase raises VFAB first; the
SWITCH goes out once VFAB has settled (`risen`). -/
def State.orderSwitch (s : State) (p f : Nat) : State :=
  let q := s.parcel p
  if s.refLoss || s.switchPending q then s
  else if s.fcode q < f then
    (q.fields.foldl (fun s k => s.vfabTo k (BitVec.ofNat 8 f)) s).modTr p (fun r => { r with rising := some (f, none) })
  else s.sendSwitch p f none
/-- A rise whose VFAB has settled is sent; one that PRT_FSW named a count for is refused when that count is too near by then (15 R328). -/
def State.risen (s : State) (p : Nat) : State :=
  let q := s.parcel p
  match q.tr.rising with
  | some (f, count) =>
    if s.refLoss || s.switchPending q || q.fields.any (fun k => decide (s.tNs < (s.field k).supply.settleNs)) then s
    else match count with
      | some c =>
        if !countReached c (s.parcelCount p + 4096) then
          let s := { s with prt := { s.prt with ctrl := s.prt.ctrl ||| 0x80#32 } }
          (s.modTr p (fun r => { r with rising := none })).settleVolts q.fields
        else s.sendSwitch p f count
      | none => s.sendSwitch p f none
  | none => s
/-- A rise that no longer fits is given up, and VFAB falls back. -/
def State.dropRise (s : State) (p f : Nat) : State :=
  match (s.parcel p).tr.rising with
  | some (g, none) => if f < g then (s.modTr p (fun r => { r with rising := none })).settleVolts (s.parcel p).fields else s
  | _ => s

/-- The sill clock that a share calls for (R288 step 3): that of the highest frequency it allows. -/
def State.sclkWant (s : State) (q : Parcel) (beta share : Nat) : Nat := match q.image with
  | some m => if m.sillOps then sclkFor (s.bestF q beta (fun f => decide (s.parcelMw q f beta ≤ share))) else 12
  | none => 12
/-- The levers of one running parcel (R288). climbing: an upward contract holds increases, and a wider shim budget, to its window boundaries,
and the sill clocks prepare for the share of the next window, next/cap of the present one (R291, R203). While INPUT_LOSS stands a parcel
keeps its frequency until it stands stopped, and then goes to 0.6 GHz (R297). An increase waits for nothing stale (R283), for 10 ms of
fit, and for the sill clocks that it needs (R203). -/
def State.lever (s : State) (climbing boundary : Bool) (next cap : Nat) (l : ShareLine) : State :=
  let q := s.parcel l.p
  let f0 := s.fcode q
  if s.inputLost then (if (s.fieldStop (q.c0 + 5 * q.r0)).isSome && decide (0x18 < f0) then s.orderSwitch l.p 0x18 else s)
  else
    let beta := if s.parcelMw q f0 16 ≤ l.share then 16 else 1
    let beta := if climbing && !boundary && decide (q.tr.betaNext < beta) then q.tr.betaNext else beta
    let f := s.bestF q beta (fun f => decide (s.parcelMw q f beta ≤ l.share))
    let fit := if f0 < f then (match q.tr.fitNs with
        | some (g, t) => some (min g f, t)
        | none => some (f, s.tNs)) else none
    let sclk := s.sclkWant q beta (if climbing then l.share * next / max 1 cap else l.share)
    let s := s.modTr l.p (fun r => { r with share := l.share / 1000, betaNext := beta, sclkNext := sclk, fitNs := fit })
    let s := s.dropRise l.p f
    let stale := q.fields.any (fun k => s.staleRail k)
    let due := if climbing then boundary else (match fit with
      | some (_, t) => decide (t + 10000000 ≤ s.tNs)
      | none => false)
    let up := min (if climbing then f else (fit.map (fun e => e.1)).getD f) (s.sclkMaxF q)
    if f < f0 then s.orderSwitch l.p f
    else if (s.parcel l.p).tr.rising.isSome then (if stale then s else s.risen l.p)
    else if f0 < up ∧ !stale ∧ due then (s.orderSwitch l.p up).risen l.p
    else s

/-- Do the least draws of the running parcels fit the cap? -/
def State.leastFits (s : State) : Bool :=
  decide (s.effCap ≠ 0) && decide (s.steady.foldl (fun n p => n + s.leastMw (s.parcel p)) s.trellis.base ≤ 1000 * s.effCap)
/-- Ascending WEIGHT, the higher parcel number first among equals (R287); descending WEIGHT, the lower first (R298). -/
def State.byWeight (s : State) (ps : List Nat) : List Nat :=
  ps.mergeSort (fun a b => decide ((s.parcel a).tr.weight < (s.parcel b).tr.weight) || (decide ((s.parcel a).tr.weight = (s.parcel b).tr.weight) && decide (b ≤ a)))
/-- Parking under R287: until the forecast fits. At park level every parcel parks. -/
def State.parkToFit (s : State) : State :=
  let s := (s.byWeight s.steady).foldl (fun s p => if s.leastFits && decide (0 ≤ (s.divideOver s.steady).1) then s else s.askPark p .trellis) s
  if s.effCap = 0 then
    (List.range 4).foldl (fun s p => if (s.parcel p).st = .idle then s.askPark p .trellis else s) s
  else s

/-- Parcels that the trellis parked come up again (R298), none during the windows of a contract. FIELD_LIMIT binds requests (18 R399) and does
not hold these back (DESIGN CHOICE, log entry 54). -/
def State.resumeFitting (s : State) : State :=
  let ps := (List.range 4).filter (fun p => let q := s.parcel p
    s.trellisParked.contains p && q.exp.isNone && q.fields.all (fun f => decide ((s.field f).st = .parked)))
  if s.refLoss then s
  else ((s.byWeight ps).reverse).foldl (fun s p => if s.resumeFits p && s.headroom then
      let r := s.resumeParcel p []
      r.1.resumeDone p r.2
    else s) s

/-- TRELLIS_CONTROL_LOOP (R288): Every 10 µs the trellis divides the cap and chooses each parcel's shim budget, frequency, sill clock and
parking. A disagreement of the two copies sends nothing (R301). -/
def execTrellisControlLoop (t : TrellisInputs) (s : State) : Host.Outcome State Fault Refusal :=
  .next (if !s.trellis.started || s.trellis.failed || s.trellis.reloading then s
    else if !t.copiesAgree then
      (s.modTrellis (fun x => { x with mismatches := x.mismatches ++ [s.tNs], reloading := true })).trellisEvent 9 none []
    else
      let s := (s.measure t).staleEvents
      let s := ((List.range 4).foldl (fun s p => (s.thermal p).occSample p) s).warm
      let a := s.sampleContract t.powerW false
      let b := a.1.sampleContract t.powerW true
      let s := b.1
      let climbing := decide (s.upContracts ≠ [])
      let boundary := (a.2 && s.governs false) || (b.2 && s.governs true)
      let cap := s.effCap
      let next := if climbing then s.upContracts.foldl (fun m c => min m (min c.target (c.sum / max 1 c.cnt + c.rateUp * 20))) (cap + 100000) else cap
      let s := s.parkToFit
      let s := s.divide.2.foldl (fun s l => s.lever climbing boundary next cap l) s
      let s := if climbing && !boundary then s else s.resumeFitting
      (s.closeContract false).closeContract true)

/-- TRELLIS_FAILED (15 R320): ALERT_N, and every parcel parks. -/
def State.trellisFails (s : State) : State :=
  let s := (s.modTrellis (fun x => { x with failed := true })).setAlert true
  let s := s.report { code := 0x0504, unit := 0x09, action := 12 }
  (List.range 4).foldl (fun s p => if (s.parcel p).live && decide ((s.parcel p).st ≠ .parked) then s.askPark p .trellis else s) s

/-- TRELLIS_RELOAD (15 R320): After a mismatch both copies reload state and resume, or a third mismatch within 1 s raises TRELLIS_FAILED:
ALERT_N, and every parcel parks. -/
def execTrellisReload (s : State) : Host.Outcome State Fault Refusal :=
  .next (if !s.trellis.reloading then s
    else
      let recent := s.trellis.mismatches.filter (fun a => decide (s.tNs < a + 1000000000))
      let s := s.modTrellis (fun x => { x with reloading := false, mismatches := recent })
      if 3 ≤ recent.length then s.trellisFails else s)

def w16 (n : Nat) : Nat := min n 65535
def pstateCode : PState → Nat
  | .none => 0
  | .idle => 1
  | .running => 2
  | .parking => 3
  | .parked => 4
  | .resuming => 5
/-- TEL_PARCEL_p (R303). -/
def State.telParcel (s : State) (p : Nat) : Nat :=
  let q := s.parcel p
  if !q.live then 0
  else
    let up := decide (q.st ≠ .parked)
    q.tr.phase.toNat * 2 ^ 24 + pstateCode q.st * 2 ^ 18 + q.tr.beta * 2 ^ 13 +
      (if up then (s.cask (q.casks.headD 0)).sclk * 256 + s.fcode q else 0)
/-- The words that the trellis refreshes (R302, R303). -/
def State.mirrorWords (s : State) : List (Nat × Nat) :=
  let x := s.trellis
  let f := s.aheadW
  let hot := fun (lo hi : Nat) => maxOf ((x.sensors.filter (fun e => decide (lo ≤ e.1) && decide (e.1 < hi) && s.sensorOn e.1)).map (fun e => e.2.v)) % 256
  (if x.wins = [] then [] else
      [(0x000, w16 x.lastWin.peak * 65536 + w16 x.power),
       (0x004, s.plate.conv.toNat * 2 ^ 26 + min x.iin 0x3FF * 65536 + x.vin % 1024),
       (0x018, (s.reading inletKey).v % 256 * 2 ^ 24 + hot 13000 inletKey * 65536 + hot 12000 13000 * 256 + hot 10000 12000)]) ++
  [(0x008, s.capTerm.1 * 65536 + w16 s.effCap), (0x00C, w16 (meanOf f) * 65536 + w16 (maxOf f))] ++
  (List.range 4).flatMap (fun p => [(0x020 + 4 * p, s.telParcel p), (0x030 + 4 * p, w16 (s.parcel p).tr.share * 65536 + w16 (s.parcel p).tr.power)])

/-- CAP_OVERSHOOT (R289): every running parcel steps down by 8 with the shortest lead (none while INPUT_LOSS stands, R297), and the learned entries of the running phases are
scaled by measured over forecast. A switch that stands is withdrawn for it while its CANCEL can still reach every island (12 R261); where
it no longer can, the step follows in the next window (DESIGN CHOICE, log entry 54). -/
def State.stepDown (s : State) (p : Nat) : State × Bool :=
  let q := s.parcel p
  let f := s.fcode q
  let aim := max 0x18 (f - 8)
  if f ≤ 0x18 || s.refLoss || s.inputLost then (s, true)
  else
    let early := fun k => match (s.field k).island.switch with
      | some c => !s.clockReached k c (-2048) && decide (aim < c.fcode.toNat)
      | none => (s.field k).island.switchedDue.isNone
    let done := q.fields.all (fun k => match (s.field k).island.switch with
      | some c => decide (c.fcode.toNat ≤ aim)
      | none => false)
    if done then (s, true)
    else if q.fields.all early then
      let s := q.fields.foldl (fun (s : State) k => match (s.field k).island.switch with
        | some c => s.clockCancel k c
        | none => s) s
      ((s.modTr p (fun r => { r with rising := none })).orderSwitch p aim, true)
    else (s, false)
def State.scaleLearned (s : State) (p : Nat) : State :=
  let q := s.parcel p
  let e := q.phaseEnt q.tr.phase.toNat (s.parcelTemp q)
  let fc := s.parcelMw q (s.fcode q) q.tr.beta
  let scale := fun n => if fc = 0 then n else n * (1000 * q.tr.power) / fc
  s.modTr p (fun r => { r with learned := Sparse.set PhaseEnt.none r.learned r.phase.toNat { e with pdyn := scale e.pdyn, pleak := scale e.pleak, pcask := scale e.pcask } })
def State.overshoot (s : State) : State :=
  let first := decide (s.trellis.overs = 3)
  let r := s.runners.foldl (fun (a : State × Bool) p => let b := a.1.stepDown p; (b.1, a.2 && b.2)) (s, true)
  let s := if first then (r.1.runners.foldl (fun s p => s.scaleLearned p) r.1).trellisEvent 7 none [] else r.1
  if r.2 then s.modTrellis (fun x => { x with overs := 0 }) else s

/-- FORECAST_PUBLISH (R295): Every 1 ms the trellis publishes the 100 ms module forecast and refreshes the telemetry mirror; it closes the
1 ms window of R282 and R289. The bins are refreshed every 10 ms. -/
def execForecastPublish (s : State) : Host.Outcome State Fault Refusal :=
  .next (if !s.trellis.started || s.trellis.failed then s
    else
      let cap := s.effCap
      let above := decide (cap + max (cap / 50) 25 < s.trellis.power) && decide (2 ≤ s.trellis.wins.length)
      let s := s.modTrellis (fun x => { x with overs := if above then x.overs + 1 else 0 })
      let s := if 3 ≤ s.trellis.overs then s.overshoot else s
      let f := s.aheadW
      let now := s.plate.wall.toNat
      let s := if s.trellis.bins = [] ∨ s.trellis.binsNs + 10000000 ≤ now then
          s.modTrellis (fun x => { x with bins := (List.range 10).map (fun k => let b := (f.drop (10 * k)).take 10; (maxOf b, meanOf b)), binsNs := now })
        else s
      let ws := s.mirrorWords
      s.modTrellis (fun x => { x with mirror := ws.foldl (fun m w => Sparse.set 0#32 m w.1 (BitVec.ofNat 32 w.2)) x.mirror }))

/-- The measured terms of an occurrence join an entry (R294 step 4): with weight 1/8, or with weight 1 on the first occurrence. The old leakage
is brought to the new temperature. The current rise (R296) is learned in the same way, as the mean current of the occurrence above that of the one
before it (DESIGN CHOICE, log entry 54). -/
def PhaseEnt.learn (e : PhaseEnt) (o : Occurrence) : PhaseEnt :=
  let avg := fun (sum : Nat) => sum / (1000 * max 1 o.n)
  let temp := o.temp / max 1 o.n
  let mix := fun (old new : Nat) => if e.occ = 0 then new else (7 * old + new) / 8
  { e with pdyn := mix e.pdyn (avg o.dyn), pleak := mix (e.pleak * leakFactor ((temp : Int) - e.tref) / 65536) (avg o.leak), pcask := mix e.pcask (avg o.cask)
           irise := match o.before with
             | some a => mix e.irise (o.amps / max 1 o.n - a)
             | none => e.irise
           tref := temp, occ := e.occ + 1 }
/-- PHASE_LEARN (R294): At the end of a phase occurrence of at least 100 µs the trellis merges its measured powers into the learned phase table. -/
def execPhaseLearn (parcel : Nat) (s : State) : Host.Outcome State Fault Refusal :=
  if 4 ≤ parcel then .refused .noSuchUnit
  else .next (
    let q := s.parcel parcel
    match q.tr.occEnd with
    | some o =>
      let s := s.modTr parcel (fun r => { r with occEnd := none })
      if !q.live || q.image.isNone || !s.trellis.started || decide (o.n = 0) || decide (o.untilNs < o.sinceNs + 100000) then s
      else
        let e := { (q.phaseEnt o.phase.toNat (o.temp / o.n : Nat)).learn o with phase := o.phase.toNat }
        s.modTr parcel (fun r => { r with learned := Sparse.set PhaseEnt.none r.learned o.phase.toNat e })
    | none => s)

/-- CRUSH_HINT (R296): The trellis receives a crush hint and raises setpoints or switches down ahead of the phase. The switch comes at the
peg's count when the hint leaves 4,096 fc, otherwise at the earliest legal count. -/
def execCrushHint (parcel : Nat) (phase : BitVec 8) (count : Nat) (s : State) : Host.Outcome State Fault Refusal :=
  if 4 ≤ parcel then .refused .noSuchUnit
  else .next (
    let q := s.parcel parcel
    if !q.running || !s.trellis.started || s.trellis.failed then s
    else
      let temp := s.parcelTemp q
      let e := q.phaseEnt phase.toNat temp
      let f0 := s.fcode q
      let share := 1000 * q.tr.share
      let s := s.modTr parcel (fun r => { r with hint := some (phase, count) })
      let s :=
        if share < e.forecastMw f0 q.tr.beta temp ∧ !s.refLoss ∧ !s.inputLost ∧ q.fields.all (fun k => (s.field k).island.switch.isNone) then
          let f := (fcodesDown.find? (fun f => decide (f < f0) && decide (e.forecastMw f q.tr.beta temp ≤ share))).getD 0x18
          let n := max (count : Int) (s.parcelCount parcel + 4096)
          if f < f0 then q.fields.foldl (fun s k => s.clockSwitch k { count := n.toNat, fcode := BitVec.ofNat 8 f, stop := false }) s else s
        else s
      q.fields.foldl (fun s k => (s.modField k (fun x => { x with supply := { x.supply with boostMv := e.boostMv } })).retarget k) s)

/-- LEASE_EXPIRED (R286): A lease's duration ends and its expiry cap applies; an expiry cap of 0 leaves no lease cap. -/
def execLeaseExpired (s : State) : Host.Outcome State Fault Refusal :=
  .next (match s.trellis.lease with
    | some (_, _, expiry) =>
      (s.modTrellis (fun x => { x with lease := none, leaseCap := if expiry = 0 then none else some expiry })).trellisEvent 6 none []
    | none => s)

/-- REASON of a missed contract (R293, R303), the causes that hold the whole module first. -/
def State.missReason (s : State) (c : Contract) : Nat :=
  if s.inputLost || c.seen.contains 2 then 2
  else if c.upward && (s.refLoss || c.seen.contains 3) then 3
  else if c.upward && s.capTerms.any (fun e => decide (e.2 < c.target) && decide (e ≠ (2, c.level))) then 1
  else if c.seen.contains 4 then 4
  else if c.seen.contains 5 then 5
  else 0

/-- CONTRACT_MISSED (R292): A ramp contract's deadline passes unmet and TARGET replaces the issuer's cap. -/
def execContractMissed (lessee : Bool) (s : State) : Host.Outcome State Fault Refusal :=
  .next (match (if lessee then s.trellis.contractL else s.trellis.contractP) with
    | some c =>
      let r := s.missReason c
      (s.endContract c 3 r).trellisEvent 5 none [(1, r)]
    | none => s)

end Sys2Proof.Machine
end

