-- ==== Sys2Proof/Machine/Flags.lean ====
section
/-! DEFINITION. Register words: access codes (00_scope R5, R6), what each register of BAR0 reads as, and what a write of a field does
(12 R263, 14 R302, R303, 15 R326-R328, 16 R334, R335, 17 R352-R361). -/

namespace Sys2Proof.Machine
open Sys2Proof

/-- A write to RW1C bits: a 1 clears (R5). -/
def rw1c (old w mask : Word) : Word := old &&& ~~~(w &&& mask)
/-- The bits hi:lo of a word, as a mask. -/
def maskBits (hi lo : Nat) : Word := BitVec.ofNat 32 (2 ^ (hi + 1) - 2 ^ lo)
def fieldBits (w : Word) (hi lo : Nat) : Nat := bitsOf w.toNat lo (hi + 1 - lo)
/-- A write to an RW field; a reserved encoding leaves it unchanged (R6). -/
def rwField (old w : Word) (hi lo : Nat) (ok : Nat → Bool) : Word :=
  if ok (fieldBits w hi lo) then (old &&& ~~~(maskBits hi lo)) ||| (w &&& maskBits hi lo) else old
def anyVal : Nat → Bool := fun _ => true
/-- A sum of fields at their low bits. -/
def packBits (fs : List (Nat × Nat)) : Word := BitVec.ofNat 32 (fs.foldl (fun n f => n + f.2 * 2 ^ f.1) 0)
def b1 (b : Bool) : Nat := if b then 1 else 0

/-- High word of an event counter (R9). -/
def EvCnt.high (c : EvCnt) : Word := packBits [(31, b1 c.sat), (0, c.n / 2 ^ 32)]
def EvCnt.low (c : EvCnt) : Word := BitVec.ofNat 32 c.n
/-- A write of 1 to SAT clears the counter; an event of the same cycle is counted after it (R10). -/
def EvCnt.cleared (event : Bool) : EvCnt := if event then { n := 1, sat := false } else EvCnt.init

/-- The latch of a reader for a counter (R7): readers are the ports and the Cellarmaster. -/
def latchKey (r c : Nat) : Nat := 2 * r + c
def State.latch (s : State) (k : Nat) : Word := Sparse.get 0#32 s.plate.latches k

def fstateCode : FState → Nat
  | .dark => 0
  | .raising => 1
  | .raised => 2
  | .parked => 3
  | .unparking => 4
  | .failed => 5
/-- RAISE_FIELDS (16 R335). -/
def State.raiseFields (s : State) : Word := packBits ((List.range 10).map (fun f => (3 * f, fstateCode (s.field f).st)))

def State.bundle (s : State) : Nat := match s.sealU.licence with
  | some l => l.bundle
  | none => 0
/-- RAISE_FSTAT_f (R335). -/
def Field.fstat (x : Field) : Word := packBits [(28, x.step), (27, b1 x.fast), (22, x.newHoles), (18, x.src), (0, x.code)]

/-- The RAISE block, read by a port (R334, R335). -/
def State.readRaise (s : State) (p off : Nat) : Word :=
  let r := s.raising
  if off = 0 then packBits [(31, b1 r.owner.isSome), (2, r.owner.getD 0), (1, b1 (s.isPrincipal p))]
  else if off = 4 then
    packBits [(31, b1 (r.cmd.isSome || r.finishing)), (30, b1 r.cmdRej), (29, b1 s.refLoss), (28, b1 s.inputLost), (24, r.stage), (20, r.lastOp),
              (0, ((List.range 10).filter (fun f => decide ((s.field f).st = .raising) || decide ((s.field f).st = .unparking))).foldl (fun n f => n + 2 ^ f) 0)]
  else if off = 0xC then packBits [(24, r.errStep), (20, r.errField), (16, r.errOp), (0, r.errCode)]
  else if off = 0x10 then BitVec.ofNat 32 r.fwLen
  else if off = 0x14 then BitVec.ofNat 32 r.fwVer
  else if off = 0x18 then
    packBits [(31, b1 s.sealU.ready), (30, b1 r.grainOk), (29, b1 r.licOk), (26, s.bundle), (22, s.licFields), (19, s.licParcels), (0, 0xA0)]
  else if off = 0x1C then s.raiseFields
  else if off = 0x20 then packBits [(31, b1 r.done)]
  else if 0x24 ≤ off ∧ off < 0x4C then (s.field ((off - 0x24) / 4)).fstat
  else 0#32

/-- TEL_PORT (17 R353). -/
def State.telPort (s : State) (p : Nat) : Word :=
  let q := s.port p
  packBits [(31, b1 q.linkUp), (30, b1 (s.isPrincipal p)), (28, p), (24, q.speed), (20, q.width), (18, q.refmode),
            (0, ((List.range 4).filter (fun k => (s.parcel k).live && decide ((s.parcel k).owner = p))).foldl (fun n k => n + 2 ^ k) 0)]
/-- The ID and port status block (17 R353, R354). -/
def State.readPortBlock (s : State) (p off : Nat) : Word :=
  if off = 0 then packBits [(16, Config.vendorId.toNat), (8, 0x82), (0, 0xA0)]
  else if off = 4 then s.telPort p
  else if off = 8 then (s.port p).err.setWidth 32
  else if 0x400 ≤ off ∧ off < 0x800 then Sparse.get 0#32 (s.port p).win ((off - 0x400) / 4)
  else 0#32
/-- The mailbox control block (17 R359). -/
def State.readMailbox (s : State) (p off : Nat) : Word :=
  let q := s.port p
  if off = 0 then packBits [(31, b1 s.raising.done)]
  else if off = 8 then q.own.setWidth 32
  else if off = 0xC then (q.own >>> 32).setWidth 32
  else if off = 0x10 then q.done.setWidth 32
  else if off = 0x14 then (q.done >>> 32).setWidth 32
  else if off = 0x20 then q.dropped.low
  else if off = 0x24 then s.latch (latchKey p 1)
  else if 0x100 ≤ off ∧ off < 0x200 then
    let n := (off - 0x100) / 4
    packBits [(31, b1 (q.own.getLsbD n)), (16, Sparse.get 0 q.gen n)]
  else 0#32
/-- TRL_CONTRACT (14 R303): an active contract of either issuer that came last, else the latest outcome. -/
def State.contractWord (s : State) : Word :=
  match s.trellis.latest with
  | some c => packBits [(16, c.target), (8, b1 c.lessee), (4, c.reason), (0, c.state)]
  | none => 0#32
/-- TEL_ENERGY in millijoules (14 R302). -/
def State.energyMj (s : State) : Nat := s.trellis.energyUj / 1000
/-- The telemetry mirror (14 R302). -/
def State.readTel (s : State) (p off : Nat) : Word :=
  if off = 0x10 then BitVec.ofNat 32 s.energyMj
  else if off = 0x14 then s.latch (latchKey p 0)
  else if off = 0x40 then s.contractWord
  else if off = 0x44 then s.trellis.fastCap
  else if off = 0x48 then s.trellis.evt.setWidth 32
  else if off < 0x40 then Sparse.get 0#32 s.trellis.mirror off
  else 0#32
/-- Is the perturbation block unlocked (15 R326)? -/
def State.prtOpen (s : State) : Bool := s.hasFeature 2
/-- The perturbation block (15 R327, R328). -/
def State.readPrt (s : State) (off : Nat) : Word :=
  if !s.prtOpen then 0#32
  else
    let t := s.prt
    if off = 0 then packBits [(31, 1), (30, b1 (s.parcel (fieldBits t.ctrl 2 1)).test)] ||| (t.ctrl &&& 0xE7#32)
    else if off = 4 then t.cellar
    else if off = 8 then t.holdPeg
    else if off = 0xC then t.hold
    else if off = 0x10 then t.stretch
    else if off = 0x14 then t.xphase
    else if off = 0x18 then t.land
    else if off = 0x1C then t.fsw
    else if off = 0x20 then t.fswLo
    else if off = 0x24 then t.fswHi
    else if off = 0x28 then t.injTgt
    else if off = 0x2C then t.injCtrl
    else 0#32
/-- A word of the MSI-X table (17 R352): each vector's control word holds its mask bit. -/
def State.readMsix (s : State) (p off : Nat) : Word :=
  if 96 ≤ off / 16 then 0#32
  else if off % 16 = 12 then BitVec.ofNat 32 (b1 ((s.port p).mask.getLsbD (off / 16)))
  else BitVec.ofNat 32 ((s.port p).msix.readLe off 4)
/-- A word of the MSI-X pending bits (17 R352). -/
def State.readPba (s : State) (p off : Nat) : Word := if off < 16 then BitVec.ofNat 32 (bitsOf (s.port p).pba.toNat (8 * off) 32) else 0#32
/-- A word of the staging window (17 R352): the bytes staged so far, until START_CMST. -/
def State.readStaging (s : State) (off : Nat) : Word :=
  if s.raising.stage < 3 ∧ s.raising.lastOp ≠ 2 then BitVec.ofNat 32 (s.raising.staging.readLe off 4) else 0#32
/-- A word of BAR0 (17 R352); reserved offsets read 0. -/
def State.readReg (s : State) (p off : Nat) : Word :=
  let o := off % 4096
  match off / 4096 with
  | 0 => s.readPortBlock p o
  | 1 => if o < 0x100 then s.readRaise p o else 0#32
  | 2 => s.readMailbox p o
  | 3 => if o = 0 then (s.port p).evtPend.setWidth 32 else if o = 4 then (s.port p).evtEn.setWidth 32 else 0#32
  | 4 => s.readTel p o
  | 5 => s.readPrt o
  | 0x10 => s.readMsix p o
  | 0x11 => s.readPba p o
  | n =>
    if 0x40 ≤ n ∧ n < 0x80 then BitVec.ofNat 32 ((s.port p).slots.readLe (off - 0x40000) 4)
    else if 0x1000 ≤ n ∧ n < 0x2000 then s.readStaging (off - 0x1000000)
    else 0#32

/-- May a port write the perturbation block (15 R326)? The principal, and the owner of the parcel that PARCEL names. -/
def State.prtWriter (s : State) (p parcel : Nat) : Bool :=
  s.prtOpen && (s.isPrincipal p || ((s.parcel parcel).live && decide ((s.parcel parcel).owner = p)))
def State.modPrt (s : State) (f : Prt → Prt) : State := { s with prt := f s.prt }

/-- A write of PRT_CTRL (15 R328): clearing ARM ends a persistent injection. -/
def Prt.writeCtrl (t : Prt) (w : Word) : Prt :=
  let c := rwField (rwField (rw1c t.ctrl w 0xE0#32) w 2 1 anyVal) w 0 0 anyVal
  { t with ctrl := c, armed := if c.getLsbD 0 then t.armed else none }
/-- The plain perturbation registers (15 R328). -/
def Prt.write (t : Prt) (off : Nat) (w : Word) : Prt :=
  if off = 4 then { t with cellar := rwField (rwField t.cellar w 25 20 anyVal) w 19 0 anyVal }
  else if off = 8 then { t with holdPeg := w }
  else if off = 0xC then { t with hold := rwField (rwField t.hold w 31 30 anyVal) w 19 0 anyVal }
  else if off = 0x10 then
    { t with stretch := rwField (rwField (rwField (rwField t.stretch w 31 31 anyVal) w 27 24 (fun v => decide (v < 10))) w 23 20 anyVal) w 19 0 anyVal }
  else if off = 0x14 then
    { t with xphase := rwField (rwField (rwField (rwField (rwField t.xphase w 31 31 anyVal) w 23 20 (fun v => decide (v < 13))) w 16 16 anyVal) w 15 8
        (fun v => decide (v < 12) || decide (v = 0xFF))) w 3 0 anyVal }
  else if off = 0x18 then { t with land := rwField (rwField t.land w 31 31 anyVal) w 7 0 anyVal }
  else if off = 0x20 then { t with fswLo := w }
  else if off = 0x24 then { t with fswHi := w }
  else if off = 0x28 then
    { t with injTgt := rwField (rwField (rwField (rwField t.injTgt w 31 28 (fun v => decide (v < 10))) w 27 22 anyVal) w 21 17 anyVal) w 16 11 anyVal }
  else t
/-- PRT_INJ_CTRL without GO (15 R328). -/
def Prt.writeInj (t : Prt) (w : Word) : Prt :=
  { t with injCtrl := rwField (rwField (rwField t.injCtrl w 30 30 anyVal) w 29 28 (fun v => decide (v = 1) || decide (v = 2))) w 27 20 anyVal }

end Sys2Proof.Machine
end

