-- ==== Sys2Proof/Machine/Requests.lean ====
section
/-! DEFINITION. Requests of the Cellarmaster: how one is handed over, the checks of 18 R373, scopes, answers, and the entries of a cut
list (17 R357, R358, R362, R363, 18 R370-R375, R401, R402). -/

namespace Sys2Proof.Machine
open Sys2Proof

/-- Scopes of 18 R375. -/
inductive Scope where
  | principal
  | owner
  | ownerOrPrincipal
  | any
  deriving DecidableEq, Repr

/-- What the tables of chapter 18 say of a message. -/
structure MsgInfo where
  code : Nat
  scope : Scope
  side : Bool := false
  sideOnly : Bool := false
  parcel : Bool := true
  cut : Bool := false
  feature : Option Nat := none
  deriving DecidableEq, Repr

/-- The answer of a message, or none when an event is still to bring it. -/
abbrev Handler := State → State × Option Ans

def Requester.portOf : Requester → Option Nat
  | .slot p _ _ => some p
  | .entry p _ _ _ _ => some p
  | .sideband _ _ => none
def requesterPort (r : Requester) : Option Nat := Requester.portOf r
def isSideband : Requester → Bool
  | .sideband _ _ => true
  | _ => false
/-- Does a requester name a port and a slot that exist? -/
def requesterOk : Requester → Bool
  | .slot p n _ => decide (p < 4) && decide (n < 64)
  | .entry p n _ _ _ => decide (p < 4) && decide (n < 64)
  | .sideband _ _ => true

/-- A dropped slot write (17 R358). -/
def State.strayWrite (s : State) (p : Nat) : State := s.modPort p (fun q => { q with dropped := q.dropped.add 1, err := q.err ||| 0x10#5 })
/-- GIVE takes a slot (17 R357); dropped before the mailboxes open or while the device owns it. -/
def State.takeSlot (s : State) (p n : Nat) : State × Bool :=
  if !s.raising.done || (s.port p).own.getLsbD n then (s.strayWrite p, false)
  else (s.modPort p (fun q => { q with own := q.own ||| BitVec.ofNat 64 (2 ^ n) }), true)

/-- Is a message served now (15 R319, 18 R374, R401, R402)? -/
def State.served (s : State) (rq : Requester) (m : MsgInfo) : Nat :=
  if isSideband rq ∧ !s.raising.done ∧ !(decide (4 ≤ s.raising.stage) && (decide (m.code = 0x0101) || decide (m.code = 0x0102) || decide (m.code = 0x0D01))) then eNotReady
  else if s.plate.cmstFailed ∧ m.code ≠ 0x0101 ∧ m.code ≠ 0x0A01 ∧ m.code ≠ 0x0702 then eCmstDegraded
  else if (isSideband rq && !m.side) || (!isSideband rq && m.sideOnly) then eUnknownMsg
  else 0

/-- Does the requester have the message's scope (17 R363, 18 R375)? -/
def State.inScope (s : State) (rq : Requester) (m : MsgInfo) (parcel : Nat) : Nat :=
  match requesterPort rq with
  | none => 0
  | some p =>
    let own := decide ((s.parcel parcel).owner = p)
    match m.scope with
    | .any => 0
    | .principal => if s.isPrincipal p then 0 else 0x0E01
    | .owner => if own then 0 else 0x0E02
    | .ownerOrPrincipal => if own || s.isPrincipal p then 0 else 0x0E02

/-- Checks 1 and 4 to 6 of 18 R373; 0 when they pass. -/
def State.admission (s : State) (rq : Requester) (m : MsgInfo) (parcel : Nat) : Nat :=
  let v := s.served rq m
  if v ≠ 0 then v
  else if 4 ≤ parcel ∧ parcel ≠ 0xFF then eMalformed
  else if m.parcel && !(decide (parcel < 4) && (s.parcel parcel).live) then eNoParcel
  else
    let c := s.inScope rq m parcel
    if c ≠ 0 then c
    else match m.feature with
      | some k => if s.hasFeature k then 0 else eNoFeature
      | none => 0

/-- A message takes effect (18 R373): the state, and its answer unless an event is still to bring it. -/
def State.effect (s : State) (rq : Requester) (m : MsgInfo) (parcel : Nat) (h : Handler) : State × Option Ans :=
  let c := s.admission rq m parcel
  if c ≠ 0 then (s, some (Ans.err c)) else h s
/-- A message takes effect and is answered. -/
def State.serve (s : State) (rq : Requester) (m : MsgInfo) (parcel : Nat) (h : Handler) : State :=
  let now := s.plate.wall.toNat
  let r := s.effect rq m parcel h
  match r.2 with
  | some a => r.1.answer (some rq) m.code parcel now a
  | none => r.1

/-- The messages marked immediate, which bypass the queues (17 R367, 18 R375). -/
def msgNow (code : Nat) : Bool :=
  [0x0101, 0x0206, 0x0303, 0x0406, 0x0503, 0x0602, 0x0603, 0x0704, 0x0805, 0x0806, 0x0A01, 0x0A02, 0x0A04, 0x0B03, 0x0C05, 0x0C06, 0x0D02, 0x0D06].contains code
/-- The queues of a request (R367): its parcel's, or the module's, whose number is 0xFF; both for a module-wide request that changes a parcel. -/
def State.reqKeys (s : State) (rq : Requester) (m : MsgInfo) (parcel : Nat) : List Nat :=
  if m.scope = .principal ∨ ((m.code = 0x0204 ∨ m.code = 0x0205) ∧ (requesterPort rq).any s.isPrincipal) then [parcel, 0xFF] else [parcel]
/-- A transfer whose entries have not all taken effect (R367). -/
def WaitFor.isTransfer : WaitFor → Bool
  | .transfer _ _ _ => true
  | _ => false
/-- Has an earlier request of one of these queues not taken effect (R367): one of those listed, or a transfer that waits for its casks? -/
def State.queueBusy (s : State) (before : List Held) (keys : List Nat) : Bool :=
  before.any (fun h => !h.write && !h.now && h.keys.any keys.contains) || s.waits.any (fun w => w.what.isTransfer && keys.contains w.parcel)
/-- Must a request wait: for the BAR2 writes that its port posted before it (R356), or, when it is not immediate, for its turn (R367)? -/
def State.mustQueue (s : State) (port : Option Nat) (keys : List Nat) (now : Bool) : Bool :=
  decide (s.turn < 2) && (port.any (fun p => !(s.port p).posted.isEmpty) || (!now && s.queueBusy s.held keys))
def State.holdReq (s : State) (port slot : Option Nat) (keys : List Nat) (now : Bool) (i : Instr) : State :=
  { s with held := s.held ++ [{ port := port, slot := slot, write := false, keys := keys, now := now, cmd := i }] }

/-- A request arrives (17 R355-R357, R362, R367, 18 R401). -/
def State.deliver (s : State) (rq : Requester) (m : MsgInfo) (parcel : Nat) (i : Instr) (f : State → State) : Host.Outcome State Fault Refusal :=
  let keys := s.reqKeys rq m parcel
  let now := msgNow m.code
  if !requesterOk rq then .refused .noSuchUnit
  else .next (match rq with
    | .slot p n _ =>
      if !s.portLive p then s
      else if s.writeHeld p then s.holdWrite p i
      else
        let t := s.takeSlot p n
        if !t.2 then t.1 else if s.mustQueue (some p) keys now then t.1.holdReq (some p) (some n) keys now i else f t.1
    | .entry p _ _ _ _ => if s.portLive p && s.raising.done then f s else s
    | .sideband _ _ => if s.plate.plateReset then s else if s.mustQueue none keys now then s.holdReq none none keys now i else f s)
/-- i is the command itself, which is kept while it waits. -/
def State.request (s : State) (rq : Requester) (m : MsgInfo) (parcel : Nat) (h : Handler) (i : Instr) : Host.Outcome State Fault Refusal :=
  s.deliver rq m parcel i (fun s => s.serve rq m parcel h)

/-- A handler that answers at once. -/
def replies (s : State) (a : Ans) : State × Option Ans := (s, some a)
def refuses (s : State) (code : Nat) : State × Option Ans := (s, some (Ans.err code))

/-- Is a cut-list entry well formed (17 R362)? stream: DADDR is 0. -/
def cutOk (e : CutEntry) (stream : Bool) : Bool :=
  e.rsvZero && decide (e.eflag.toNat < 2) && decide (e.haddr % 64 = 0) &&
    (if e.kind = 3#8 then decide (64 ≤ e.len) && decide (e.len ≤ 4096) && decide (e.daddr = 0)
     else (decide (e.kind = 1#8) || decide (e.kind = 2#8)) && decide (e.len % 64 = 0) && decide (64 ≤ e.len) && decide (e.len ≤ 2 ^ 30) &&
       (if stream then decide (e.daddr = 0) else decide (e.daddr < 2 ^ 42)))

/-- A SEG_IN entry with a cask address (17 R362): the state, the status, the bytes moved. -/
def State.segIn (s : State) (p : Nat) (e : CutEntry) : State × Nat × Nat :=
  if !cutOk e false ∨ e.kind ≠ 1#8 then (s, 0x0E06, 0)
  else if !e.dmaOk then (s, 0x0E05, 0)
  else match (s.parcel p).absCask (daddrCask e.daddr) with
    | none => (s, 0x0E08, 0)
    | some c =>
      match s.gwWrite c (daddrOff e.daddr) ((e.data ++ zeroBytes e.len).take e.len) true e.beats with
      | some t => (t, 0, e.len)
      | none => (s.gwRefused c, 0x0E08, 0)
/-- A SEG_OUT entry with a cask address. -/
def State.segOut (s : State) (port p : Nat) (e : CutEntry) : State × Nat × Nat :=
  if !cutOk e false ∨ e.kind ≠ 2#8 then (s, 0x0E06, 0)
  else if !e.dmaOk then (s, 0x0E05, 0)
  else match (s.parcel p).absCask (daddrCask e.daddr) with
    | none => (s, 0x0E08, 0)
    | some c =>
      match s.gwRead c (daddrOff e.daddr) e.len with
      | some (bs, bad) => (s.emitPort port (.dmaWrite port e.haddr bs), if bad then 0x0E09 else 0, e.len)
      | none => (s, 0x0E08, 0)

/-- Progress of a cut list (17 R362). -/
structure CutRun where
  s : State
  port : Nat
  done : Nat
  fail : Nat
  status : Nat
  stopped : Bool
  deriving DecidableEq, Repr
/-- One entry of a list: nothing after the entry at which it stopped. Its write-back goes to where the entry stands; a MSG entry's goes
with the answer of its request. -/
def CutRun.entry (r : CutRun) (e : CutEntry) (f : State → State × Nat × Nat) : CutRun :=
  if r.stopped then r
  else
    let y := f r.s
    let x := if e.kind = 3#8 then y else (y.1.emitPort r.port (.dmaWrite r.port (e.addr + 32) (writeBack y.2.1 y.2.2)), y.2.1, y.2.2)
    let bad := decide (x.2.1 ≠ 0)
    let stop := bad && !e.eflag.getLsbD 0
    { s := x.1, port := r.port, done := r.done + 1, fail := if bad ∧ r.fail = 0xFFFF then r.done else r.fail, status := if stop then x.2.1 else r.status, stopped := stop }
def CutRun.start (s : State) (port : Nat) : CutRun := { s := s, port := port, done := 0, fail := 0xFFFF, status := 0, stopped := false }
def CutRun.ans (r : CutRun) (payload : Bytes) : Ans :=
  { status := r.status, payload := if r.status = 0 then payload else [], cutDone := r.done, cutFail := r.fail }

/-- Bytes written out through the SEG_OUT entries of a byte stream (17 R362). -/
def outGo : List CutEntry → Bytes → CutRun → CutRun
  | [], _, r => r
  | e :: es, bs, r =>
    outGo es (bs.drop e.len) (r.entry e (fun s =>
      if !cutOk e true ∨ e.kind ≠ 2#8 then (s, 0x0E06, 0)
      else if !e.dmaOk then (s, 0x0E05, 0)
      else (s.emitPort r.port (.dmaWrite r.port e.haddr (bs.take e.len)), 0, min e.len bs.length)))
def cutRoom (es : List CutEntry) : Nat := es.foldl (fun n e => n + e.len) 0
/-- A stream of bytes leaves through a cut list; a list that is too short for it is E_MBX_LENGTH. -/
def State.streamOut (s : State) (port : Nat) (es : List CutEntry) (bs : Bytes) : CutRun :=
  if cutRoom es < bs.length then { CutRun.start s port with status := 0x0E03, stopped := true } else outGo es bs (CutRun.start s port)

/-- A byte stream comes in through the SEG_IN entries of a list (17 R362). -/
def inGo : List CutEntry → CutRun × Bytes → CutRun × Bytes
  | [], r => r
  | e :: es, r =>
    let why := if !cutOk e true ∨ e.kind ≠ 1#8 then 0x0E06 else if !e.dmaOk then 0x0E05 else 0
    let bs := if r.1.stopped ∨ why ≠ 0 then [] else (e.data ++ zeroBytes e.len).take e.len
    inGo es (r.1.entry e (fun s => (s, why, bs.length)), r.2 ++ bs)

end Sys2Proof.Machine
end

