-- ==== Sys2Proof/Machine/Parcels.lean ====
section
/-! DEFINITION. The sys.* and parcel.* messages and image.unload and image.info (17 R364-R366, 18 R376-R381). -/

namespace Sys2Proof.Machine
open Sys2Proof

/-- FEATURES of sys.info: POUR, LABEL_SIGN, PERTURB. -/
def State.infoBytes (s : State) : Bytes :=
  natLe 1 0xA0 ++ natLe 1 s.raising.stage ++ natLe 1 (s.raising.owner.getD 0xFF) ++ natLe 1 s.bundle ++ natLe 1 s.licFields ++ natLe 1 s.licParcels ++
    natLe 1 s.licLanes ++ natLe 1 s.licFeatures ++ natLe 4 s.raising.fwVer ++ natLe 4 s.raiseFields.toNat ++
    (List.range 4).flatMap (fun p => natLe 1 (if (s.parcel p).live then (s.parcel p).owner else 0xFF)) ++ natLe 1 (b1 s.refLoss) ++ zeroBytes 3 ++
    natLe 8 s.plate.wall.toNat ++ (Config.serialNo ++ zeroBytes 16).take 16
def miSysInfo : MsgInfo := { code := 0x0101, scope := .any, side := true, parcel := false }
def hSysInfo : Handler := fun s => replies s { status := 0, payload := s.infoBytes }
/-- SYS_INFO (R376): Returns the module's stage, role, licence and field state. -/
def execSysInfo (rq : Requester) (s : State) : Host.Outcome State Fault Refusal := s.request rq miSysInfo 0xFF hSysInfo (.sysInfo rq)

/-- The principal role moves (17 R366). -/
def State.movePrincipal (s : State) (p : Nat) : State :=
  let s := s.modRaising (fun r => { r with owner := some p })
  (s.modTrellis (fun x => { x with fastCap := 0, fastActive := 0, fastDue := none })).eventAll 7
def miPrincipalMove : MsgInfo := { code := 0x0102, scope := .any, side := true, sideOnly := true, parcel := false }
/-- Payload bytes 0 to 63, which the signature covers (R377). -/
def moveBody (newPort : Nat) (nonce : Bytes) (keyId : Nat) : Bytes :=
  natLe 1 newPort ++ zeroBytes 7 ++ (nonce ++ zeroBytes 48).take 48 ++ natLe 4 keyId ++ zeroBytes 4
def hPrincipalMove (newPort : Nat) (nonce : Bytes) (keyId sigR sigS : Nat) : Handler := fun s =>
  let fresh := match s.sealU.nonce with
    | some (n, t) => decide (n = (nonce ++ zeroBytes 48).take 48) && decide (s.tNs < t + 60000000000)
    | none => false
  let s := { s with sealU := { s.sealU with nonce := none } }
  if !fresh then refuses s 0x0102
  else
    let key := s.sealU.keys.find? (fun k => decide (k.id = keyId) && decide (k.use_ / 2 % 2 = 1))
    let signed := match key with
      | some k => ecdsaVerify (bytesPoint k.pub) (sha384 (moveBody newPort nonce keyId)) sigR sigS
      | none => false
    if s.sealU.halted || !signed then refuses s 0x0101
    else if 4 ≤ newPort ∨ !(s.port newPort).linkUp then refuses s 0x0103
    else replies (s.movePrincipal newPort) Ans.ok
/-- SYS_PRINCIPAL_MOVE (R377): Moves the principal role to a new port under a signed nonce. The nonce is used up by any attempt. -/
def execSysPrincipalMove (rq : Requester) (newPort : Nat) (nonce : Bytes) (keyId sigR sigS : Nat) (s : State) : Host.Outcome State Fault Refusal :=
  s.request rq miPrincipalMove 0xFF (hPrincipalMove newPort nonce keyId sigR sigS) (.sysPrincipalMove rq newPort nonce keyId sigR sigS)

/-- Tap lanes of all tap ports in parcels: four for each port (19 R403). -/
def tapCount (t : BitVec 8) : Nat := ((List.range 8).filter (fun k => t.getLsbD k)).length
def State.parcelLanes (s : State) : Nat := (List.range 4).foldl (fun n p => if (s.parcel p).live then n + 4 * tapCount (s.parcel p).taps else n) 0
/-- Why a parcel cannot be created (17 R364), in the order of its list; 0 when it can. -/
def State.createRefusal (s : State) (parcel c0 r0 w h : Nat) (taps : BitVec 8) : Nat :=
  if w = 0 ∨ 5 < w ∨ h = 0 ∨ 2 < h ∨ 5 < c0 + w ∨ 2 < r0 + h then 0x0E0A
  else if (s.parcel parcel).live then 0x0E0B
  else
    let fs := rectFields c0 r0 w h
    let seams := (List.range 13).filter (fun n => fs.contains (seamEnds n).1 && fs.contains (seamEnds n).2)
    if fs.any (fun f => decide ((s.field f).st ≠ .parked) || (s.parcelOfField f).isSome) || seams.any (fun n => (s.seam n).retired) then 0x0E0C
    else if s.licParcels < ((List.range 4).filter (fun p => (s.parcel p).live)).length + 1 then 0x0E0D
    else if s.licFields < s.raisedCount + fs.length then 0x0E0D
    else if s.licLanes < s.parcelLanes + 4 * tapCount taps then 0x0E0D
    else if (List.range 4).any (fun p => (s.parcel p).live && decide ((s.parcel p).taps &&& taps ≠ 0#8)) then 0x0B01
    else 0
def miCreate : MsgInfo := { code := 0x0201, scope := .principal, parcel := false }
def hCreate (parcel owner c0 r0 w h : Nat) (taps : BitVec 8) (found : List FieldFindings) : Handler := fun s =>
  if 4 ≤ parcel ∨ 4 ≤ owner then refuses s eMalformed
  else
    let why := s.createRefusal parcel c0 r0 w h taps
    if why ≠ 0 then refuses s why
    else
      let s := (s.setParcel parcel { Parcel.init with owner := owner, c0 := c0, r0 := r0, w := w, h := h, taps := taps }).setPState parcel .resuming
      let fs := rectFields c0 r0 w h
      let s := s.bringUpAll fs found
      match s.firstDown fs with
      | some c => refuses ((((s.parkAgain fs).setPState parcel .none)).setParcel parcel Parcel.init) c
      | none => replies (s.setPState parcel .idle) Ans.ok
/-- PARCEL_CREATE (17 R364): Creates a parcel of a rectangle of fields and unparks them. -/
def execParcelCreate (rq : Requester) (parcel owner c0 r0 w h : Nat) (taps : BitVec 8) (found : List FieldFindings) (s : State) :
    Host.Outcome State Fault Refusal :=
  s.request rq miCreate parcel (hCreate parcel owner c0 r0 w h taps found) (.parcelCreate rq parcel owner c0 r0 w h taps found)

/-- Every BAR2 page that names a parcel is cleared (17 R354, R365). -/
def State.dropPages (s : State) (p : Nat) : State :=
  (List.range 4).foldl (fun s k => s.modPort k (fun q => { q with win := q.win.filter (fun e => decide (fieldBits e.2 15 14 ≠ p)) })) s
/-- A parcel's casks are filled with zero and lose their regions (R379). -/
def Cask.erased (k : Cask) : Cask := { k with mem := [], poison := [], regions := [], writes := [], journal := [], windows := [], period := 0, sflags := 0#9 }
def miDelete : MsgInfo := { code := 0x0202, scope := .principal }
def hDelete (p : Nat) : Handler := fun s =>
  if (s.parcel p).busy || (s.parcel p).pour.serving then refuses s 0x0201
  else
    let q := s.parcel p
    let s := q.casks.foldl (fun s c => s.modCask c Cask.erased) s
    let s := q.fields.foldl (fun s f => if (s.field f).st = .raised then s.fieldOff f .parked else s) s
    let s := (List.range 8).foldl (fun s t => if q.taps.getLsbD t then (s.tapDown t).modTap t (fun x =>
      { Tap.init with present := x.present, copper := x.copper, identified := x.identified, subs := x.subs.map (fun u => (u.1, { SubLink.init with cnt := u.2.cnt })) }) else s) s
    let s := ((s.dropPages p).answerWaits (fun w => decide (w.parcel = p) && w.what.isExport) (Ans.err 0x0502)).setPState p .none
    replies (s.setParcel p Parcel.init) Ans.ok
/-- PARCEL_DELETE (R379): Erases a parcel's casks and releases its resources. Its fields stay PARKED. -/
def execParcelDelete (rq : Requester) (parcel : Nat) (s : State) : Host.Outcome State Fault Refusal := s.request rq miDelete parcel (hDelete parcel) (.parcelDelete rq parcel)

def miAssign : MsgInfo := { code := 0x0203, scope := .principal }
def hAssign (p owner : Nat) : Handler := fun s =>
  if 4 ≤ owner then refuses s eMalformed
  else replies ((s.dropPages p).modParcel p (fun q => { q with owner := owner })) Ans.ok
/-- PARCEL_ASSIGN (17 R365): Moves a parcel to another owner port and clears its BAR2 pages. -/
def execParcelAssign (rq : Requester) (parcel owner : Nat) (s : State) : Host.Outcome State Fault Refusal := s.request rq miAssign parcel (hAssign parcel owner) (.parcelAssign rq parcel owner)

def miPark : MsgInfo := { code := 0x0204, scope := .ownerOrPrincipal }
def hPark (rq : Requester) (p : Nat) : Handler := fun s =>
  if (s.parcel p).st = .idle ∨ (s.parcel p).st = .running then ((s.await rq 0x0204 p .parked).askPark p .host, none)
  else refuses s 0x0202
/-- PARCEL_PARK (14 R297, 18 R379): Asks to park the parcel at the first decidable peg; between invocations it parks at once. -/
def execParcelPark (rq : Requester) (parcel : Nat) (s : State) : Host.Outcome State Fault Refusal := s.request rq miPark parcel (hPark rq parcel) (.parcelPark rq parcel)

/-- A parcel that heat parked waits until every sensor of its fields reads below 90 degrees (14 R299). -/
def State.stillHot (s : State) (p : Nat) : Bool :=
  decide ((s.parcel p).parkedBy = some .thermal) && (decide (90 ≤ s.hotBay (s.parcel p)) || decide (90 ≤ s.hotSill (s.parcel p)))
def miResume : MsgInfo := { code := 0x0205, scope := .ownerOrPrincipal }
def hResume (p : Nat) (found : List FieldFindings) : Handler := fun s =>
  if (s.parcel p).st ≠ .parked ∨ s.stillHot p then refuses s 0x0202
  else if s.licFields < s.raisedCount + (s.parcel p).fields.length then refuses s 0x0F04
  else
    let r := s.resumeParcel p found
    replies r.1 { status := r.2 }
/-- PARCEL_RESUME (14 R298, 18 R379): Resumes a parked parcel by the fast re-raise path and vintage restore. -/
def execParcelResume (rq : Requester) (parcel : Nat) (found : List FieldFindings) (s : State) : Host.Outcome State Fault Refusal :=
  s.request rq miResume parcel (hResume parcel found) (.parcelResume rq parcel found)

def imageDigestBytes (q : Parcel) : Bytes := match q.image with
  | some m => digestBytes m.digest
  | none => zeroBytes 48
def State.parcelBytes (s : State) (p : Nat) : Bytes :=
  let q := s.parcel p
  [BitVec.ofNat 8 (pstateCode q.st), BitVec.ofNat 8 q.owner, BitVec.ofNat 8 q.c0, BitVec.ofNat 8 q.r0, BitVec.ofNat 8 q.w, BitVec.ofNat 8 q.h, q.taps,
    BitVec.ofNat 8 (b1 q.test)] ++ natLe 8 (q.serial - 1) ++ imageDigestBytes q ++ natLe 1 (b1 (s.resident p)) ++ zeroBytes 7
def miStatus : MsgInfo := { code := 0x0206, scope := .ownerOrPrincipal }
/-- PARCEL_STATUS (R378): Returns the parcel's state, shape, serial and image digest. -/
def execParcelStatus (rq : Requester) (parcel : Nat) (s : State) : Host.Outcome State Fault Refusal :=
  s.request rq miStatus parcel (fun s => replies s { status := 0, payload := s.parcelBytes parcel }) (.parcelStatus rq parcel)

/-- Is a parcel free for a load (R381)? -/
def Parcel.loadable (q : Parcel) : Bool := !q.busy && !q.pour.serving
def miUnload : MsgInfo := { code := 0x0302, scope := .owner }
def hUnload (p : Nat) : Handler := fun s =>
  let q := s.parcel p
  if !q.loadable then refuses s 0x0306
  else if q.image.isNone then refuses s 0x0307
  else
    let s := (s.clearResident p).modParcel p (fun q => { q with image := none, awaits := [], tr := { q.tr with learned := [], hint := none } })
    replies (q.casks.foldl (fun s c => s.modCask c (fun k => { k with regions := [], windows := [], period := 0 })) s) Ans.ok
/-- IMAGE_UNLOAD (R381): Unloads the parcel's image. -/
def execImageUnload (rq : Requester) (parcel : Nat) (s : State) : Host.Outcome State Fault Refusal := s.request rq miUnload parcel (hUnload parcel) (.imageUnload rq parcel)

def useCode : RegionUse → Nat
  | .weight => 0
  | .landing => 1
  | .kv => 2
  | .scratch => 3
  | .vintage => 4
/-- The regions of a parcel in ascending relative cask and BASE. -/
def State.parcelRegions (s : State) (p : Nat) : List (Nat × Region) :=
  let q := s.parcel p
  q.casks.flatMap (fun c => ((s.cask c).regions.mergeSort (fun a b => decide (a.base ≤ b.base))).map (fun r => (q.relCask c, r)))
/-- Every await of a region has landed. -/
def Parcel.regionLanded (q : Parcel) (rc : Nat) (r : Region) : Bool :=
  q.awaits.all (fun a => a.landed || decide (a.rcask ≠ rc) || !(decide (r.base ≤ a.off) && decide (a.off < r.base + r.extent)))
def State.regionEntry (s : State) (p : Nat) (e : Nat × Region) : Bytes :=
  natLe 1 e.1 ++ natLe 1 (useCode e.2.use_) ++ natLe 1 (b1 e.2.digestValid) ++ natLe 1 (b1 ((s.parcel p).regionLanded e.1 e.2)) ++ zeroBytes 4 ++ natLe 8 e.2.base ++
    natLe 8 e.2.size
def miImageInfo : MsgInfo := { code := 0x0303, scope := .owner, cut := true }
def hImageInfo (rq : Requester) (p : Nat) (cut : Option CutEntry) : Handler := fun s =>
  if (s.parcel p).image.isNone then refuses s 0x0307
  else
    let es := s.parcelRegions p
    let head := imageDigestBytes (s.parcel p) ++ natLe 4 es.length
    let all := head ++ es.flatMap (s.regionEntry p)
    match cut with
    | none => if 165 < es.length then replies s { status := 0x0E03, payload := head } else replies s { status := 0, payload := all }
    | some e =>
      let r := s.streamOut ((requesterPort rq).getD 0) [e] all
      (r.s, some (r.ans []))
/-- IMAGE_INFO (R381): Returns the loaded image's digest and region states. -/
def execImageInfo (rq : Requester) (parcel : Nat) (cut : Option CutEntry) (s : State) : Host.Outcome State Fault Refusal :=
  s.request rq miImageInfo parcel (hImageInfo rq parcel cut) (.imageInfo rq parcel cut)

end Sys2Proof.Machine
end

