-- ==== Sys2Proof/Machine/CazerCask.lean ====
section
/-! DEFINITION. The cask.* messages, and what the sills and the scrubbers do of their own (05 R103, 06 R106, 09 R191-R201, 17 R354, 18
R382). -/

namespace Sys2Proof.Machine
open Sys2Proof

/-- CEL_WIN_n (17 R354). -/
def winWord (parcel rcask gib : Nat) : Word := packBits [(31, 1), (14, parcel), (7, rcask), (0, gib)]
def miWindowSet : MsgInfo := { code := 0x0401, scope := .owner }
def hWindowSet (rq : Requester) (parcel page rcask gib : Nat) : Handler := fun s =>
  if 255 < page ∨ 127 < gib ∨ ((s.parcel parcel).absCask rcask).isNone then refuses s 0x0401
  else replies (s.modPort ((requesterPort rq).getD 0) (fun q => { q with win := Sparse.set 0#32 q.win page (winWord parcel rcask gib) })) Ans.ok
/-- CASK_WINDOW_SET (R382): Maps a BAR2 page onto a cask of the parcel. -/
def execCaskWindowSet (rq : Requester) (parcel page rcask offGib : Nat) (s : State) : Host.Outcome State Fault Refusal :=
  s.request rq miWindowSet parcel (hWindowSet rq parcel page rcask offGib) (.caskWindowSet rq parcel page rcask offGib)

/-- Pages of the requesting port: one, or with 0xFF every page, of those that name a parcel where one is named. -/
def clearWin (parcel page : Nat) (win : Sparse Word) : Sparse Word :=
  if page = 0xFF then (if parcel = 0xFF then [] else win.filter (fun e => decide (fieldBits e.2 15 14 ≠ parcel))) else Sparse.set 0#32 win page 0#32
def miWindowClear (parcel : Nat) : MsgInfo := { code := 0x0402, scope := .any, parcel := decide (parcel ≠ 0xFF) }
def hWindowClear (rq : Requester) (parcel page : Nat) : Handler := fun s =>
  if 255 < page then refuses s 0x0401
  else replies (s.modPort ((requesterPort rq).getD 0) (fun q => { q with win := clearWin parcel page q.win })) Ans.ok
/-- CASK_WINDOW_CLEAR (R382): Clears one or every BAR2 page of the port. -/
def execCaskWindowClear (rq : Requester) (parcel page : Nat) (s : State) : Host.Outcome State Fault Refusal :=
  s.request rq (miWindowClear parcel) parcel (hWindowClear rq parcel page) (.caskWindowClear rq parcel page)

/-- The WEIGHT region of a cask that begins at an offset. -/
def Cask.weightAt (k : Cask) (base : Nat) : Option Region := k.regions.find? (fun r => decide (r.use_ = .weight) && decide (r.base = base))
/-- The sill begins to read the region (R197). -/
def State.closeRegion (s : State) (c : Nat) (r : Region) : State :=
  s.modCask c (fun k => { k with regions := setRegion k.regions { r with closing := true, written := false } })
def miRegionClose : MsgInfo := { code := 0x0404, scope := .owner }
def hRegionClose (rq : Requester) (parcel rcask base : Nat) : Handler := fun s =>
  match (s.parcel parcel).absCask rcask with
  | none => refuses s 0x0402
  | some c => match (s.cask c).weightAt base with
    | none => refuses s 0x0402
    | some r => (((s.closeRegion c r).await rq 0x0404 parcel (.digest c base)), none)
/-- CASK_REGION_CLOSE (R197): Closes a WEIGHT region so the sill computes its digest. -/
def execCaskRegionClose (rq : Requester) (parcel rcask base : Nat) (s : State) : Host.Outcome State Fault Refusal :=
  s.request rq miRegionClose parcel (hRegionClose rq parcel rcask base) (.caskRegionClose rq parcel rcask base)

/-- REGION_DIGEST_DONE (R197): The sill finishes a region's SHA-384 and marks the digest valid. A write in the meantime made the
computation void. -/
def execRegionDigestDone (cask base : Nat) (s : State) : Host.Outcome State Fault Refusal :=
  if 20 ≤ cask then .refused .noSuchUnit
  else
    let mine := fun (w : Wait) => decide (w.what = .digest cask base)
    .next (match (s.cask cask).weightAt base with
      | some r =>
        if !r.closing then s.answerWaits mine (Ans.err 0x0404)
        else if r.written then
          (s.modCask cask (fun k => { k with regions := setRegion k.regions { r with closing := false, written := false, digestValid := false } })).answerWaits mine (Ans.err 0x0404)
        else
          let d := sha384Val ((s.cask cask).regionBytes r).1
          (s.modCask cask (fun k => { k with regions := setRegion k.regions { r with closing := false, digest := d, digestValid := true } })).answerWaits mine
            { status := 0, payload := digestBytes d }
      | none => s.answerWaits mine (Ans.err 0x0404))

def miStaveFail : MsgInfo := { code := 0x0405, scope := .principal, parcel := false }
def hStaveFail (cask stave : Nat) : Handler := fun s =>
  if 20 ≤ cask ∨ 17 ≤ stave then refuses s eMalformed
  else
    let old := (s.cask cask).failing.contains stave
    let s := s.staveFails cask stave
    if (s.cask cask).copying = some stave then replies s Ans.ok
    else refuses (if old then s.report { code := 0x0409, parcel := s.parcelOfCask cask, unit := 0x05, idx := cask, stave := some stave } else s) 0x0403
/-- CASK_STAVE_FAIL (R198): Marks a stave failing so the sill copies it onto the reserve. -/
def execCaskStaveFail (rq : Requester) (cask stave : Nat) (s : State) : Host.Outcome State Fault Refusal :=
  s.request rq miStaveFail 0xFF (hStaveFail cask stave) (.caskStaveFail rq cask stave)

/-- The counters of a cask in table order (R201, R222). -/
def Cask.counterBytes (k : Cask) : Bytes := (List.range 29).flatMap (fun i => natLe 8 (Sparse.get EvCnt.init k.cnt i).word)
def Cask.statusBytes (k : Cask) : Bytes := natLe 1 k.sclk ++ natLe 1 k.ceiling ++ natLe 1 (k.reserve.getD 0xFF) ++ zeroBytes 5 ++ k.counterBytes
/-- With PARCEL 0xFF the principal may name any cask. -/
def State.miCaskStatus (s : State) (rq : Requester) (parcel : Nat) : MsgInfo :=
  if decide (parcel = 0xFF) && ((requesterPort rq).map (fun p => s.isPrincipal p)).getD false then { code := 0x0406, scope := .any, parcel := false } else { code := 0x0406, scope := .ownerOrPrincipal }
def hCaskStatus (parcel cask : Nat) : Handler := fun s =>
  if parcel = 0xFF then (if 20 ≤ cask then refuses s eMalformed else replies s { status := 0, payload := (s.cask cask).statusBytes })
  else if (s.parcel parcel).casks.contains cask then replies s { status := 0, payload := (s.cask cask).statusBytes }
  else refuses s 0x0405
/-- CASK_STATUS (R382): Returns a cask's sill clock, ceiling, reserve and counters. -/
def execCaskStatus (rq : Requester) (parcel cask : Nat) (s : State) : Host.Outcome State Fault Refusal :=
  s.request rq (s.miCaskStatus rq parcel) parcel (hCaskStatus parcel cask) (.caskStatus rq parcel cask)

/-- STAVE_FAILING (R198): The sill marks a stave failing on its corrected-symbol count or confined uncorrectable errors. -/
def execStaveFailing (cask stave : Nat) (_cause : StaveCause) (s : State) : Host.Outcome State Fault Refusal :=
  if 20 ≤ cask ∨ 17 ≤ stave then .refused .noSuchUnit else .next (s.staveFails cask stave)

/-- STAVE_SPARED (R198): A stave copy ends and the reserve replaces the failing stave, in a REST frame while an invocation runs (R192). -/
def execStaveSpared (cask : Nat) (s : State) : Host.Outcome State Fault Refusal :=
  if 20 ≤ cask then .refused .noSuchUnit else .next (if s.restNow cask then s.staveSpared cask else s)

/-- REST_STARVED (R193): A sill's rest ledger exceeds 4,096 and refresh is forced, until the ledger is back at 0: one fault for that time. forced is
the number of refresh operations now forced, delays whether they keep back the reads that are still to be fetched (the manual does not say which
reads the refresh delays). -/
def execRestStarved (cask forced : Nat) (delays : Bool) (s : State) : Host.Outcome State Fault Refusal :=
  if 20 ≤ cask then .refused .noSuchUnit
  else
    let k := s.cask cask
    .next (if !s.fieldRuns (cask / 2) || (!k.forced && decide (k.ledger ≤ 4096)) then s
      else
        let s := (s.modCask cask (fun k => { k with forced := true, delays := delays })).caskCount cask ckForced forced
        if k.forced then s
        else
          let c := (s.islandCount (cask / 2)).toNat
          s.report { code := 0x0404, parcel := s.parcelOfCask cask, count := c, unit := 0x05, idx := cask, cask := some cask
                     detail := [(1, cask), (4, k.ledger), (8, c)] })

/-- Granules of the RETAIN banks. -/
def Vat.retained (v : Vat) (a : Nat) : Bool := decide ((v.bank (bankOf a)).power = .retain)
/-- A retention scrub (05 R88, R100, R103): granules corrected are rewritten, uncorrectable ones stay so, and one in a resident bank clears
RESIDENT_VALID. -/
def Bay.retentionScrub (b : Bay) (ce ue : List Nat) : Bay :=
  let v := b.vat
  let here := fun (l : List Nat) => (l.filter v.retained).map granOf
  let old := v.gran.filter (fun e => v.retained (8 * e.1))
  let bad := ((old.filter (fun e => decide (e.2 ≠ 2))).map (fun e => e.1) ++ here ue).eraseDups
  let fixed := (((old.filter (fun e => decide (e.2 = 2))).map (fun e => e.1) ++ here ce).eraseDups).filter (fun g => !bad.contains g)
  let g1 := fixed.foldl (fun m g => Sparse.set 0 m g 0) v.gran
  let g2 := bad.foldl (fun m g => if Sparse.get 0 m g = 1 then m else Sparse.set 0 m g 3) g1
  let hit := bad.any (fun g => v.residentMask.getLsbD (bankOf (8 * g)))
  { b with vat := { v with gran := g2, residentValid := v.residentValid && !hit }
           counters := bump (bump b.counters 0 fixed.length) 1 bad.length }
/-- May a scrubber work in a bay now: its field is powered and no invocation of its parcel runs? -/
def State.scrubs (s : State) (b : BayId) : Bool := (s.field (fieldOf b)).supply.vfab && !s.fieldRuns (fieldOf b)
/-- VAT_RETENTION_SCRUB (R103): Between invocations the retention scrubber reads every RETAIN bank and rewrites corrected granules. ce and
ue are the addresses at which it meets a correctable and an uncorrectable error. -/
def execVatRetentionScrub (b : BayId) (ce ue : List Nat) (s : State) : Host.Outcome State Fault Refusal :=
  if !b.ok then .refused .noSuchUnit
  else .next (if s.scrubs b then s.modBay b (fun x => x.retentionScrub ce ue) else s)

/-- PLAN_SCRUB (R106): Between invocations the Cellarmaster scrubs every plan store and peg digest table and rewrites each corrected word.
A rewritten word reads as before, and PLAN_CE and PLAN_UE count only what a fetch finds (R129), so nothing in State changes. -/
def execPlanScrub (b : BayId) (_ce _ue : Nat) (s : State) : Host.Outcome State Fault Refusal :=
  if !b.ok then .refused .noSuchUnit else .next s

/-- PATROL_SCRUB (R199): Patrol scrub reads cask pieces and rewrites corrected ones, in REST frames while an invocation runs (R192), in which no
access count falls (R191). off is the cask's own address of the piece. -/
def execPatrolScrub (cask off : Nat) (err : PieceErr) (s : State) : Host.Outcome State Fault Refusal :=
  if 20 ≤ cask ∨ 32 * chanSpan ≤ off then .refused .noSuchUnit
  else .next (if !(s.cask cask).rails || !s.restNow cask then s
    else match err with
      | .symbolCorrected st => (s.symbolCorrected cask st).caskCount cask ckScrubFixed 1
      | .late => s
      | e => s.findingCounts cask e)

end Sys2Proof.Machine
end

