-- ==== Sys2Proof/Machine/ExportOps.lean ====
section
/-! DEFINITION. Exporting and importing a vintage: the stream of 18 R391, the exports that a running parcel stops for (R390), the checks
of a restore (11 R241, 18 R392). -/

namespace Sys2Proof.Machine
open Sys2Proof

/-- The KV, SCRATCH and LANDING regions of a parcel in ascending relative cask and BASE. -/
def exported : RegionUse → Bool
  | .kv => true
  | .scratch => true
  | .landing => true
  | _ => false
def exportUse : RegionUse → Nat
  | .weight => 0
  | .landing => 1
  | .kv => 2
  | .scratch => 3
  | .vintage => 4
def State.exportRegions (s : State) (p : Nat) : List (Nat × Region) :=
  let q := s.parcel p
  q.casks.flatMap (fun c =>
    (((s.cask c).regions.filter (fun r => exported r.use_)).mergeSort (fun a b => decide (a.base ≤ b.base))).map (fun r => (c, r)))
def regionHead (rc : Nat) (r : Region) : Bytes :=
  natLe 1 rc ++ zeroBytes 7 ++ natLe 8 r.base ++ natLe 8 r.size ++ natLe 1 (exportUse r.use_) ++ zeroBytes 7
/-- A region's bytes as they stand in the staves; writes on their way are the records' (R236). -/
def State.regionCopy (s : State) (c : Nat) (r : Region) : Bytes := (({ s.cask c with writes := [] } : Cask).regionBytes r).1
/-- The export stream (R391). -/
def State.exportBytes (s : State) (p : Nat) (v : Vintage) : Bytes :=
  let q := s.parcel p
  let rs := s.exportRegions p
  let recs := v.records q
  let body := v.header recs.length ++ recs.flatMap VRec.bytes ++ rs.flatMap (fun e => regionHead (q.relCask e.1) e.2 ++ s.regionCopy e.1 e.2)
  body ++ digestBytes (sha384Val body) ++ natLe 4 rs.length ++ zeroBytes 12

/-- The newest valid slot. -/
def Parcel.newest (q : Parcel) : Option Vintage :=
  match q.base.bind (fun k => q.vint[k]?) with
  | some v => some v
  | none => (q.vint.filter (fun v => v.valid)).foldl (fun b v => match b with
      | some x => if x.tag ≤ v.tag then some v else b
      | none => some v) none

/-- Send an export to a host (R390): its bytes through the cut list, the answer BYTES. -/
def State.exportCut (s : State) (rq : Option Requester) (cut : List CutEntry) (bs : Bytes) : State × Ans :=
  let port := (rq.bind requesterPort).getD 0
  let r := s.streamOut port cut bs
  (r.s, r.ans (natLe 8 bs.length))

/-- The exports that wait for a vintage of the parcel (R390): one over a tap stream begins to offer it, the others leave at once. -/
def State.exportsDue (s : State) (p : Nat) : State :=
  match (s.parcel p).newest with
  | none => s
  | some v =>
    let bs := s.exportBytes p v
    let tapRq := (s.parcel p).exp.map (fun e => e.rq)
    let mine := fun (w : Wait) => decide (w.parcel = p) && w.what.isExport && !(w.rq.isSome && decide (w.rq = tapRq))
    let ws := s.waits.filter mine
    let s := { s with waits := s.waits.filter (fun w => !mine w) }
    let s := ws.foldl (fun s w =>
      let cut := match w.what with
        | .exportEnd cut _ => cut
        | _ => []
      if w.rq.isNone && !cut.isEmpty then s.cutDies p
      else
        let r := s.exportCut w.rq cut bs
        r.1.answer w.rq w.msg p w.arrivedNs r.2) s
    s.modParcel p (fun q => { q with exp := q.exp.map (fun e => { e with bytes := bs }) })

/-- The parts of an imported stream, when it is long enough. -/
structure Import where
  head : Bytes
  recs : Bytes
  regions : Bytes
  trail : Bytes
  body : Bytes
  deriving DecidableEq, Repr
def State.regionPart (s : State) (p : Nat) : Nat := (s.exportRegions p).foldl (fun n e => n + 32 + e.2.extent) 0
def State.importOf (s : State) (p : Nat) (bs : Bytes) : Option Import :=
  let k := s.regionPart p
  if bs.length < 256 + k + 64 then none
  else
    let n := bs.length - 256 - k - 64
    some { head := bs.take 256, recs := bs.slice 256 n, regions := bs.slice (256 + n) k, trail := bs.drop (256 + n + k), body := bs.take (256 + n + k) }
/-- Every region header and its bytes, as they stand in the stream. -/
def State.importRegions (s : State) (p : Nat) (bs : Bytes) : List (Nat × Region) → List (Nat × Region × Bytes × Bool)
  | [] => []
  | e :: es =>
    let ok := decide (bs.take 32 = regionHead ((s.parcel p).relCask e.1) e.2)
    (e.1, e.2, bs.slice 32 e.2.extent, ok) :: s.importRegions p (bs.drop (32 + e.2.extent)) es

/-- Are the WEIGHT regions of a parcel landed: every await that lies in one, and their digests valid (R241)? -/
def State.weightsLanded (s : State) (p : Nat) : Bool :=
  s.weightsValid p && (s.parcel p).awaits.all (fun a =>
    a.landed || !(s.weights p).any (fun e => decide (e.1 = a.rcask) && decide (e.2.base ≤ a.off) && decide (a.off < e.2.base + e.2.extent)))
/-- The checks of a restore (R241, R391, R392), in the order of their codes; 0 when they pass. -/
def State.importRefusal (s : State) (p : Nat) (bs : Bytes) : Nat :=
  let q := s.parcel p
  let h : Bytes := bs.take 256
  if bs.length < 256 then 0x0705
  else if h.leAt 6 1 ≠ 0xA0 then 0x0701
  else if h.leAt 7 1 ≠ q.shape then 0x0702
  else match q.image with
    | none => 0x0703
    | some m =>
      if h.leAt 16 48 ≠ m.digest.toNat then 0x0703
      else if !s.weightsLanded p || decide (h.leAt 160 48 ≠ (s.weightsDigest p).toNat) then 0x0704
      else match s.importOf p bs with
        | none => 0x0705
        | some i =>
          if h.leAt 0 4 ≠ 0x544E4956 ∨ h.leAt 4 2 ≠ 1 ∨ h.leAt 208 48 ≠ (sha384Val (h.take 208)).toNat ∨ h.leAt 112 48 ≠ (sha384Val i.recs).toNat ∨
             i.trail.leAt 0 48 ≠ (sha384Val i.body).toNat ∨ i.trail.leAt 48 4 ≠ (s.exportRegions p).length ∨
             (s.importRegions p i.regions (s.exportRegions p)).any (fun e => !e.2.2.2) then 0x0705
          else 0

/-- The vintage that a stream carries: one that this module still knows, else what its records hold (log entry 8). -/
def State.importVintage (s : State) (i : Import) : Vintage :=
  let h : Bytes := i.head
  let d := BitVec.ofNat 384 (h.leAt 208 48)
  let known := ((List.range 4).flatMap (fun p => (s.parcel p).vint)).find? (fun v => v.valid && decide (v.headerDigest = d))
  match known with
  | some v => v
  | none =>
    { valid := true, generation := h.leAt 8 8, imageDigest := BitVec.ofNat 384 (h.leAt 16 48), runKey := BitVec.ofNat 128 (h.leAt 64 16), count := h.leAt 80 8
      pegno := h.leAt 88 4, auto := decide (h.leAt 92 4 % 2 = 1), park := decide (h.leAt 92 4 / 2 % 2 = 1), holdCount := h.leAt 96 8, shape := h.leAt 7 1
      bays := Config.vintageBays i.recs, writes := Config.vintageWrites i.recs, sflags := Config.vintageSflags i.recs, awaits := Config.vintageAwaits i.recs
      crossings := Config.vintageCrossings i.recs, flights := Config.vintageFlights i.recs
      bodyDigest := BitVec.ofNat 384 (h.leAt 112 48), weightsDigest := BitVec.ofNat 384 (h.leAt 160 48), headerDigest := d, tag := s.freeCtr }

/-- The two slots of a parcel. -/
def Parcel.slots (q : Parcel) : List Vintage := if q.vint.length < 2 then [Vintage.none, Vintage.none] else q.vint
/-- The parcel with an imported vintage as its base and a resumed invocation. -/
def Parcel.imported (q : Parcel) (v : Vintage) (m : Image) (now : Nat) (input : BitVec 384) : Parcel :=
  let k := q.nextSlot
  let i := Inv.new q.serial v.runKey false
  { q with serial := q.serial + 1, vint := listSet q.slots k v, base := some k, nextSlot := 1 - k
           inv := some { i with started := true, prologueRan := m.prologue, startNs := now, holdCount := v.holdCount, inputDigest := input } }
/-- The regions of a stream are written. -/
def State.importCasks (s : State) (p : Nat) (i : Import) : State :=
  (s.importRegions p i.regions (s.exportRegions p)).foldl (fun s e =>
    s.modCask e.1 (fun k => ({ k with writes := [], journal := [] } : Cask).putBytes e.2.1 e.2.1.base e.2.2.1)) s
/-- The restore itself (R241): regions and records are written, the vintage is the base with an empty journal, and the parcel stands at
its peg under a new SERIAL. -/
def State.importRun (s : State) (p : Nat) (m : Image) (i : Import) : State :=
  let v := s.importVintage i
  let s := (({ s with freeCtr := s.freeCtr + 1 } : State).importCasks p i).loadBays p m
  let s := s.modParcel p (fun q => q.imported v m s.plate.wall.toNat (s.specDigest p m.labelIn))
  (s.restoreVintage p v true).setPState p .running

end Sys2Proof.Machine
end

