-- ==== Sys2Proof/Machine/Invocation.lean ====
section
/-! DEFINITION. Holds, vintages, parks, the start and end of an invocation, rollback, and the control plane's lockstep (11, 15 R319,
18 R385-R388, 21 R442, R457). -/

namespace Sys2Proof.Machine
open Sys2Proof

/-- A command that names a parcel number the module does not have is refused; the others act. -/
def State.onParcel (s : State) (p : Nat) (f : State → State) : Host.Outcome State Fault Refusal :=
  if p < 4 then .next (f s) else .refused .noSuchUnit

/-- PRT_HOLD forces a stop at a peg (15 R328). -/
def State.forcedAt (s : State) (p peg : Nat) : Bool :=
  s.prtFor p && s.prt.hold.getLsbD 31 && (decide (s.prt.holdPeg.toNat = peg) || (s.prt.hold.getLsbD 30 && decide (s.prt.holdPeg.toNat ≤ peg)))

/-- The stop reasons of R230 that hold at a peg, with a fault indication (15 R310) and an abort (18 R388). -/
def State.stopWhy (s : State) (p peg : Nat) (i : Inv) (m : Image) : StopWhy :=
  let q := s.parcel p
  { hold := !q.dueLanded peg
    vintage := decide (peg % m.interval = 0) || i.vintageReq || i.parkReq || q.casks.any (fun c => (s.cask c).journalHalf)
    park := i.parkReq, forced := s.forcedAt p peg, fault := i.fault.isSome, abort := i.abortReq }
def StopWhy.any (w : StopWhy) : Bool := w.hold || w.vintage || w.park || w.forced || w.fault || w.abort

/-- The draws that wait take the peg that is decided to stop for them (R230). -/
def State.nameDraws (s : State) (p peg : Nat) : State :=
  { s with waits := s.waits.map (fun w => if w.parcel = p ∧ w.what = .vintage none then { w with what := .vintage (some peg) } else w) }
/-- The decision for a parcel's next undecided peg (R230): a stop is broadcast in the CMD class; an island that has passed its count raises
LATE_COMMAND and does not act on it (08 R169), and the parcel then has no stop there. -/
def State.decidePeg (s : State) (p : Nat) (i : Inv) (m : Image) (count : Nat) : State :=
  let peg := i.decided + 1
  let why := s.stopWhy p peg i m
  let t : Stop := { peg := peg, count := count, why := why, reached := false, drawn := false, z := none, atNs := 0, since := [], levels := [] }
  let s := s.modInv p (fun j => { j with decided := peg })
  if !why.any then s
  else
    let s := s.emit (.stopCmd p count why)
    let late := (s.parcel p).fields.filter (fun f => countPast (s.islandCount f) count)
    if late ≠ [] then late.foldl (fun s f => s.lateCommand f count) s
    else
      let s := if i.vintageReq then (s.nameDraws p peg).modInv p (fun j => { j with vintageReq := false }) else s
      s.modInv p (fun j => match j.stop with
        | none => { j with stop := some t }
        | some _ => { j with later := j.later ++ [t] })

/-- STOP_DECISION (R230): The plate's count tracker decides at count P - 1,024 whether the parcel stops at peg P. The body's first PEG
is never a stop point. -/
def execStopDecision (parcel : Nat) (s : State) : Host.Outcome State Fault Refusal :=
  s.onParcel parcel (fun s =>
    match (s.parcel parcel).inv, (s.parcel parcel).image with
    | some i, some m =>
      match m.pegCount (i.decided + 1) with
      | some c => if i.started && decide ((c : Int) ≤ s.parcelCount parcel + 1024) then s.decidePeg parcel i m c else s
      | none => s
    | _, _ => s)

/-- PRT_XPHASE shifts read pointers at a stop (15 R328): beyond 4 entries the crossing overruns, and the fault is INJECTED. -/
def State.xphase (s : State) (p : Nat) : State :=
  let w := s.prt.xphase
  let n := bitsOf w.toNat 20 4
  let off := signedOf 4 w.toNat
  let q := s.parcel p
  let lk := bitsOf w.toNat 8 8
  let lines := if lk = 0xFF then List.range 12 else if lk < 12 then [lk] else []
  if s.prtFor p && w.getLsbD 31 && q.seams.contains n && (s.seam n).released then
    lines.foldl (fun s l =>
      let link : ScarfLink := { seam := n, line := l, up := !w.getLsbD 16 }
      let s0 := Sparse.get 6 (s.seam n).sigma0 (linkReader link)
      let s := s.modSeam n (fun x => { x with shifts := Sparse.set 0 x.shifts (linkReader link) off })
      if 4 < off.natAbs ∧ !(s.seam n).overrun.contains link then
        (s.modSeam n (fun x => { x with overrun := x.overrun ++ [link] })).report
          { code := 0x0308, parcel := some p, count := (s.parcelCount p).toNat, unit := 0x03, x := n, idx := l, injected := true
            detail := [(1, n), (1, l), (1, if link.up then 0 else 1), (4, (BitVec.ofInt 32 (s0 + off)).toNat), (4, (BitVec.ofInt 32 s0).toNat), (8, (s.parcelCount p).toNat)] }
      else s) s
  else s

/-- Do all bays of the parcel stand on the boundary before the stop's bundle (R231)? Those of a field that went dark stand nowhere (13 R276). -/
def State.atStop (s : State) (p : Nat) (t : Stop) : Bool :=
  ((s.litFields p).flatMap fieldBays).all (fun b => let q := (s.bay b).seq; q.body && decide ((t.count : Int) ≤ q.count))

/-- PARCEL_STOP (R231): The parcel stops on the boundary before the PEG bundle and its islands count stop cycles. The stop adds 1 to
HOLD_COUNT (R233), the reads under way complete at their casks (09 R194); an abort ends the run here (18 R388). -/
def execParcelStop (parcel : Nat) (s : State) : Host.Outcome State Fault Refusal :=
  s.onParcel parcel (fun s =>
    match (s.parcel parcel).inv with
    | some i =>
      match i.stop with
      | some t =>
        if !t.reached && s.atStop parcel t then
          let s := s.modInv parcel (fun i =>
            { i with holdCount := i.holdCount + 1, stop := some { t with reached := true, atNs := s.tNs, levels := s.pressLevels parcel } })
          let s := ((s.parcel parcel).bays.foldl State.readsComplete s).xphase parcel
          if t.why.abort || i.abortReq then s.endAndPark parcel 0x0607 0 else s
        else s
      | none => s
    | none => s)

/-- May the plate broadcast the restart (R232)? -/
def State.mayRestart (s : State) (p : Nat) (i : Inv) (t : Stop) : Bool :=
  let q := s.parcel p
  t.reached && t.z.isNone && q.dueLanded t.peg && (!t.why.vintage || t.drawn) && !t.why.park && !i.parkReq && i.fault.isNone && !t.why.fault && !i.abortReq && q.exp.isNone &&
    decide (q.st ≠ .parked)

/-- RESTART (R232): The plate broadcasts a restart naming stop cycle Z once every stop reason has cleared. lead is how far Z lies ahead
of the plate's own stop cycle; PRT_HOLD adds EXTRA (15 R328). -/
def execRestart (parcel lead : Nat) (s : State) : Host.Outcome State Fault Refusal :=
  s.onParcel parcel (fun s =>
    match (s.parcel parcel).inv with
    | some i =>
      match i.stop with
      | some t =>
        if s.mayRestart parcel i t then
          let own := s.stopCycle ((s.parcel parcel).fields.headD 0) t
          let extra := if t.why.forced then bitsOf s.prt.hold.toNat 0 20 else 0
          let z := own + max lead 1024 + extra
          (s.modInv parcel (fun i => { i with stop := some { t with z := some z } })).emit (.restartCmd parcel z)
        else s
      | none => s
    | none => s)

/-- Has every island of a stopped parcel come to stop cycle Z + 64 (R232)? -/
def State.stopOver (s : State) (p : Nat) (t : Stop) : Bool :=
  match t.z with
  | some z => (s.parcel p).fields.all (fun f => decide (z + 64 ≤ s.stopCycle f t))
  | none => false

/-- STOP_RESUME (R232): At stop cycle Z + 64 the PEG bundle issues and the fabric count resumes, every press at the level it had at the peg
(03 R58). -/
def execStopResume (parcel : Nat) (s : State) : Host.Outcome State Fault Refusal :=
  s.onParcel parcel (fun s =>
    match (s.parcel parcel).inv with
    | some i =>
      match i.stop with
      | some t =>
        if t.reached && s.stopOver parcel t && i.fault.isNone then
          let s := t.levels.foldl (fun s e => s.modBay (bayOfIx (e.1 / 4)) (fun b => b.atLevels (e.1 / 4) [e])) s
          let s := s.modInv parcel (fun i => { i with stop := i.later.head?, later := i.later.drop 1 })
          let s := if t.why.forced then { s with prt := { s.prt with ctrl := s.prt.ctrl ||| 0x20#32 } } else s
          s.setPState parcel .running
        else s
      | none => s
    | none => s)

/-- VINTAGE_VALID (R238): A vintage header becomes valid, becoming the base vintage and emptying the journal. Exports that wait for it
begin (18 R390), and an abort that came during the draw ends the run (R388). -/
def execVintageValid (parcel : Nat) (s : State) : Host.Outcome State Fault Refusal :=
  s.onParcel parcel (fun s =>
    match (s.parcel parcel).inv, (s.parcel parcel).image with
    | some i, some m =>
      match i.stop with
      | some t =>
        if t.reached && t.why.vintage && !t.drawn && i.fault.isNone then
          let (s, _) := s.settleData i
          let s := s.vintageDrawn parcel t { ((s.parcel parcel).inv.getD i) with dfault := none } m
          if i.abortReq then s.endAndPark parcel 0x0607 0 else s.exportsDue parcel
        else s
      | none => s
    | _, _ => s)

/-- A raising-time PARK of fields (16 R336, R337): RAISED fields become PARKED. -/
def State.parkFields (s : State) (mask : BitVec 10) : State :=
  (List.range 10).foldl (fun s f => if mask.getLsbD f && decide ((s.field f).st = .raised) then s.fieldOff f .parked else s) s

/-- PARK (R240): A vintage with PARK is drawn and the parcel's fields park, or RAISE_CMD PARK parks named fields: those of
a write of the principal, accepted before or now (16 R336). -/
def execPark (t : ParkTarget) (s : State) : Host.Outcome State Fault Refusal :=
  match t with
  | .fields mask =>
    let t := s.raiseTake (s.raising.owner.getD 0) 5 mask false
    .next (match t.2 with
      | none => t.1
      | some c => (t.1.parkFields c.fields).raiseIdle)
  | .parcel p => s.onParcel p (fun s =>
      match (s.parcel p).inv with
      | some i =>
        match i.stop with
        | some t =>
          if t.reached && t.why.park && t.drawn && i.fault.isNone && (s.parcel p).exp.isNone then
            (s.modInv p (fun i => { i with parkReq := false, stop := some { t with why := { t.why with park := false } } })).parkNow p ((s.parcel p).parkedBy.getD .trellis)
          else s
        | none => s
      | none => s)

/-- INVOCATION_START (18 R385): The Cellarmaster starts an accepted run at the prologue or at the body's first count, once the awaits
due at PEGNO 1 have landed (22 R467). -/
def execInvocationStart (parcel : Nat) (s : State) : Host.Outcome State Fault Refusal :=
  s.onParcel parcel (fun s =>
    match (s.parcel parcel).inv, (s.parcel parcel).image with
    | some i, some m =>
      let q := s.parcel parcel
      if !i.started && q.firstLanded && decide (q.st = .idle) && q.fields.all (fun f => decide ((s.field f).st = .raised)) then
        s.startInv parcel i m
      else s
    | _, _ => s)

/-- INVOCATION_COMPLETE (18 R387): After END's checks pass, the ledger is written COMPLETE and the label is built. A completion that
finds ABORTED issues no label. -/
def execInvocationComplete (parcel : Nat) (s : State) : Host.Outcome State Fault Refusal :=
  s.onParcel parcel (fun s =>
    match (s.parcel parcel).inv with
    | some i =>
      if i.started && i.endSeen && i.fault.isNone && !i.ofPour then
        let s := s.settleBays parcel
        let (s, _) := s.settleData i
        let s := (s.parcel parcel).casks.foldl (fun s c => s.modCask c (fun k => k.commit none)) s
        match ((s.parcel parcel).inv.getD i).fault with
        | some _ => s
        | none => match i.ledger with
          | .aborted => s.endAndPark parcel 0x0607 0
          | _ => (s.modInv parcel (fun i => { i with ledger := .complete })).endAndPark parcel 0 0
      else s
    | none => s)

/-- ROLLBACK (R227): A parcel that a detected fault stopped is repaired, rewound, restored and resumed at the base vintage's peg. -/
def execRollback (parcel : Nat) (found : PathFinding) (s : State) : Host.Outcome State Fault Refusal :=
  s.onParcel parcel (fun s =>
    match (s.parcel parcel).inv, (s.parcel parcel).image with
    | some i, some m =>
      match i.fault with
      | some r =>
        let stood := (match i.stop with
          | some t => t.reached
          | none => false) || s.allEnded parcel
        if i.started && stood then s.rollback parcel i m r found else s
      | none => s
    | _, _ => s)

/-- Every running parcel is to be rolled back for a fault that names no parcel (15 R319). -/
def State.failAll (s : State) (code unit idx : Nat) : State :=
  (List.range 4).foldl (fun s p => if (s.parcel p).running then
      s.modInv p (fun i => { i with fault := some (i.fault.getD
        { code := code, unit := unit, x := 0, y := 0, idx := idx, peg := (s.parcel p).pegno, seq := s.flog.next - 1, cask := none, stave := none, injected := false }) })
    else s) s

/-- A Cellarmaster pair is retired; a second one ends the service (15 R319). -/
def State.pairFails (s : State) (pair : Nat) : State :=
  if !s.plate.cmstRunning || s.plate.cmstPairs.contains pair then s
  else
    let second := decide (s.plate.cmstPairs ≠ [])
    let s := { s with plate := { s.plate with cmstPairs := s.plate.cmstPairs ++ [pair] } }
    let s := (s.report { code := 0x0501, unit := 0x07, idx := pair, action := 11, detail := [(1, pair)] }).failAll 0x0501 0x07 pair
    if second then
      let s := { s with plate := { s.plate with cmstFailed := true } }
      let s := s.report { code := 0x0502, unit := 0x0B, action := 12 }
      (List.range 4).foldl (fun s p => if (s.parcel p).live && decide ((s.parcel p).st ≠ .parked) then s.askPark p .trellis else s) s
    else s
/-- CMST_LOCKSTEP (15 R319): A Cellarmaster pair disagrees and is retired; a second such failure raises CMST_FAILED. -/
def execCmstLockstep (pair : Nat) (s : State) : Host.Outcome State Fault Refusal :=
  if 4 ≤ pair then .refused .noSuchUnit else .next (s.pairFails pair)

/-- The seal halts (15 R319, 21 R442). -/
def State.sealFails (s : State) : State :=
  if s.sealU.halted || s.plate.plateReset then s else (({ s with sealU := { s.sealU with halted := true } }).report { code := 0x0503, unit := 0x08 }).unsignLabels
/-- SEAL_LOCKSTEP (15 R319): The seal's cores disagree and the seal halts until module reset. -/
def execSealLockstep (s : State) : Host.Outcome State Fault Refusal := .next s.sealFails

/-- ENTROPY_HEALTH_FAIL (21 R442): Three consecutive entropy health failures halt the seal; one discards its sample and restarts the
source. -/
def execEntropyHealthFail (s : State) : Host.Outcome State Fault Refusal :=
  .next (if s.sealU.halted || s.plate.plateReset then s
    else if s.sealU.entropyFails + 1 < 3 then { s with sealU := { s.sealU with entropyFails := s.sealU.entropyFails + 1 } }
    else (({ s with sealU := { s.sealU with entropyFails := s.sealU.entropyFails + 1, halted := true } }).report
      { code := 0x0503, unit := 0x08, detail := [(1, 1)] }).unsignLabels)

end Sys2Proof.Machine
end

