-- ==== Sys2Proof/Machine/CazerFault.lean ====
section
/-! DEFINITION. The sound.* and fault.* messages (15 R322-R325, 18 R394, R395). -/

namespace Sys2Proof.Machine
open Sys2Proof

/-- Does the request keep its reserved values (R394)? -/
def soundWell (f : SoundF) : Bool :=
  decide (1 ≤ f.kind.toNat) && decide (f.kind.toNat ≤ 7) && decide (f.sflag.toNat < 4) &&
    (match f.kind.toNat with
      | 1 => decide (f.c = 0)
      | 3 => decide (f.c = 0)
      | 4 => true
      | _ => decide (f.b = 0) && decide (f.c = 0))
/-- Is the target in the requester's scope (R394)? -/
def State.soundScope (s : State) (rq : Requester) (parcel : Nat) (t : SoundTarget) : Bool :=
  match requesterPort rq with
  | some p => s.isPrincipal p || (match s.targetParcel parcel t with
      | some q => decide ((s.parcel q).owner = p)
      | none => false)
  | none => false
/-- A parcel is drained: raised, idle and not parked (R323). -/
def Parcel.drained (q : Parcel) : Bool := decide (q.st = .idle) && q.inv.isNone && !q.pour.serving
/-- A unit that fails a stress sounding is retired (R323, R316-R320). -/
def State.stressFails (s : State) (unit : Nat) (found : SoundFinding) : State :=
  match unit with
  | 1 => (found.wires.filter (fun n => decide (n < 13))).foldl (fun s n => if (s.seam n).retired then s else s.retireSeam n) s
  | 2 => (found.staves.filter (fun c => decide (c < 20))).foldl (fun s c => (s.caskFaulted c).1) s
  | 3 => (found.staves.filter (fun c => decide (c < 4))).foldl (fun s k => s.pairFails k) s
  | 4 => s.sealFails
  | 5 => s.trellisFails
  | _ => s
/-- Is a stress sounding's condition met (R323)? Plate units need every parcel drained. -/
def State.stressReady (s : State) (parcel unit : Nat) : Bool :=
  if unit < 3 then decide (parcel < 4) && (s.parcel parcel).drained
  else (List.range 4).all (fun p => !(s.parcel p).live || (s.parcel p).drained)
/-- DESTRUCTIVE needs the cask's field to be outside every parcel (R322). -/
def State.destructiveOk (s : State) (f : SoundF) : SoundTarget → Bool
  | .cask c => !f.sflag.getLsbD 1 || (s.parcelOfCask c).isNone
  | _ => true
/-- Does another sounding hold the target? -/
def State.soundHeld (s : State) (t : SoundTarget) : Bool :=
  s.waits.any (fun w => match w.what with
    | .sound f _ => decide (s.soundTarget w.parcel f = some t)
    | _ => false)
def miSoundRun (parcel : Nat) : MsgInfo := { code := 0x0901, scope := .any, parcel := decide (parcel ≠ 0xFF) }
def hSoundRun (rq : Requester) (parcel : Nat) (f : SoundF) (found : SoundFinding) : Handler := fun s =>
  if !soundWell f then refuses s eMalformed
  else match s.soundTarget parcel f with
    | none => refuses s 0x0901
    | some t =>
      if !s.soundScope rq parcel t then refuses s 0x0901
      else if s.soundHeld t then refuses s 0x0903
      else
        let n := s.flog.next
        match t with
        | .stress u =>
          if !s.stressReady parcel u then refuses s 0x0902
          else
            let s := if f.pass then s else s.stressFails u found
            replies s (soundAns f.pass n s.flog.next)
        | _ =>
          if !s.destructiveOk f t then refuses s 0x0902
          else if (s.targetParcel parcel t).any (fun p => (s.parcel p).running) then (s.await rq 0x0901 parcel (.sound f found), none)
          else
            let s := s.soundRun f found t
            replies s (soundAns f.pass n s.flog.next)
/-- SOUND_RUN (R322): Runs one sounding or stress sounding and answers when it ends. On a running parcel it waits until the invocation
ends. -/
def execSoundRun (rq : Requester) (parcel : Nat) (f : SoundF) (found : SoundFinding) (s : State) : Host.Outcome State Fault Refusal :=
  s.request rq (miSoundRun parcel) parcel (hSoundRun rq parcel f found) (.soundRun rq parcel f found)

/-- An entry in 64 bytes (15 R325). -/
def LogEnt.bytes (e : LogEnt) : Bytes :=
  natLe 8 e.seq ++ natLe 8 e.wall ++ natLe 8 e.count ++ natLe 4 e.pegno ++ natLe 2 e.code ++ natLe 1 e.parcel ++ natLe 1 e.eflag ++ natLe 1 e.unit ++
    natLe 1 e.x ++ natLe 1 e.y ++ natLe 1 e.idx ++ natLe 2 e.action ++ zeroBytes 2 ++ natLe 4 e.suspectFrom ++
    (e.detail.flatMap (fun d => natLe d.1 d.2) ++ zeroBytes 20).take 20
/-- Does a requester see an entry (R395)? -/
def State.seesEntry (s : State) (rq : Requester) (e : LogEnt) : Bool :=
  match requesterPort rq with
  | none => true
  | some p => s.isPrincipal p || decide (4 ≤ e.parcel) || ((s.parcel e.parcel).live && decide ((s.parcel e.parcel).owner = p))
def miFaultLog : MsgInfo := { code := 0x0A01, scope := .any, side := true, parcel := false, cut := true }
def logHead (next lost n : Nat) : Bytes := natLe 8 next ++ natLe 8 lost ++ natLe 4 n ++ zeroBytes 12
def hFaultLog (rq : Requester) (fromSeq max_ : Nat) (cut : Option CutEntry) : Handler := fun s =>
  if max_ = 0 ∨ (if cut.isSome then 65536 else 62) < max_ then refuses s eMalformed
  else
    let room := match cut with
      | some e => min max_ (e.len / 64)
      | none => max_
    let es := ((s.flog.ring.filter (fun e => decide (fromSeq ≤ e.seq) && s.seesEntry rq e))).take room
    let next := match es.getLast? with
      | some e => e.seq + 1
      | none => max fromSeq s.flog.next
    let head := logHead next s.flog.lost.word es.length
    let body := es.flatMap (fun e => e.bytes)
    match cut with
    | none => replies s { status := 0, payload := head ++ body }
    | some e =>
      let r := s.streamOut ((requesterPort rq).getD 0) [e] body
      replies r.s (r.ans head)
/-- FAULT_LOG (R395): Returns fault-log entries from a sequence number. -/
def execFaultLog (rq : Requester) (fromSeq max_ : Nat) (cut : Option CutEntry) (s : State) : Host.Outcome State Fault Refusal :=
  s.request rq miFaultLog 0xFF (hFaultLog rq fromSeq max_ cut) (.faultLog rq fromSeq max_ cut)

def miFaultSummary : MsgInfo := { code := 0x0A02, scope := .any, parcel := false }
def SumRec.bytes (r : SumRec) : Bytes :=
  natLe 2 r.code ++ natLe 1 r.unit ++ natLe 1 r.x ++ natLe 1 r.y ++ natLe 1 r.idx ++ zeroBytes 2 ++ natLe 8 r.count ++ natLe 8 r.first ++ natLe 8 r.last
/-- As many records as an answer's payload holds: 125. -/
def hFaultSummary : Handler := fun s =>
  let rs := s.flog.recs.take 125
  replies s { status := 0, payload := natLe 4 rs.length ++ zeroBytes 4 ++ rs.flatMap (fun r => r.bytes) }
/-- FAULT_SUMMARY (R395): Returns the fault-log summary records. -/
def execFaultSummary (rq : Requester) (s : State) : Host.Outcome State Fault Refusal := s.request rq miFaultSummary 0xFF hFaultSummary (.faultSummary rq)

def miLogClear : MsgInfo := { code := 0x0A03, scope := .principal, parcel := false }
def hLogClear (cflag : Word) : Handler := fun s =>
  if 2 ≤ cflag.toNat then refuses s eMalformed
  else replies { s with flog := { s.flog with ring := [], esc := if cflag.getLsbD 0 then Esc.init else s.flog.esc } } Ans.ok
/-- FAULT_LOG_CLEAR (R324): Empties the ring and optionally the escalation state. -/
def execFaultLogClear (rq : Requester) (cflag : Word) (s : State) : Host.Outcome State Fault Refusal := s.request rq miLogClear 0xFF (hLogClear cflag) (.faultLogClear rq cflag)

def counterList (m : Sparse EvCnt) (n : Nat) : Bytes := (List.range n).flatMap (fun i => natLe 8 (Sparse.get EvCnt.init m i).word)
/-- The counters of a unit of the parcel (R395): bay (R101, R129, R172), hub (R172), cask (R201, R222), field (R263), and the module, whose
plate keeps those of R172 and R263. None: no such unit. -/
def State.unitCounters (s : State) (p unit x y idx : Nat) : Option Bytes :=
  let q := s.parcel p
  match unit with
  | 0x01 => let b : BayId := { x := x, y := y }
            if b.ok ∧ q.holds (fieldOf b) then some (counterList (s.bay b).counters 9) else none
  | 0x04 => if x < 10 ∧ q.holds x then some (counterList (s.field x).hubCnt 4) else none
  | 0x05 => if q.casks.contains idx then some (s.cask idx).counterBytes else none
  | 0x0A => if x < 10 ∧ q.holds x then some (counterList (s.field x).cnt 5) else none
  | 0x0B => some (counterList s.plate.hubCnt 4 ++ counterList s.plate.refCnt 6)
  | _ => none
/-- A value of UNIT that R325 reserves makes the request malformed (00 R6). -/
def miFaultCounters : MsgInfo := { code := 0x0A04, scope := .ownerOrPrincipal }
def hFaultCounters (p unit x y idx : Nat) : Handler := fun s =>
  match s.unitCounters p unit x y idx with
  | some bs => replies s { status := 0, payload := bs }
  | none => refuses s (if 1 ≤ unit ∧ unit ≤ 0x0B then 0x0A01 else eMalformed)
/-- FAULT_COUNTERS (R395): Returns a unit's event counters. -/
def execFaultCounters (rq : Requester) (parcel : Nat) (unit : BitVec 8) (x y idx : Nat) (s : State) : Host.Outcome State Fault Refusal :=
  s.request rq miFaultCounters parcel (hFaultCounters parcel unit.toNat x y idx) (.faultCounters rq parcel unit x y idx)

end Sys2Proof.Machine
end

