-- ==== Sys2Proof/Machine/CazerPower.lean ====
section
/-! DEFINITION. The power.* messages (14 R285-R295, R302, 18 R393). -/

namespace Sys2Proof.Machine
open Sys2Proof

/-- A cap is 0 or 900 W up to the licence's highest running cap (R285). -/
def State.capOk (s : State) (w : Nat) : Bool := decide (w = 0) || (decide (900 ≤ w) && decide (w ≤ s.licPower))

def miCapSet : MsgInfo := { code := 0x0801, scope := .principal, parcel := false }
/-- CLEAR_LEASE clears a lease cap that stands after expiry (R286). -/
def Trellis.setCap (x : Trellis) (w : Nat) (clear : Bool) : Trellis :=
  { x with hostCap := some w, leaseCap := if clear ∧ x.lease.isNone then none else x.leaseCap }
def hCapSet (w : Nat) (pflag : Word) : Handler := fun s =>
  if 2 ≤ pflag.toNat then refuses s eMalformed
  else if !s.capOk w then refuses s 0x0801
  else
    let s := s.modTrellis (fun x => x.setCap w (pflag.getLsbD 0))
    replies s { status := 0, payload := natLe 4 s.effCap }
/-- POWER_CAP_SET (R285): Sets the host cap and optionally clears an expired lease cap. -/
def execPowerCapSet (rq : Requester) (capW : Nat) (pflag : Word) (s : State) : Host.Outcome State Fault Refusal :=
  s.request rq miCapSet 0xFF (hCapSet capW pflag) (.powerCapSet rq capW pflag)

def miShareSet : MsgInfo := { code := 0x0802, scope := .principal }
def hShareSet (p weight floor : Nat) : Handler := fun s =>
  if weight = 0 ∨ 255 < weight ∨ 5000 < floor then refuses s 0x0801 else replies (s.modTr p (fun x => { x with weight := weight, floor := floor })) Ans.ok
/-- POWER_SHARE_SET (R287): Sets a parcel's power weight and floor. -/
def execPowerShareSet (rq : Requester) (parcel weight floorW : Nat) (s : State) : Host.Outcome State Fault Refusal :=
  s.request rq miShareSet parcel (hShareSet parcel weight floorW) (.powerShareSet rq parcel weight floorW)

/-- Is a sideband requester the endpoint that power.sideband.set named (R393)? -/
def State.leaseHolder (s : State) : Requester → Bool
  | .sideband eid _ => decide (s.trellis.sideEid ≠ 0) && decide (s.trellis.sideEid = eid)
  | _ => false
def miLeaseSet : MsgInfo := { code := 0x0803, scope := .any, side := true, sideOnly := true, parcel := false }
def hLeaseSet (rq : Requester) (cap dur expiry : Nat) : Handler := fun s =>
  if !s.leaseHolder rq then refuses s 0x0804
  else if !s.capOk cap || decide (dur = 0) || decide (86400 < dur) || !s.capOk expiry then refuses s 0x0801
  else replies (s.modTrellis (fun x => { x with lease := some (cap, s.tNs + dur * 1000000000, expiry), leaseCap := some cap })) Ans.ok
/-- POWER_LEASE_SET (R286): Sets a lease cap with duration and expiry cap over the sideband. A new lease replaces the old one at once. -/
def execPowerLeaseSet (rq : Requester) (capW durationS expiryCapW : Nat) (s : State) : Host.Outcome State Fault Refusal :=
  s.request rq miLeaseSet 0xFF (hLeaseSet rq capW durationS expiryCapW) (.powerLeaseSet rq capW durationS expiryCapW)

/-- The resume step of a parcel, in milliwatts (R290): its forecast at 0.6 GHz, with the shim budget at 1/16 (R292), less raised and idle. -/
def State.resumeStep (s : State) (q : Parcel) : Nat := s.parcelMw q 0x18 1 - idleFieldMw * (q.w * q.h)
/-- T_min in nanoseconds (R290), rounded up. -/
def State.tMin (s : State) (target rate : Nat) : Nat :=
  let p0 := s.trellis.windowPower
  if target ≤ p0 then (if 1500 ≤ target then 5000000 else 50000000)
  else (if s.trellisParked = [] then 5000000 else 250000000) + ((target - p0) * 1000000 + rate - 1) / rate + 20000000
/-- Why a contract is refused (R290, R393); 0 when it is accepted. -/
def State.contractRefusal (s : State) (target rate deadline : Nat) : Nat :=
  if !s.capOk target || decide (rate < 10) || decide (5000 < rate) then 0x0801
  else if deadline < s.plate.wall.toNat + s.tMin target rate then 0x0802
  else if s.trellis.windowPower < target ∧ (s.trellisParked.any (fun p => decide (20000 * rate < s.resumeStep (s.parcel p)))) then 0x0803
  else 0
/-- A contract takes effect; the issuer's old one is WITHDRAWN (R292). -/
def State.newContract (s : State) (lessee : Bool) (target rate deadline : Nat) : State :=
  let p0 := s.trellis.windowPower
  let c : Contract :=
    { target := target, rateUp := rate, deadline := deadline, p0 := p0, arrived := s.plate.wall.toNat, state := 1, reason := 0, lessee := lessee
      level := if p0 < target then min target (p0 + 20 * rate) else target, win := 0, sum := 0, cnt := 0, seen := [] }
  s.modTrellis (fun x => if lessee then { x with contractL := some c, latest := some c } else { x with contractP := some c, latest := some c })
def miContractSet : MsgInfo := { code := 0x0804, scope := .principal, side := true, parcel := false }
def hContractSet (rq : Requester) (target rate deadline : Nat) : Handler := fun s =>
  let side := isSideband rq
  if side && !s.leaseHolder rq then refuses s 0x0804
  else
    let why := s.contractRefusal target rate deadline
    if why ≠ 0 then refuses s why
    else
      let t := s.tMin target rate
      replies (s.newContract side target rate deadline) { status := 0, payload := natLe 8 t }
/-- POWER_CONTRACT_SET (R290): Accepts or rejects a ramp contract. -/
def execPowerContractSet (rq : Requester) (targetW rateUp deadlineNs : Nat) (s : State) : Host.Outcome State Fault Refusal :=
  s.request rq miContractSet 0xFF (hContractSet rq targetW rateUp deadlineNs) (.powerContractSet rq targetW rateUp deadlineNs)

def miForecast : MsgInfo := { code := 0x0805, scope := .any, side := true, parcel := false }
def Trellis.forecastBytes (x : Trellis) : Bytes :=
  natLe 8 x.binsNs ++ (List.range 10).flatMap (fun k => let b := x.bins.getD k (0, 0); natLe 2 (w16 b.1) ++ natLe 2 (w16 b.2))
def hForecast : Handler := fun s => replies s { status := 0, payload := s.trellis.forecastBytes }
/-- POWER_FORECAST (R295): Returns the forecast in 10 bins. -/
def execPowerForecast (rq : Requester) (s : State) : Host.Outcome State Fault Refusal := s.request rq miForecast 0xFF hForecast (.powerForecast rq)

def miPowerStatus : MsgInfo := { code := 0x0806, scope := .any, side := true, parcel := false }
/-- The words at offsets 0x000 to 0x048 (R302). -/
def State.telBytes (s : State) : Bytes :=
  (List.range 19).flatMap (fun k => natLe 4 (if k = 5 then s.energyMj / 2 ^ 32 else (s.readTel 0 (4 * k)).toNat))
def hPowerStatus : Handler := fun s => replies s { status := 0, payload := s.telBytes }
/-- POWER_STATUS (R393): Returns the telemetry mirror words. -/
def execPowerStatus (rq : Requester) (s : State) : Host.Outcome State Fault Refusal := s.request rq miPowerStatus 0xFF hPowerStatus (.powerStatus rq)

def miSidebandSet : MsgInfo := { code := 0x0807, scope := .principal, parcel := false }
def hSidebandSet (eid : Nat) : Handler := fun s =>
  if 256 ≤ eid then refuses s eMalformed else replies (s.modTrellis (fun x => { x with sideEid := eid })) Ans.ok
/-- POWER_SIDEBAND_SET (R393): Names the MCTP endpoint allowed to set leases and contracts. -/
def execPowerSidebandSet (rq : Requester) (eid : Nat) (s : State) : Host.Outcome State Fault Refusal :=
  s.request rq miSidebandSet 0xFF (hSidebandSet eid) (.powerSidebandSet rq eid)

end Sys2Proof.Machine
end

