-- ==== Sys2Proof/Machine/CazerRun.lean ====
section
/-! DEFINITION. The run.* and vintage.* messages (11 R237-R241, 18 R384-R392). -/

namespace Sys2Proof.Machine
open Sys2Proof

def miRunStart : MsgInfo := { code := 0x0601, scope := .owner }
/-- Why a start is refused (R385, R389); 0 when it is accepted. -/
def Parcel.startRefusal (q : Parcel) (digest : BitVec 384) : Nat :=
  match q.image with
  | none => 0x0602
  | some m =>
    if m.digest ≠ digest then 0x0603
    else if q.busy || q.pour.serving then 0x0601
    else if q.st = .parked ∧ q.parkedBy = some .host then 0x0604
    else 0
def hRunStart (rq : Requester) (p : Nat) (key : BitVec 128) (digest : BitVec 384) : Handler := fun s =>
  let q := s.parcel p
  let why := q.startRefusal digest
  if why ≠ 0 then refuses s why
  else
    let waits := decide (q.st = .parked)
    let s := s.modParcel p (fun q => { q with serial := q.serial + 1, inv := some (Inv.new q.serial key waits) })
    if waits then replies s { status := 0, payload := natLe 8 q.serial ++ natLe 8 1 } else (s.await rq 0x0601 p (.runStart q.serial), none)
/-- RUN_START (R385): Starts an invocation with a run key and takes the next serial. The answer comes at the first count, or at once with
WAITING 1 while the trellis has the parcel parked. -/
def execRunStart (rq : Requester) (parcel : Nat) (runKey : BitVec 128) (imageDigest : BitVec 384) (s : State) : Host.Outcome State Fault Refusal :=
  s.request rq miRunStart parcel (hRunStart rq parcel runKey imageDigest) (.runStart rq parcel runKey imageDigest)

/-- Does a running invocation stand where an abort ends it at once: held or stopped with no draw in progress (R388)? -/
def Inv.atRest (i : Inv) : Bool := !i.started || (match i.stop with
  | some t => t.reached && (!t.why.vintage || t.drawn) && i.fault.isNone
  | none => false)
def miRunAbort : MsgInfo := { code := 0x0602, scope := .owner }
def hRunAbort (p serial : Nat) : Handler := fun s =>
  match (s.parcel p).inv with
  | some i =>
    if i.serial = serial ∧ !i.ofPour then
      let s := s.modInv p (fun i => { i with ledger := .aborted, abortReq := true })
      replies (if i.atRest then s.endAndPark p 0x0607 0 else s) Ans.ok
    else match (s.parcel p).records.find? (fun r => r.serial = serial) with
      | some r => if r.status = 0x0607 then replies s Ans.ok else refuses s 0x0606
      | none => refuses s 0x0605
  | none => match (s.parcel p).records.find? (fun r => r.serial = serial) with
    | some r => if r.status = 0x0607 then replies s Ans.ok else refuses s 0x0606
    | none => refuses s 0x0605
/-- RUN_ABORT (R388): Aborts an invocation if it wins the ledger and stops the parcel. -/
def execRunAbort (rq : Requester) (parcel serial : Nat) (s : State) : Host.Outcome State Fault Refusal :=
  s.request rq miRunAbort parcel (hRunAbort parcel serial) (.runAbort rq parcel serial)

/-- The completion record (R386). -/
def Completion.bytes (r : Completion) : Bytes :=
  natLe 8 r.serial ++ natLe 2 r.status ++ natLe 2 r.faultCode ++ natLe 1 r.labelState ++ zeroBytes 3 ++ natLe 4 r.flags ++ natLe 4 r.pegno ++
    natLe 8 r.fabricCount ++ natLe 8 r.prologueCount ++ natLe 8 r.holdCount ++ natLe 8 r.startNs ++ natLe 8 r.endNs ++ natLe 4 r.rollbacks ++ zeroBytes 60 ++
    (r.label ++ zeroBytes 464).take 464
def miRunResult : MsgInfo := { code := 0x0603, scope := .owner }
/-- A record is available once its label is signed (21 R457). -/
def hRunResult (p serial : Nat) : Handler := fun s =>
  match (s.parcel p).records.find? (fun r => decide (r.serial = serial) && r.signed) with
  | some r => replies s { status := 0, payload := r.bytes }
  | none => refuses s 0x0605
/-- RUN_RESULT (R386): Returns an invocation's completion record. -/
def execRunResult (rq : Requester) (parcel serial : Nat) (s : State) : Host.Outcome State Fault Refusal :=
  s.request rq miRunResult parcel (hRunResult parcel serial) (.runResult rq parcel serial)

def miVintageDraw : MsgInfo := { code := 0x0701, scope := .owner }
def hVintageDraw (rq : Requester) (p : Nat) : Handler := fun s =>
  if (s.parcel p).running then ((s.await rq 0x0701 p (.vintage none)).modInv p (fun i => { i with vintageReq := true }), none) else refuses s 0x0708
/-- VINTAGE_DRAW_REQUEST (R390): vintage.draw requests a vintage at the first decidable peg. -/
def execVintageDrawRequest (rq : Requester) (parcel : Nat) (s : State) : Host.Outcome State Fault Refusal :=
  s.request rq miVintageDraw parcel (hVintageDraw rq parcel) (.vintageDrawRequest rq parcel)

/-- An export over a tap stream (19 R417): the stream that lends its peer and keys, or the status that refuses it. -/
def State.exportStream (s : State) (p stream : Nat) : Nat :=
  match (s.parcel p).racks.find? (fun e => e.1 = stream) with
  | none => 0x0501
  | some r => match tapOf r.2.f.tap with
    | none => 0x0502
    | some (t, u) => if (Sparse.get SubLink.init (s.tap t).subs u).link then 0 else 0x0502
def State.openExport (s : State) (rq : Requester) (p stream : Nat) (park : Bool) (bytes : Bytes) : State :=
  let f := s.fresh
  match (s.parcel p).racks.find? (fun e => e.1 = stream) with
  | none => s
  | some r => f.2.modParcel p (fun q =>
      { q with exp := some { stream := stream, f := r.2.f, session := BitVec.ofNat 64 f.1, bytes := bytes, offers := 0, started := false, credit := 0,
                             requested := [], rq := rq, park := park } })
def miVintageExport : MsgInfo := { code := 0x0702, scope := .owner, cut := true }
def hVintageExport (rq : Requester) (p : Nat) (vflag : BitVec 8) (stream : Nat) (cut : List CutEntry) : Handler := fun s =>
  let park := vflag.getLsbD 0
  let tap := vflag.getLsbD 1
  let bad := if tap then s.exportStream p stream else 0
  if 4 ≤ vflag.toNat ∨ (tap ∧ cut ≠ []) then refuses s eMalformed
  else if !tap ∧ !isSideband rq ∧ (cut = [] ∨ 4096 < cut.length) then refuses s 0x0E04
  else if bad ≠ 0 then refuses s bad
  else if tap ∧ (s.parcel p).exp.isSome then refuses s 0x0706
  else if (s.parcel p).running ∧ (s.parcel p).st ≠ .parked then
    let s := s.modInv p (fun i => { i with vintageReq := true, parkReq := i.parkReq || park })
    let s := if park then (s.modParcel p (fun q => { q with parkedBy := some .host })).setPState p .parking else s
    let s := if tap then s.openExport rq p stream park [] else s
    (s.await rq 0x0702 p (.exportEnd cut park), none)
  else match (s.parcel p).newest with
    | none => refuses s 0x0707
    | some v =>
      let bs := s.exportBytes p v
      if tap then ((s.openExport rq p stream park bs).await rq 0x0702 p (.exportEnd [] park), none)
      else
        let r := s.exportCut (some rq) cut bs
        replies r.1 r.2
/-- VINTAGE_EXPORT (R391): Exports a vintage and the parcel's regions to a host or a tap stream. A running parcel stops for it; a parked one
exports its park vintage; an idle one its newest valid slot. -/
def execVintageExport (rq : Requester) (parcel : Nat) (vflag : BitVec 8) (stream : Nat) (cut : List CutEntry) (s : State) :
    Host.Outcome State Fault Refusal :=
  s.request rq miVintageExport parcel (hVintageExport rq parcel vflag stream cut) (.vintageExport rq parcel vflag stream cut)

def miVintageRestore : MsgInfo := { code := 0x0703, scope := .owner, cut := true }
def hVintageRestore (p : Nat) (stream : Bytes) : Handler := fun s =>
  let q := s.parcel p
  if q.busy || q.pour.serving then refuses s 0x0706
  else if q.st ≠ .idle then refuses s 0x0202
  else
    let why := s.importRefusal p stream
    if why ≠ 0 then refuses s why
    else match q.image, s.importOf p stream with
      | some m, some i => replies (s.importRun p m i) { status := 0, payload := natLe 8 q.serial }
      | _, _ => refuses s 0x0705
/-- VINTAGE_RESTORE (R241): Checks and restores an exported vintage onto the parcel and resumes it. stream is what the SEG_IN entries of
the cut list carry. -/
def execVintageRestore (rq : Requester) (parcel : Nat) (stream : Bytes) (s : State) : Host.Outcome State Fault Refusal :=
  s.request rq miVintageRestore parcel (hVintageRestore parcel stream) (.vintageRestore rq parcel stream)

/-- One slot of vintage.status. -/
def Vintage.statusBytes (v : Vintage) : Bytes :=
  natLe 1 (b1 v.valid) ++ natLe 1 ((if v.auto then 1 else 0) + (if v.park then 2 else 0)) ++ zeroBytes 2 ++ natLe 4 v.pegno ++ natLe 8 v.generation ++ natLe 8 v.count
def miVintageStatus : MsgInfo := { code := 0x0704, scope := .owner }
def hVintageStatus (p : Nat) : Handler := fun s =>
  replies s { status := 0, payload := ((s.parcel p).vint.getD 0 Vintage.none).statusBytes ++ ((s.parcel p).vint.getD 1 Vintage.none).statusBytes }
/-- VINTAGE_STATUS (R390): Returns the state of both vintage slots. -/
def execVintageStatus (rq : Requester) (parcel : Nat) (s : State) : Host.Outcome State Fault Refusal :=
  s.request rq miVintageStatus parcel (hVintageStatus parcel) (.vintageStatus rq parcel)

end Sys2Proof.Machine
end

