-- ==== Sys2Proof/Machine/Clocks.lean ====
section
/-! DEFINITION. Clocks, islands and crossings (12): clock commands, switches, stretches, alignment, overruns, references, PTM. -/

namespace Sys2Proof.Machine
open Sys2Proof

/-- A command that names a field, or a seam, that the die does not have is refused. -/
def State.onField (s : State) (f : Nat) (g : State → State) : Host.Outcome State Fault Refusal :=
  if f < 10 then .next (g s) else .refused .noSuchUnit
def State.onSeam (s : State) (n : Nat) (g : State → State) : Host.Outcome State Fault Refusal :=
  if n < 13 then .next (g s) else .refused .noSuchUnit

/-- SWITCH (R260): A clock command orders an island to change frequency at a named count. -/
def execSwitch (field : Nat) (c : ClockCmd) (s : State) : Host.Outcome State Fault Refusal :=
  s.onField field (fun s => s.clockSwitch field c)

/-- CANCEL (R260): A clock command withdraws the SWITCH at the same count. -/
def execCancel (field : Nat) (c : ClockCmd) (s : State) : Host.Outcome State Fault Refusal :=
  s.onField field (fun s => s.clockCancel field c)

/-- ALIGN (R256): A clock command aligns a SEAM group at a named FREF epoch. -/
def execAlign (seam epoch : Nat) (s : State) : Host.Outcome State Fault Refusal :=
  s.onSeam seam (fun s => s.clockAlign seam epoch)

/-- EPOCH_LOAD (R247): A clock command sets an island's FREF epoch at the next SYNC strobe. -/
def execEpochLoad (field epoch : Nat) (s : State) : Host.Outcome State Fault Refusal :=
  s.onField field (fun s => s.clockEpoch field epoch)

/-- A field that fails an alignment in raising becomes FAILED, or PARKED on the fast path, with E_RAISE_ALIGN (16 R338, R344, R346). -/
def State.alignFails (s : State) (f : Nat) : State :=
  match (s.field f).st with
  | .raising => (s.fieldOff f .failed).modField f (fun x => { x with step := 5, code := 0x0F12, failRaise := true, calib := false })
  | .unparking => (s.fieldOff f .parked).modField f (fun x => { x with step := 5, code := 0x0F12 })
  | _ => s

/-- One more alignment attempt at both islands of a seam (R263). -/
def State.alignRetry (s : State) (n k : Nat) : State :=
  [(seamEnds n).1, (seamEnds n).2].foldl (fun s f => s.modField f (fun y => { y with cnt := bump y.cnt 4 k })) s

/-- ALIGN_CHECK (R256): At epoch E + 48 the monitors check the observed separations and retry or fail the alignment. sigmas is what the
readers recorded, by 2 × line, + 1 toward the lower field; 6 where it says nothing. -/
def execAlignCheck (seam : Nat) (sigmas : List Int) (s : State) : Host.Outcome State Fault Refusal :=
  s.onSeam seam (fun s =>
    let x := s.seam seam
    let e := seamEnds seam
    match x.alignAt with
    | some v =>
      if !x.released || decide (s.plate.master < v + 48) then s
      else if sigmasOk (sigmas.take 24) then s.modSeam seam (fun x => x.checked (sigmas.take 24))
      else
        let s := s.modSeam seam (fun x => { x.reset with tries := x.tries + 1 })
        if x.tries < 3 then s.alignRetry seam 1
        else [e.1, e.2].foldl (fun s f => s.alignFails f) (s.modSeam seam (fun x => { x with tries := 0 }))
    | none => s)

/-- The islands of the parcel that holds a field; a field in no parcel is alone. -/
def State.together (s : State) (f : Nat) : List Nat := match s.parcelOfField f with
  | some p => (s.parcel p).fields
  | none => [f]

/-- SWITCH_UNLOCKED (R261): At N - 2,048 an island whose standby PLL is unlocked reports, and the plate broadcasts CANCEL for N. -/
def execSwitchUnlocked (field : Nat) (s : State) : Host.Outcome State Fault Refusal :=
  s.onField field (fun s =>
    match (s.field field).island.switch with
    | some c =>
      if !s.clockReached field c (-2048) then s
      else
      let s := s.modField field (fun x => { x with island := { x.island with locked := false, unlocked := true } })
      let s := s.report { code := 0x0802, parcel := s.parcelOfField field, count := c.count, unit := 0x0A, x := field, detail := [(1, field), (8, c.count)] }
      (s.together field).foldl (fun s f => s.clockCancel f c) s
    | none => s)

/-- Has the island reached the count of its SWITCH? An island of a parcel that runs nothing switches at once. -/
def State.switchDue (s : State) (f : Nat) (c : ClockCmd) : Bool := s.clockReached f c 0

/-- SWITCH_AT_COUNT (R261): At count N the island starts its cycle on the standby PLL, which becomes the live one. An island whose
standby PLL is not locked does not switch. -/
def execSwitchAtCount (field : Nat) (s : State) : Host.Outcome State Fault Refusal :=
  s.onField field (fun s =>
    let x := s.field field
    match x.island.switch with
    | some c =>
      if s.switchDue field c && x.island.locked then
        let s := if c.stop then s.stopRebase field else s
        s.setField field { x with island := { x.island with live := c.fcode, standby := x.island.live, switch := none, switchedDue := some c }, cnt := bump x.cnt 2 1 }
      else s
    | none => s)

/-- SWITCHED (R261): At N + 1,024 an island reports the switch in the TELE class and releases its old PLL. For a decrease the trellis lowers
VFAB once every island of the parcel has reported (14 R284); while one of them still runs at another frequency, after a late command,
VFAB stays at the higher level of the two (R262). -/
def execSwitched (field : Nat) (s : State) : Host.Outcome State Fault Refusal :=
  s.onField field (fun s =>
    match (s.field field).island.switchedDue with
    | some c =>
      if s.clockReached field c 1024 || (c.stop && (s.fieldStop field).isNone) then
        let s := (s.modField field (fun x => { x with island := { x.island with switchedDue := none, locked := false } })).emit (.switched field)
        let fs := s.together field
        if fs.all (fun f => (s.field f).island.switchedDue.isNone && (s.field f).island.switch.isNone) then s.settleVolts fs else s
      else s
    | none => s)

/-- One stretched cycle of an island (R259): ST counts it, its counter counts it. -/
def State.stretch (s : State) (f i : Nat) : State :=
  (s.modField f (fun x => { x with island := { x.island with st := x.island.st + 1#4 }, cnt := bump x.cnt i 1 })).emit (.stretch f)

/-- Does the island hold its own stretches off: counts N - 32 to N - 1 of a SWITCH (R261 step 3)? -/
def State.stretchHeld (s : State) (f : Nat) : Bool :=
  match (s.field f).island.switch with
  | some c =>
    (c.stop || s.fieldRuns f) && s.clockReached f c (-32)
  | none => false

/-- STRETCH_LOCAL (R258): An island stretches its next cycle at its droop detectors' request. -/
def execStretchLocal (field : Nat) (s : State) : Host.Outcome State Fault Refusal :=
  s.onField field (fun s => if (s.field field).supply.vfab && !s.stretchHeld field then s.stretch field 0 else s)

/-- Is a neighbour's ST ahead of the field's own, modulo 16, over a seam whose wires are out of reset (R254, R259)? -/
def State.waveAhead (s : State) (f : Nat) : Bool :=
  (seamsOf f).any (fun n => (s.seam n.1).released && (s.field n.2).supply.vfab &&
    decide (0 < ((s.field n.2).island.st - (s.field f).island.st).toInt))

/-- STRETCH_WAVE (R259): An island stretches a cycle to follow a neighbour's ST that is ahead of its own. -/
def execStretchWave (field : Nat) (s : State) : Host.Outcome State Fault Refusal :=
  s.onField field (fun s => if (s.field field).supply.vfab && s.waveAhead field then s.stretch field 1 else s)

/-- CROSSING_OVERRUN (R257): A reader's monitor finds |sigma - sigma0| above 4 and sets OVERRUN. It is sticky until realignment. -/
def execCrossingOverrun (link : ScarfLink) (sigma : Int) (s : State) : Host.Outcome State Fault Refusal :=
  if link.line < 12 then
    s.onSeam link.seam (fun s =>
      let x := s.seam link.seam
      let f := (seamEnds link.seam).1
      let s0 := Sparse.get 6 x.sigma0 (linkReader link)
      if x.released && decide (4 < (sigma - s0).natAbs) && !x.overrun.contains link then
        let c := (s.islandCount f).toNat
        (s.modSeam link.seam (fun x => { x with overrun := x.overrun ++ [link] })).report
          { code := 0x0308, parcel := s.parcelOfField f, count := c, unit := 0x03, x := link.seam, idx := link.line
            detail := [(1, link.seam), (1, link.line), (1, if link.up then 0 else 1), (4, (BitVec.ofInt 32 sigma).toNat), (4, (BitVec.ofInt 32 s0).toNat), (8, c)] }
      else s)
  else .refused .noSuchUnit

/-- REF_LOSS as an event (R248, 17 R361): the log and cause 0x6 on every port. -/
def State.refEvent (s : State) (r : Nat) : State := (s.report { code := 0x0801, unit := 0x0B, detail := [(1, r)] }).eventAll 6

/-- The loss of a port's PCIe reference takes its link down and touches nothing else (R249). -/
def State.portRefLost (s : State) (p : Nat) : State :=
  let s := { s with plate := { s.plate with refCnt := bump s.plate.refCnt (2 + p) 1 } }
  (s.portDown p).modPort p (fun q => { q with refLost := true })

/-- The reference PLL leaves holdover only when no parcel runs (R248). -/
def State.relock (s : State) : State :=
  if s.plate.holdover && !s.plate.ref25Lost && (List.range 4).all (fun p => !(s.parcel p).running) then
    { s with plate := { s.plate with holdover := false } }
  else s

/-- A port number the module does not have is refused. -/
def State.onPort (s : State) (p : Nat) (g : State → State) : Host.Outcome State Fault Refusal :=
  if p < 4 then .next (g s) else .refused .noSuchUnit
/-- A write of a port to BAR0 has its effect, or waits behind one that waits for posted-write credits (17 R355). -/
def State.barWrite (s : State) (p : Nat) (i : Instr) (g : State → State) : Host.Outcome State Fault Refusal :=
  s.onPort p (fun s => if s.writeHeld p then s.holdWrite p i else g s)

/-- REF_LOSS (R248): A reference is declared lost; REF25 loss enters holdover and asks to park running parcels. -/
def execRefLoss (r : Ref) (s : State) : Host.Outcome State Fault Refusal :=
  match r with
  | .ref25 =>
    .next (if s.plate.ref25Lost then s else
      let s := { s with plate := { s.plate with ref25Lost := true, holdover := true, refCnt := bump s.plate.refCnt 0 1 } }
      let s := s.refEvent 0
      (List.range 4).foldl (fun s p => if (s.parcel p).running then s.askPark p .refLoss else s) s)
  | .ref156 =>
    .next (if s.plate.ref156Lost then s else
      let s := { s with plate := { s.plate with ref156Lost := true, refCnt := bump s.plate.refCnt 1 1 } }
      (List.range 8).foldl (fun s t => s.tapDown t) (s.refEvent 1))
  | .pcie p => s.onPort p (fun s => if (s.port p).refLost then s else (s.portRefLost p).refEvent (2 + p))
  | .oscillator =>
    .next (if s.plate.oscLost then s else
      let s := { s with plate := { s.plate with oscLost := true } }
      (List.range 4).foldl (fun s p => if (s.port p).refmode = 1 then s.portRefLost p else s) (s.refEvent 6))

/-- REF_RESTORED (R248): A reference is declared restored after 10 ms of good periods; cause 0x6 says so on every port. -/
def execRefRestored (r : Ref) (s : State) : Host.Outcome State Fault Refusal :=
  match r with
  | .ref25 => .next (if s.plate.ref25Lost then (({ s with plate := { s.plate with ref25Lost := false } }).relock).eventAll 6 else s)
  | .ref156 => .next (if s.plate.ref156Lost then ({ s with plate := { s.plate with ref156Lost := false } }).eventAll 6 else s)
  | .pcie p => s.onPort p (fun s => if (s.port p).refLost then (s.modPort p (fun q => { q with refLost := false })).eventAll 6 else s)
  | .oscillator =>
    .next (if s.plate.oscLost then
      let s := { s with plate := { s.plate with oscLost := false } }
      ((List.range 4).foldl (fun s p => if (s.port p).refmode = 1 then s.modPort p (fun q => { q with refLost := false }) else s) s).eventAll 6
    else s)

/-- PTM_EXCHANGE (R250): A PTM exchange of the principal port steers the wall timebase: an offset above 1 ms steps it forward by the whole
offset; otherwise its rate is slewed toward the host by at most 200 ppm, by an amount the manual leaves open. It never steps back. The port's responder reports the timebase. -/
def execPtmExchange (offsetNs : Int) (s : State) : Host.Outcome State Fault Refusal :=
  .next (match s.raising.owner with
    | some p =>
      if !(s.port p).linkUp then s
      else if 1000000 < offsetNs then
        let w := s.plate.wall + BitVec.ofInt 64 offsetNs
        ({ s with plate := { s.plate with wall := w, slewPpm := 0 } } : State).emit (.ptm p w)
      else
        let (v, s) := s.fresh
        let r : Int := ((v % 201 : Nat) : Int)
        ({ s with plate := { s.plate with slewPpm := if offsetNs = 0 then 0 else if 0 < offsetNs then r else -r } } : State).emit (.ptm p s.plate.wall)
    | none => s)

end Sys2Proof.Machine
end

