-- ==== Sys2Proof/Machine/TapOps.lean ====
section
/-! DEFINITION. Operations of rack streams: the header of 19 R409, the receiver's window, credit and acknowledgements (R412-R416), the sender of an export (R417). -/

namespace Sys2Proof.Machine
open Sys2Proof

/-- Segments of a byte range, and the bytes of one (R411). -/
def segCount (len : Nat) : Nat := (len + 8191) / 8192
def segLen (len n : Nat) : Nat := min 8192 (len - 8192 * n)

/- RFLAG of R409. -/
def rfEnc : Nat := 1
def rfLast : Nat := 2
def rfExport : Nat := 4
/-- The 32-byte header of R409. -/
def rackHead (type rflag key len : Nat) (session : DWord) (seq arg : Nat) : Bytes :=
  let b := natLe 2 0x524B ++ natLe 1 1 ++ natLe 1 type ++ natLe 1 rflag ++ natLe 1 key ++ natLe 2 len ++ natLe 8 session.toNat ++ natLe 4 seq ++ natLe 4 arg ++ zeroBytes 4
  b ++ natLe 4 (crc32c b).toNat
/-- A received header as its bytes, without HCRC. -/
def hdrBytes (h : RackHdr) : Bytes :=
  natLe 2 h.magic.toNat ++ natLe 1 h.version.toNat ++ natLe 1 h.type.toNat ++ natLe 1 h.rflag.toNat ++ natLe 1 h.key.toNat ++ natLe 2 h.len ++ natLe 8 h.session.toNat ++
    natLe 4 h.seq ++ natLe 4 h.arg ++ natLe 4 h.rsv.toNat
def hdrCrcOk (h : RackHdr) : Bool := decide (crc32c (hdrBytes h) = h.hcrc)
/-- MAGIC, VERSION, the reserved bits and the reserved TYPEs (R409, R410). -/
def hdrFormOk (h : RackHdr) : Bool :=
  decide (h.magic = 0x524B#16) && decide (h.version = 1#8) && decide (h.rflag.toNat < 8) && decide (h.rsv = 0#32) && decide (1 ≤ h.type.toNat) && decide (h.type.toNat ≤ 6)
/-- The header of a datagram's first 32 bytes. -/
def hdrOf (b : Bytes) : RackHdr :=
  { magic := BitVec.ofNat 16 (b.leAt 0 2), version := BitVec.ofNat 8 (b.leAt 2 1), type := BitVec.ofNat 8 (b.leAt 3 1), rflag := BitVec.ofNat 8 (b.leAt 4 1),
    key := BitVec.ofNat 8 (b.leAt 5 1), len := b.leAt 6 2, session := BitVec.ofNat 64 (b.leAt 8 8), seq := b.leAt 16 4, arg := b.leAt 20 4,
    rsv := BitVec.ofNat 32 (b.leAt 24 4), hcrc := BitVec.ofNat 32 (b.leAt 28 4) }

/-- The IV of R411: SESSION, then SEQ with bit 31 set when the device sends. -/
def rackIv (session : DWord) (seq : Nat) (device : Bool) : Bytes := natLe 8 session.toNat ++ natLe 4 (seq % 2 ^ 31 + if device then 2 ^ 31 else 0)
def Parcel.keyOf (q : Parcel) (k : Nat) : Option Bytes := (q.keys.find? (fun e => e.1 = k)).map (fun e => e.2)

/-- A control datagram of a stream (R410); control travels in clear (R411). -/
def State.rackSend (s : State) (f : RackOpenF) (type rflag : Nat) (session : DWord) (arg : Nat) (body : Bytes) : State :=
  match tapOf f.tap with
  | some (t, u) => s.sendUdp t u f.peer f.localPort f.peerPort (rackHead type rflag 0xFF 0 session 0 arg ++ body)
  | none => s

def State.rack (s : State) (p n : Nat) : Option Rack := ((s.parcel p).racks.find? (fun e => e.1 = n)).map (fun e => e.2)
def State.modRack (s : State) (p n : Nat) (g : Rack → Rack) : State :=
  s.modParcel p (fun q => { q with racks := q.racks.map (fun e => if e.1 = n then (e.1, g e.2) else e) })

/-- A: the first segment that has not landed (R410). -/
def prefixGo : Nat → Sparse Bool → Nat
  | n, [] => n
  | n, (k, _) :: r => if k = n then prefixGo (n + 1) r else n
def Rack.ack (r : Rack) : Nat := prefixGo 0 r.landed
def Rack.hasLanded (r : Rack) (n : Nat) : Bool := Sparse.get false r.landed n
def Rack.allLanded (r : Rack) : Bool := decide (r.ack = segCount r.f.len)
/-- Bytes that have landed. -/
def Rack.landedBytes (r : Rack) : Nat := r.landed.foldl (fun n e => n + segLen r.f.len e.1) 0
def Rack.running (r : Rack) : Bool := decide (r.state = 1)

/-- W = min(256, 4,096 / running streams), and the buffer places that other streams leave (R413). -/
def Parcel.rackWindow (q : Parcel) : Nat := min 256 (4096 / max 1 (q.racks.filter (fun e => e.2.running)).length)
def Parcel.heldByOthers (q : Parcel) (n : Nat) : Nat := q.racks.foldl (fun k e => if e.1 = n then k else k + e.2.arrived.length) 0
/-- The credit limit of R413; a limit once sent is not taken back. -/
def Parcel.creditLimit (q : Parcel) (n : Nat) (r : Rack) : Nat := max r.credit (r.ack + min q.rackWindow (4096 - q.heldByOthers n))

def readReqBody (object : BitVec 128) (total count : Nat) : Bytes := natLe 16 object.toNat ++ natLe 8 total ++ natLe 4 count ++ zeroBytes 4
/-- READ_REQ for count segments from first (R410, R412). -/
def State.sendReadReq (s : State) (r : Rack) (first count : Nat) : State := s.rackSend r.f 1 0 r.session first (readReqBody r.f.object r.f.len count)
/-- CREDIT with the limit as it is now. -/
def State.sendCredit (s : State) (p n : Nat) : State :=
  match s.rack p n with
  | some r =>
    let l := (s.parcel p).creditLimit n r
    (s.modRack p n (fun r => { r with credit := l, sentCredit := l })).rackSend r.f 4 0 r.session l []
  | none => s
/-- CREDIT goes out each time L has risen by 32 or more since the last (R413). -/
def State.creditDue (s : State) (p n : Nat) : State :=
  match s.rack p n with
  | some r =>
    let l := (s.parcel p).creditLimit n r
    let s := s.modRack p n (fun r => { r with credit := l })
    if r.running && decide (r.sentCredit + 32 ≤ l) then s.sendCredit p n else s
  | none => s

/-- A stream fails: it keeps what has landed (R416). -/
def State.rackFails (s : State) (p n : Nat) : State := s.modRack p n (fun r => { r with state := 3, arrived := [], busy := false })

/-- The sub-link of a stream is up. -/
def State.rackUp (s : State) (f : RackOpenF) : Bool :=
  match tapOf f.tap with
  | some (t, u) => (s.subLink t u).link
  | none => false

/-- SACK's bitmap from A (R410). -/
def Rack.bitmap (r : Rack) : Nat := (r.landed.filter (fun e => decide (r.ack ≤ e.1) && decide (e.1 < r.ack + 256))).foldl (fun n e => n + 2 ^ (e.1 - r.ack)) 0
/-- The completed streams of a cask cover a whole WEIGHT region: the Cellarmaster closes it (R415). -/
def State.closeCovered (s : State) (p : Nat) (f : RackOpenF) : State :=
  match (s.parcel p).absCask f.rcask with
  | some c => match (s.cask c).region f.off with
    | some r =>
      let done := ((s.parcel p).racks.filter (fun e => decide (e.2.state = 2) && decide (e.2.f.rcask = f.rcask))).map (fun e => (e.2.f.off, e.2.f.len))
      if r.use_ = .weight ∧ covers done r.base (r.base + r.extent) then s.closeRegion c r else s
    | none => s
  | none => s
/-- SACK (R413, R415): the awaits see the segments it covers; with every segment landed the stream is complete. -/
def State.sendSack (s : State) (p n : Nat) : State :=
  match s.rack p n with
  | some r =>
    if !s.rackUp r.f then s
    else
      let s := s.rackSend r.f 3 0 r.session r.ack (natLe 32 r.bitmap)
      let s := match (s.parcel p).absCask r.f.rcask with
        | some c => r.unsacked.foldl (fun (s : State) k => s.landed c (r.f.off + 8192 * k) (segLen r.f.len k)) s
        | none => s
      let s := s.modRack p n (fun r => { r with unsacked := [] })
      if r.running && r.allLanded then (s.modRack p n (fun r => { r with state := 2 })).closeCovered p r.f else s
  | none => s

/-- One re-request; the 17th is not sent and the stream fails (R414). -/
def State.rerequest (s : State) (p n k : Nat) : State :=
  match s.rack p n with
  | some r =>
    if !r.running || r.hasLanded k || decide (segCount r.f.len ≤ k) || !s.rackUp r.f then s
    else if 16 ≤ Sparse.get 0 r.retry k then s.rackFails p n
    else
      let s := s.modRack p n (fun r => { r with retry := Sparse.modify 0 r.retry k (fun x => x + 1), retries := r.retries.add 1 })
      s.sendReadReq r k 1
  | none => s
/-- On link up the device re-requests every requested segment that has not landed (R414). -/
def State.linkRerequest (s : State) (t u : Nat) : State :=
  (List.range 4).foldl (fun s p => (s.parcel p).racks.foldl (fun s e =>
    if tapOf e.2.f.tap = some (t, u) ∧ e.2.running then (List.range (segCount e.2.f.len)).foldl (fun s k => s.rerequest p e.1 k) s else s) s) s

/-- Does a datagram's address match a stream's (R409)? -/
def addrMatches (f : RackOpenF) (a : PeerAddr) : Bool :=
  decide (tapOf f.tap = some (a.tap, a.sub)) && decide (f.peer = a.ip) && decide (f.peerPort = a.sport) && decide (f.localPort = a.dport)
/-- What a datagram is for: a stream of a parcel, or its export. -/
inductive RackTo where
  | stream (p : Nat) (n : Nat)
  | export_ (p : Nat)
  deriving DecidableEq, Repr
/-- The open streams and exports with a SESSION. -/
def State.sessions (s : State) (x : DWord) : List (RackTo × RackOpenF) :=
  (List.range 4).flatMap (fun p =>
    ((s.parcel p).racks.filter (fun e => decide (e.2.session = x))).map (fun e => (RackTo.stream p e.1, e.2.f)) ++
    (match (s.parcel p).exp with
      | some e => if e.session = x then [(RackTo.export_ p, e.f)] else []
      | none => []))
/-- CRC_ERRORS of the stream that a datagram names. -/
def State.rackCrcError (s : State) : RackTo → State
  | .stream p n => s.modRack p n (fun r => { r with crcErrors := r.crcErrors.add 1 })
  | .export_ _ => s
/-- A rack datagram of a type arrives: the checks of R409, and then what the type does. -/
def State.rackIn (s : State) (a : PeerAddr) (h : RackHdr) (type : Nat) (f : RackTo → State → State) : Host.Outcome State Fault Refusal :=
  if 8 ≤ a.tap ∨ 4 ≤ a.sub then .refused .noSuchUnit
  else .next (if !(s.subLink a.tap a.sub).link then s
    else if !hdrCrcOk h then (match (s.sessions h.session).head? with
      | some x => s.rackCrcError x.1
      | none => s.rxDiscard a.tap a.sub)
    else if !hdrFormOk h || decide (h.type.toNat ≠ type) then s.rxDiscard a.tap a.sub
    else match (s.sessions h.session).find? (fun x => addrMatches x.2 a) with
      | some x => f x.1 s
      | none => s.rxDiscard a.tap a.sub)

def State.modExport (s : State) (p : Nat) (g : Export → Export) : State := s.modParcel p (fun q => { q with exp := q.exp.map g })
/-- One segment of an export as a DATA datagram (R411, R417). -/
def exportData (e : Export) (key : Option Bytes) (k : Nat) : Bytes :=
  let n := e.bytes.length
  let last := decide (k + 1 = segCount n)
  let seg := e.bytes.slice (8192 * k) (segLen n k)
  let text := seg ++ natLe 4 (crc32c seg).toNat
  let fl := (if key.isSome then rfEnc else 0) + (if last then rfLast else 0) + rfExport
  let head := rackHead 2 fl e.f.key seg.length e.session k 0
  match key with
  | some kb =>
    let iv := rackIv e.session k true
    let ct := gcmCrypt kb iv text
    head ++ ct ++ gcmTag kb iv head ct
  | none => head ++ text
/-- Requested segments below the latest L leave in ascending order, each once for a request (R412). -/
def State.exportPump (s : State) (p : Nat) : State :=
  match (s.parcel p).exp with
  | some e =>
    let now := (e.requested.filter (fun k => decide (k < e.credit))).mergeSort (fun a b => decide (a ≤ b))
    let s := s.modExport p (fun e => { e with requested := e.requested.filter (fun k => decide (e.credit ≤ k)) })
    let key := if e.f.key = 0xFF then none else (s.parcel p).keyOf e.f.key
    match tapOf e.f.tap with
    | some (t, u) => now.foldl (fun s k => s.sendUdp t u e.f.peer e.f.localPort e.f.peerPort (exportData e key k)) s
    | none => s
  | none => s
/-- The export is over: its answer goes out (R391, R417). -/
def State.exportOver (s : State) (p : Nat) (a : Ans) : State :=
  match (s.parcel p).exp with
  | some e => (s.modParcel p (fun q => { q with exp := none })).answerWaits (fun w => decide (w.parcel = p) && w.what.isExport && decide (w.rq = some e.rq)) a
  | none => s
/-- OFFER (R410, R417). -/
def State.sendOffer (s : State) (p : Nat) : State :=
  match (s.parcel p).exp with
  | some e => (s.modExport p (fun e => { e with offers := e.offers + 1 })).rackSend e.f 6 rfExport e.session 0 (natLe 8 e.bytes.length ++ zeroBytes 8)
  | none => s

end Sys2Proof.Machine
end

