-- ==== Sys2Proof/Machine/Pour.lean ====
section
/-! DEFINITION. The Pour service: the pour.* messages, the frames of clients, steps and labels (18 R397, 20 R419-R440, 21 R457). -/

namespace Sys2Proof.Machine
open Sys2Proof

def miPour (code : Nat) : MsgInfo := { code := code, scope := .owner, feature := some 0 }
/-- Why pour.start is refused (R421); 0 when it starts. -/
def Parcel.pourRefusal (q : Parcel) (maxSeq : Nat) (taps : BitVec 8) : Nat :=
  match q.decl with
  | none => 0x0C01
  | some d =>
    if q.st ≠ .idle ∨ q.busy ∨ q.pour.serving then 0x0C02
    else if maxSeq = 0 ∨ 4096 < maxSeq ∨ d.slots < maxSeq then eMalformed
    else if taps &&& ~~~q.taps ≠ 0#8 then 0x0B02
    else 0
/-- The page map of a service that starts: no page is allocated (R430). -/
def State.clearMap (s : State) (p : Nat) : State :=
  match (s.parcel p).decl with
  | some d => s.pourWrite p d.pageMap (List.replicate (4 * d.slots * d.maxBlocks * d.nsets) 0xFF#8)
  | none => s
def hPourStart (p port maxSeq : Nat) (taps : BitVec 8) : Handler := fun s =>
  let why := (s.parcel p).pourRefusal maxSeq taps
  if why ≠ 0 then refuses s why
  else replies ((s.modParcel p (fun q => { q with pour := { Pour.init with serving := true, udpPort := port, maxSeq := maxSeq, taps := taps, kept := q.pour.kept } })).clearMap p) Ans.ok
/-- POUR_START (R421): Starts the Pour service on the parcel. -/
def execPourStart (rq : Requester) (parcel udpPort maxSeq : Nat) (taps : BitVec 8) (s : State) : Host.Outcome State Fault Refusal :=
  s.request rq (miPour 0x0C01) parcel (hPourStart parcel udpPort maxSeq taps) (.pourStart rq parcel udpPort maxSeq taps)

/-- Requests that no slot has served yet are refused when a drain begins (R437). -/
def State.pourDrain (s : State) (p : Nat) : State :=
  let x := (s.parcel p).pour
  let out := x.seqs.filter (fun q => (decide (q.st = .queued) && decide (q.admitted = 0)) || decide (q.st = .incomplete))
  let s := out.foldl (fun (s : State) q => s.pourRefuse p q.src q.id 5 0) s
  s.setPour p { x with draining := true, seqs := x.seqs.filter (fun q => !out.any (fun y => decide (y.id = q.id))) }
/-- A stop or a drain that nothing holds up any longer takes effect (R437). -/
def State.pourSettle (s : State) (p : Nat) : State :=
  let q := s.parcel p
  if !q.pour.serving || q.stepping then s
  else if q.pour.stopping then (s.pourEndAll p 4).pourOver p
  else if q.pour.draining && q.pour.seqs.isEmpty then s.pourOver p
  else s
def hPourStop (rq : Requester) (p : Nat) (sflag : BitVec 8) : Handler := fun s =>
  let x := (s.parcel p).pour
  if 2 ≤ sflag.toNat then refuses s eMalformed
  else if !x.serving then refuses s 0x0C02
  else
    let s := s.await rq 0x0C02 p .pourStop
    let s := if sflag.getLsbD 0 && !x.draining && !x.stopping then s.pourDrain p else s.modParcel p (fun q => { q with pour := { q.pour with stopping := true } })
    (s.pourSettle p, none)
/-- POUR_STOP (R437): Stops or drains the Pour service. The answer comes when it has stopped. -/
def execPourStop (rq : Requester) (parcel : Nat) (sflag : BitVec 8) (s : State) : Host.Outcome State Fault Refusal :=
  s.request rq (miPour 0x0C02) parcel (hPourStop rq parcel sflag) (.pourStop rq parcel sflag)

/-- A frame's header and payload when MAGIC, VERSION, LEN and FCRC hold (R422). -/
structure PFrame where
  type : Nat
  id : Nat
  body : Bytes
  deriving DecidableEq, Repr
def pourParse (b : Bytes) (maxLen : Nat) : Option PFrame :=
  let n := b.leAt 4 4
  if b.length = n + 20 ∧ n ≤ maxLen ∧ b.leAt 0 2 = 0x5250 ∧ b.leAt 2 1 = 1 ∧ b.leAt (n + 16) 4 = (crc32c (b.take (n + 16))).toNat then
    some { type := b.leAt 3 1, id := b.leAt 8 8, body := b.slice 16 n }
  else none
def PourSource.maxLen : PourSource → Nat
  | .datagram _ _ _ _ => 8192
  | .cutList _ => 16777216
def srcMaxLen (x : PourSource) : Nat := PourSource.maxLen x

def frameToken (b : Bytes) (i : Nat) : Nat := b.leAt (4 * i) 4
def fromHost : PourSource → Bool
  | .cutList _ => true
  | .datagram _ _ _ _ => false
/-- The payload offset of the first field of a REQUEST that is out of order (R424, R425); none when it is well formed. -/
def requestBad (d : PourDecl) (src : PourSource) (b : Bytes) : Option Nat :=
  let w := fun o => b.leAt o 4
  let nstop := b.leAt 28 1
  let nchunk := w 68
  if b.length < 72 then some b.length
  else if 0x7F800000 ≤ w 8 then some 8
  else if w 12 = 0 ∨ 0x3F800000 < w 12 then some 12
  else if d.vocab < w 16 ∨ (1048576 < d.vocab ∧ w 8 ≠ 0 ∧ (w 16 = 0 ∨ 1048576 < w 16)) then some 16
  else if w 20 = 0 then some 20
  else if w 24 = 0 then some 24
  else if 4 < nstop then some 28
  else if !allZero (b.slice 29 3) then some 29
  else match (List.range 4).find? (fun i => if i < nstop then decide (d.vocab ≤ w (32 + 4 * i)) else decide (w (32 + 4 * i) ≠ 0)) with
    | some i => some (32 + 4 * i)
    | none =>
      if fromHost src ∧ allZero (b.slice 48 16) then some 48
      else if allZero (b.slice 48 16) ∧ b.leAt 64 2 ≠ 0 then some 64
      else if !allZero (b.slice 66 2) then some 66
      else if b.length ≠ 72 + 4 * nchunk ∨ w 24 < nchunk then some 68
      else ((List.range nchunk).find? (fun i => decide (d.vocab ≤ frameToken (b.drop 72) i))).map (fun i => 72 + 4 * i)
def setTokens (m : Sparse (Option Nat)) (first : Nat) (toks : List Nat) : Sparse (Option Nat) :=
  ((enumFrom first toks).foldl (fun (m : Sparse (Option Nat)) e => Sparse.set none m e.1 (some e.2)) m)
def seqOf (src : PourSource) (f : PFrame) : PourSeq :=
  let b := f.body
  let w := fun o => b.leAt o 4
  let n := w 68
  { id := f.id, st := .incomplete, seed := b.leAt 0 8, temp := w 8, topP := w 12, topK := w 16, maxNew := w 20, nprompt := w 24
    stop := (List.range (b.leAt 28 1)).map (fun i => w (32 + 4 * i)), head := b.take 48, src := src, replyIp := BitVec.ofNat 128 (b.leAt 48 16)
    replyPort := b.leAt 64 2, prompt := setTokens [] 0 ((List.range n).map (frameToken (b.drop 72))), got := n, tokens := [], done := 0, slot := 0, served := 0
    admitted := 0, pages := [], rowAt := none, holds := 0, digestsHeld := true, cancelled := false, reason := 0, label := none, waits := false }

/-- A request whose every prompt index has arrived enters the queue and is answered with ACCEPT (R424, R425). -/
def State.pourQueue (s : State) (p id : Nat) : State :=
  let x := (s.parcel p).pour
  match x.find id with
  | some q =>
    if q.st = .incomplete ∧ q.got = q.nprompt then
      let ahead := x.queue.length
      let s := s.setPour p { x with seqs := x.seqs.filter (fun y => decide (y.id ≠ id)) ++ [{ q with st := .queued }] }
      s.pourSend p q 0x11 (natLe 4 ahead)
    else s
  | none => s
/-- Is SEQ_ID in use (R425): a sequence of the service, or one whose label is kept? -/
def Pour.uses (x : Pour) (id : Nat) : Bool := (x.find id).isSome || x.kept.any (fun q => decide (q.id = id) && q.label.isSome)
/-- REQUEST (R424, R425): 0, or the reason and detail that refuse it. -/
def Pour.requestReason (x : Pour) (d : PourDecl) (src : PourSource) (f : PFrame) : Nat × Nat :=
  match if f.id = 0 then some 0 else requestBad d src f.body with
  | some o => (1, o)
  | none =>
    if x.uses f.id then (2, 0)
    else if 8192 ≤ x.queue.length then (3, 0)
    else if d.maxPos < f.body.leAt 24 4 + f.body.leAt 20 4 then (4, d.maxPos)
    else if x.draining || x.stopping then (5, 0)
    else (0, 0)
def State.pourRequest (s : State) (p : Nat) (d : PourDecl) (src : PourSource) (f : PFrame) : State × Bool :=
  let x := (s.parcel p).pour
  let r := x.requestReason d src f
  if r.1 ≠ 0 then (s.pourRefuse p src f.id r.1 r.2, false)
  else ((s.setPour p { x with seqs := x.seqs ++ [seqOf src f] }).pourQueue p f.id, true)

/-- Does a frame come from a sequence's source or its reply address (R425)? -/
def PourSeq.from_ (q : PourSeq) (src : PourSource) : Bool :=
  match src, q.src with
  | .cutList _, .cutList _ => true
  | .datagram _ _ ip sport, .datagram _ _ ip2 sport2 => (decide (ip = ip2) && decide (sport = sport2)) || decide (q.reply = (ip, sport))
  | .datagram _ _ ip sport, .cutList _ => decide (q.reply = (ip, sport))
  | .cutList _, .datagram _ _ _ _ => false
/-- The sequence that a client's frame names: of the service, or ended and kept. -/
def Pour.named (x : Pour) (id : Nat) (src : PourSource) : Option PourSeq :=
  match (x.find id).filter (fun q => q.from_ src) with
  | some q => some q
  | none => x.kept.reverse.find? (fun q => decide (q.id = id) && q.from_ src)
/-- APPEND (R423, R424): reason and detail, or 0. -/
def Pour.appendReason (x : Pour) (d : PourDecl) (src : PourSource) (f : PFrame) : Nat × Nat :=
  let n := f.body.leAt 4 4
  let first := f.body.leAt 0 4
  let tok := frameToken (f.body.drop 8)
  if f.body.length < 8 then (1, f.body.length)
  else if f.body.length ≠ 8 + 4 * n then (1, 4)
  else match (List.range n).find? (fun i => decide (d.vocab ≤ tok i)) with
    | some i => (1, 8 + 4 * i)
    | none => match x.named f.id src with
      | none => (6, 0)
      | some q =>
        if q.nprompt < first + n then (1, 0)
        else match (List.range n).find? (fun i => match Sparse.get none q.prompt (first + i) with
            | some t => decide (t ≠ tok i)
            | none => false) with
          | some i => (1, 8 + 4 * i)
          | none =>
            let new := ((List.range n).filter (fun i => (Sparse.get none q.prompt (first + i)).isNone)).length
            if q.st = .incomplete ∧ q.got + new = q.nprompt ∧ 8192 ≤ x.queue.length then (3, 0) else (0, 0)
def State.pourAppend (s : State) (p : Nat) (d : PourDecl) (src : PourSource) (f : PFrame) : State × Bool :=
  let x := (s.parcel p).pour
  let r := x.appendReason d src f
  if r.1 ≠ 0 then (s.pourRefuse p src f.id r.1 r.2, false)
  else
    let n := f.body.leAt 4 4
    let s := s.modParcel p (fun q => { q with pour := x.modSeq f.id (fun y =>
      if y.st = .incomplete then
        let m := setTokens y.prompt (f.body.leAt 0 4) ((List.range n).map (frameToken (f.body.drop 8)))
        { y with prompt := m, got := m.length }
      else y) })
    (s.pourQueue p f.id, true)

/-- A cancel takes effect at the next step boundary, or at once while no step is in progress or the sequence is not active (R435). -/
def State.pourCancelSeq (s : State) (p : Nat) (q : PourSeq) : State :=
  if (s.parcel p).stepping && q.active then s.modParcel p (fun z => { z with pour := z.pour.modSeq q.id (fun y => { y with cancelled := true }) })
  else (s.pourEnd p q 3 none).pourSettle p
def State.pourCancelFrame (s : State) (p : Nat) (src : PourSource) (f : PFrame) : State × Bool :=
  if f.body ≠ [] ∨ f.id = 0 then (s.pourRefuse p src f.id 1 0, false)
  else match (s.parcel p).pour.named f.id src with
    | none => (s.pourRefuse p src f.id 6 0, false)
    | some q => if q.st = .ended then (s.pourRefuse p src f.id 8 q.tokens.length, false) else (s.pourCancelSeq p q, true)

/-- How many tokens fit a RESULT on the sub-link it leaves on (R426). -/
def State.resultRoom (s : State) (x : Pour) (q : PourSeq) : Nat :=
  match s.seqSub x q.src with
  | some (t, _) => ((s.tap t).mtu - (if isMapped4 q.reply.1 then 60 else 80)) / 4
  | none => 0
def State.pourFetch (s : State) (p : Nat) (src : PourSource) (f : PFrame) : State × Bool :=
  let x := (s.parcel p).pour
  let first := f.body.leAt 0 4
  if f.body.length ≠ 8 then (s.pourRefuse p src f.id 1 (min f.body.length 8), false)
  else if !allZero (f.body.drop 4) then (s.pourRefuse p src f.id 1 4, false)
  else match (x.named f.id src).filter (fun q => decide (q.st ≠ .ended) || q.label.isSome) with
    | none => (s.pourRefuse p src f.id 6 0, false)
    | some q =>
      if q.tokens.length < first then (s.pourRefuse p src f.id 9 q.tokens.length, false)
      else
        let n := min (min 2045 (q.tokens.length - first)) (s.resultRoom x q)
        let ended := decide (q.st = .ended) && decide (first + n = q.tokens.length)
        (s.pourSend p q 0x15 (natLe 4 first ++ natLe 4 n ++ natLe 1 (b1 ended) ++ zeroBytes 3 ++ ((q.tokens.drop first).take n).flatMap (natLe 4)), true)

/-- May a frame from this source reach the service (R422): it serves, and a datagram comes in on a sub-link of its ports that is up? -/
def State.pourHears (s : State) (p : Nat) (src : PourSource) : Bool :=
  (s.parcel p).pour.serving && (match src with
    | .datagram t u _ _ => (s.parcel p).pour.taps.getLsbD t && (s.subLink t u).link
    | .cutList _ => true)
def State.pourDiscard (s : State) : PourSource → State
  | .datagram t u _ _ => s.rxDiscard t u
  | .cutList _ => s
/-- A Pour frame of any type arrives (R422, R423): the state, and whether it was accepted. -/
def State.pourIn (s : State) (p : Nat) (src : PourSource) (frame : Bytes) (only : Option Nat) : State × Bool :=
  match pourParse frame (srcMaxLen src), (s.parcel p).decl with
  | some f, some d =>
    if only.isSome && decide (only ≠ some f.type) then (s.pourDiscard src, false)
    else if f.type = 1 then s.pourRequest p d src f
    else if f.type = 2 then s.pourAppend p d src f
    else if f.type = 3 then s.pourCancelFrame p src f
    else if f.type = 4 then s.pourFetch p src f
    else (s.pourDiscard src, false)
  | _, _ => (s.pourDiscard src, false)
/-- A frame's row: the sub-link exists; a service that is not there hears nothing. -/
def sourceOk : PourSource → Bool
  | .datagram t u _ _ => decide (t < 8) && decide (u < 4)
  | .cutList p => decide (p < 4)
def State.pourFrameRow (s : State) (p : Nat) (src : PourSource) (frame : Bytes) (type : Nat) : Host.Outcome State Fault Refusal :=
  if 4 ≤ p ∨ !sourceOk src then .refused .noSuchUnit
  else .next (if s.pourHears p src then (s.pourIn p src frame (some type)).1 else s)
/-- REQUEST (R424): A client's Pour request frame is checked and, when complete, queued. -/
def execRequest (parcel : Nat) (src : PourSource) (frame : Bytes) (s : State) : Host.Outcome State Fault Refusal := s.pourFrameRow parcel src frame 1
/-- APPEND (R424): A client's frame adds prompt tokens to a request. -/
def execAppend (parcel : Nat) (src : PourSource) (frame : Bytes) (s : State) : Host.Outcome State Fault Refusal := s.pourFrameRow parcel src frame 2
/-- CANCEL_FRAME (R435): A client cancels its sequence. -/
def execCancelFrame (parcel : Nat) (src : PourSource) (frame : Bytes) (s : State) : Host.Outcome State Fault Refusal := s.pourFrameRow parcel src frame 3
/-- FETCH (R426): A client asks for tokens from an index and is answered with RESULT. -/
def execFetch (parcel : Nat) (src : PourSource) (frame : Bytes) (s : State) : Host.Outcome State Fault Refusal := s.pourFrameRow parcel src frame 4

/-- The whole frames of a byte stream (R422), with a rest that spells none. The fuel is the stream's length. -/
def splitFrames : Nat → Bytes → List Bytes
  | 0, _ => []
  | k + 1, b =>
    if b.length < 20 then (if allZero b then [] else [b])
    else if b.leAt 0 2 ≠ 0x5250 ∨ b.leAt 2 1 ≠ 1 ∨ b.length < b.leAt 4 4 + 20 then (if allZero b then [] else [b])
    else b.take (b.leAt 4 4 + 20) :: splitFrames k (b.drop (b.leAt 4 4 + 20))
def hPourSubmit (rq : Requester) (p : Nat) (frames : Bytes) : Handler := fun s =>
  let src := PourSource.cutList ((requesterPort rq).getD 0)
  let r := (splitFrames frames.length frames).foldl (fun (r : State × Nat × Nat) f =>
    let o := if r.1.pourHears p src then r.1.pourIn p src f none else (r.1, false)
    if o.2 then (o.1, r.2.1 + 1, r.2.2) else (o.1, r.2.1, r.2.2 + 1)) (s, 0, 0)
  replies r.1 { status := 0, payload := natLe 4 r.2.1 ++ natLe 4 r.2.2 }
/-- POUR_SUBMIT (R422): Passes Pour frames from host memory to the service. frames is what the SEG_IN entries carry; zeros after the last
frame fill its last entry. -/
def execPourSubmit (rq : Requester) (parcel : Nat) (frames : Bytes) (s : State) : Host.Outcome State Fault Refusal :=
  s.request rq { miPour 0x0C03 with cut := true } parcel (hPourSubmit rq parcel frames) (.pourSubmit rq parcel frames)

def hPourCancel (rq : Requester) (p : Nat) (ids : List Nat) : Handler := fun s =>
  if ids = [] ∨ 500 < ids.length then refuses s eMalformed
  else
    let here := (s.parcel p).pour.seqs.filter (fun q => ids.contains q.id)
    let t := here.foldl (fun (s : State) q => s.pourCancelSeq p q) s
    if (s.parcel p).stepping then (t.await rq 0x0C04 p (.pourCancel here.length), none) else replies t { status := 0, payload := natLe 4 here.length }
/-- POUR_CANCEL (R435): Cancels named sequences at the next step boundary. -/
def execPourCancel (rq : Requester) (parcel : Nat) (ids : List Nat) (s : State) : Host.Outcome State Fault Refusal :=
  s.request rq (miPour 0x0C04) parcel (hPourCancel rq parcel ids) (.pourCancel rq parcel ids)

def hPourStatus (p : Nat) : Handler := fun s =>
  let x := (s.parcel p).pour
  let free := ((s.parcel p).decl.map (fun d => x.pagesFree d)).getD 0
  replies s { status := 0, payload := natLe 4 (x.seqs.filter PourSeq.active).length ++ natLe 4 free ++ natLe 8 x.steps ++ natLe 8 x.tokens }
/-- POUR_STATUS (R440): Returns the service's counts. -/
def execPourStatus (rq : Requester) (parcel : Nat) (s : State) : Host.Outcome State Fault Refusal := s.request rq (miPour 0x0C05) parcel (hPourStatus parcel) (.pourStatus rq parcel)

def hPourLabel (p id : Nat) : Handler := fun s =>
  match ((s.parcel p).pour.kept.reverse.find? (fun q => decide (q.id = id))).bind (fun q => if q.waits then none else q.label) with
  | some l => replies s { status := 0, payload := l }
  | none => refuses s 0x0C03
/-- POUR_LABEL (R434): Returns a kept sequence's label, once it is signed where labels are (21 R457). -/
def execPourLabel (rq : Requester) (parcel seqId : Nat) (s : State) : Host.Outcome State Fault Refusal :=
  s.request rq (miPour 0x0C06) parcel (hPourLabel parcel seqId) (.pourLabel rq parcel seqId)

/-- POUR_INCOMPLETE_TIMEOUT (R425): A request not complete within 100 ms is refused as INCOMPLETE. -/
def execPourIncompleteTimeout (parcel seqId : Nat) (s : State) : Host.Outcome State Fault Refusal :=
  s.onParcel parcel (fun s =>
    let x := (s.parcel parcel).pour
    match x.find seqId with
    | some q =>
      if q.st = .incomplete then (s.pourRefuse parcel q.src q.id 7 q.got).setPour parcel { x with seqs := x.seqs.filter (fun y => decide (y.id ≠ seqId)) }
      else s
    | none => s)

/-- A step starts (R421, R427, R428): the tables are written and the body runs with run key 0 and no SERIAL. -/
def State.pourStep (s : State) (p : Nat) (d : PourDecl) (m : Image) : State :=
  let q := s.parcel p
  let x := composeStep d q.pour
  if x.seqs.all (fun y => y.rowAt.isNone) then s
  else
    let evicted := x.seqs.any (fun y => decide (y.done < ((q.pour.find y.id).map (fun z => z.done)).getD 0))
    let s := s.setPour p x
    let s := if evicted then s.eventOwner p 4 else s
    let s := s.pourWrite p d.stepTable (x.tableBytes d)
    let i := { Inv.new 0 0#128 false with ofPour := true }
    s.startInv p i m
/-- POUR_STEP_START (R427): The Cellarmaster composes a step, allocates pages, writes the step table and starts the invocation. -/
def execPourStepStart (parcel : Nat) (s : State) : Host.Outcome State Fault Refusal :=
  s.onParcel parcel (fun s =>
    let q := s.parcel parcel
    match q.decl, q.image with
    | some d, some m =>
      if q.pour.serving && !q.pour.stopping && q.inv.isNone && decide (q.st = .idle) && q.fields.all (fun f => decide ((s.field f).st = .raised)) then s.pourStep parcel d m
      else s
    | _, _ => s)

/-- The label of a sequence that ended (R436), or none when a weight digest did not stay valid. -/
def State.pourLabelOf (s : State) (p : Nat) (d : PourDecl) (m : Image) (q : PourSeq) : Option Bytes :=
  if !(q.digestsHeld && s.weightsValid p) then none
  else
    let z := s.parcel p
    let prompt := (List.range q.nprompt).flatMap (fun i => natLe 4 (q.tokenAt i))
    some (labelOf { pour := true, prologueRan := false, shape := z.shape, nweight := (s.weights p).length, image := m.digest, weights := s.weightsDigest p
                    input := sha384Val (q.head ++ prompt), output := sha384Val q.tokenBytes, runKey := 0
                    fabricCount := ((q.nprompt + d.prefillRows - 1) / d.prefillRows + q.tokens.length - 1) * d.stepCount
                    prologueCount := 0, holdCount := q.holds, wall := s.plate.wall.toNat, flags := 0, sequence := q.id } s.labelSigns)
/-- A sequence takes the token of a row (R429, R434): it is sent, and the sequence may end with it. -/
def State.pourToken (s : State) (p : Nat) (d : PourDecl) (m : Image) (q : PourSeq) (tok : Nat) : State :=
  let y := { q with tokens := q.tokens ++ [tok], st := .decode }
  let x := (s.parcel p).pour
  let s := s.modParcel p (fun z => { z with pour := { (x.modSeq q.id (fun _ => y)) with tokens := x.tokens + 1 } })
  let s := s.pourSend p y 0x12 (natLe 4 q.tokens.length ++ natLe 4 tok ++ natLe 4 q.known ++ zeroBytes 4)
  let why := if q.stop.contains tok then 1 else if y.tokens.length = q.maxNew then 2 else 0
  if why = 0 then s
  else
    let l := s.pourLabelOf p d m y
    let s := s.pourEnd p y why l
    match l with
    | some b => if labelWaits b then s else s.pourSend p y 0x14 b
    | none => s
/-- What a step has done for one sequence that held rows in it (R427, R429, R435, R436). -/
def State.pourAdvance (s : State) (p : Nat) (d : PourDecl) (m : Image) (holds : Nat) (held : Bool) (id : Nat) : State :=
  match (s.parcel p).pour.find id with
  | some q => match q.rowAt with
    | some (r, n) =>
      let y := { q with done := q.done + n, rowAt := none, holds := q.holds + holds, digestsHeld := q.digestsHeld && held }
      let s := s.modParcel p (fun z => { z with pour := z.pour.modSeq id (fun _ => y) })
      if y.done = y.known ∧ !q.cancelled then s.pourToken p d m y ((s.pourRead p (d.tokenBlock + 4 * (r + n - 1)) 4).leAt 0 4) else s
    | none => s
  | none => s
/-- The step boundary (R429, R434, R435, R437): tokens, then cancels, then a stop or the end of a drain. -/
def State.pourBoundary (s : State) (p : Nat) (d : PourDecl) (m : Image) (holds : Nat) (held : Bool) : State :=
  let ids := ((s.parcel p).pour.seqs.filter (fun q => q.rowAt.isSome)).map (fun q => q.id)
  let s := ids.foldl (fun (s : State) id => s.pourAdvance p d m holds held id) s
  let s := ((s.parcel p).pour.seqs.filter (fun q => q.cancelled)).foldl (fun (s : State) q => s.pourEnd p q 3 none) s
  let s := s.modParcel p (fun z => { z with pour := { z.pour with steps := z.pour.steps + 1 } })
  (s.answerCancels p true).pourSettle p
/-- POUR_STEP_END (R429): After a step's END checks, the tokens are read, sent and sequences ended or labelled. -/
def execPourStepEnd (parcel : Nat) (s : State) : Host.Outcome State Fault Refusal :=
  s.onParcel parcel (fun s =>
    match (s.parcel parcel).inv, (s.parcel parcel).decl, (s.parcel parcel).image with
    | some i, some d, some m =>
      if i.started && i.endSeen && i.fault.isNone && i.ofPour then
        let s := s.settleBays parcel
        let (s, _) := s.settleData i
        let s := (s.parcel parcel).casks.foldl (fun (s : State) c => s.modCask c (fun k => k.commit none)) s
        match (s.parcel parcel).inv with
        | some i =>
          if i.fault.isSome then s
          else
            let held := i.digestsHeld && s.weightsValid parcel
            let park := i.parkReq
            let s := s.endRun parcel 0 0
            let s := s.pourBoundary parcel d m i.holdCount held
            if park then s.parkNow parcel ((s.parcel parcel).parkedBy.getD .trellis) else s
        | none => s
      else s
    | _, _, _ => s)

/-- Labels that wait for the seal: the wall time at which each was built, its parcel, and its serial or sequence (21 R457). -/
def State.waitingLabels (s : State) : List (Nat × Nat × Bool × Nat) :=
  (List.range 4).flatMap (fun p =>
    ((s.parcel p).records.filter (fun r => !r.signed)).map (fun r => (r.label.leAt 248 8, p, false, r.serial)) ++
    (s.parcel p).pour.kept.filterMap (fun q => match q.label with
      | some l => if q.waits then some (l.leAt 248 8, p, true, q.id) else none
      | none => none))
/-- A sequence's label is signed, and its LABEL frame goes out (R434, 21 R457). -/
def State.signSeq (s : State) (p id : Nat) : State :=
  match (s.parcel p).pour.kept.find? (fun q => decide (q.id = id) && q.waits) with
  | some q =>
    let l := labelSign (q.label.getD [])
    let s := s.modParcel p (fun z => { z with pour := { z.pour with kept := z.pour.kept.map (fun y => if y = q then { y with label := some l, waits := false } else y) } })
    s.pourSend p q 0x14 l
  | none => s
/-- LABEL_SIGNED (21 R457): The seal finishes signing a label, releasing the records that wait for it; labels are signed in the order
in which they were built. -/
def execLabelSigned (s : State) : Host.Outcome State Fault Refusal :=
  if s.sealU.halted then .next s
  else
    let first := s.waitingLabels.foldl (fun (b : Option (Nat × Nat × Bool × Nat)) c => match b with
      | some x => if c.1 < x.1 then some c else b
      | none => some c) none
    .next (match first with
      | some (_, p, true, id) => s.signSeq p id
      | some (_, p, false, serial) =>
        (s.modParcel p (fun q => { q with records := q.records.map (fun r => if r.serial = serial then { r with label := labelSign r.label, signed := true } else r) })).eventOwner p 3
      | none => s)

end Sys2Proof.Machine
end

