-- ==== Sys2Proof/Machine/Tap.lean ====
section
/-! DEFINITION. The rack.* and tap.* messages, the tap links, and the rack transport (18 R383, R396, 19 R403-R418, 23 R482). -/

namespace Sys2Proof.Machine
open Sys2Proof

/-- E_RACK_TAP: is the port in the parcel, the sub-link up, its MTU large enough for a DATA datagram (R411)? -/
def State.rackTapOk (s : State) (p : Nat) (t u : Nat) : Bool :=
  (s.parcel p).taps.getLsbD t && decide (u < subLinks (s.tap t).mode) && (s.subLink t u).link && decide (8292 ≤ (s.tap t).mtu)
/-- E_RACK_REGION: OFF and LEN lie within one WEIGHT or LANDING region. -/
def State.rackRegionOk (s : State) (p : Nat) (f : RackOpenF) : Bool :=
  match (s.parcel p).absCask f.rcask with
  | some c => match (s.cask c).region f.off with
    | some r => decide (0 < f.len) && r.holds f.off f.len && gwWrites r.use_
    | none => false
  | none => false
def miRackOpen : MsgInfo := { code := 0x0501, scope := .owner }
def hRackOpen (p : Nat) (f : RackOpenF) : Handler := fun s =>
  match tapOf f.tap with
  | none => refuses s eMalformed
  | some (t, u) =>
    if 15 < f.key ∧ f.key ≠ 0xFF then refuses s eMalformed
    else if (s.rack p f.stream).isSome then refuses s 0x0501
    else if !s.rackTapOk p t u then refuses s 0x0502
    else if !s.rackRegionOk p f then refuses s 0x0503
    else if f.key ≠ 0xFF ∧ ((s.parcel p).keyOf f.key).isNone then refuses s 0x0504
    else
      let x := s.fresh
      let r : Rack := { f := f, state := 1, session := BitVec.ofNat 64 x.1, landed := [], arrived := [], retry := [], credit := 0, sentCredit := 0, unsacked := [],
                        busy := false, retries := EvCnt.init, crcErrors := EvCnt.init }
      let s := x.2.modParcel p (fun q => { q with racks := q.racks ++ [(f.stream, r)] })
      replies ((s.sendReadReq r 0 (segCount f.len)).sendCredit p f.stream) Ans.ok
/-- RACK_OPEN (R412): Opens a rack stream and sends READ_REQ and CREDIT. -/
def execRackOpen (rq : Requester) (parcel : Nat) (f : RackOpenF) (s : State) : Host.Outcome State Fault Refusal :=
  s.request rq miRackOpen parcel (hRackOpen parcel f) (.rackOpen rq parcel f)

def miRackClose : MsgInfo := { code := 0x0502, scope := .owner }
def hRackClose (p n : Nat) : Handler := fun s =>
  match s.rack p n with
  | some r =>
    replies (s.modParcel p (fun q => { q with racks := q.racks.filter (fun e => decide (e.1 ≠ n)) }))
      { status := 0, payload := natLe 8 r.landedBytes ++ natLe 8 r.retries.word }
  | none => refuses s 0x0501
/-- RACK_CLOSE (R416): Closes a rack stream. -/
def execRackClose (rq : Requester) (parcel stream : Nat) (s : State) : Host.Outcome State Fault Refusal :=
  s.request rq miRackClose parcel (hRackClose parcel stream) (.rackClose rq parcel stream)

def miRackStatus : MsgInfo := { code := 0x0503, scope := .owner }
def hRackStatus (p n : Nat) : Handler := fun s =>
  match s.rack p n with
  | some r => replies s { status := 0, payload := natLe 1 r.state ++ zeroBytes 7 ++ natLe 8 r.landedBytes ++ natLe 8 r.retries.word ++ natLe 8 r.crcErrors.word }
  | none => refuses s 0x0501
/-- RACK_STATUS (R383): Returns a rack stream's state and counters. -/
def execRackStatus (rq : Requester) (parcel stream : Nat) (s : State) : Host.Outcome State Fault Refusal :=
  s.request rq miRackStatus parcel (hRackStatus parcel stream) (.rackStatus rq parcel stream)

/-- E_PARCEL_TAP and E_TAP_PORT (R396); 0 when the port is the parcel's. -/
def State.tapRefusal (s : State) (p t : Nat) : Nat :=
  if (s.parcel p).taps.getLsbD t then 0
  else match s.tapOwner t with
    | some _ => 0x0B01
    | none => 0x0B02
/-- Every sub-link of the mode is up. -/
def State.tapUp (s : State) (t : Nat) : Bool := (List.range (subLinks (s.tap t).mode)).all (fun u => (s.subLink t u).link)
def miTapConfig : MsgInfo := { code := 0x0B01, scope := .owner }
def hTapConfig (rq : Requester) (p : Nat) (f : TapConfigF) : Handler := fun s =>
  if 8 ≤ f.tap.toNat then refuses s eMalformed
  else
    let t := f.tap.toNat
    let why := s.tapRefusal p t
    if why ≠ 0 then refuses s why
    else if 3 < f.mode.toNat ∨ f.mtu < 1500 ∨ 9216 < f.mtu then refuses s 0x0B03
    else
      let s := (s.tapDown t).modTap t (fun x => { x with mode := f.mode.toNat, mtu := f.mtu, mac := f.mac, ipv6 := f.ipv6, ipv4 := f.ipv4, subs := [] })
      if f.mode.toNat = 0 then replies s Ans.ok else (s.await rq 0x0B01 p (.tapLink t), none)
/-- TAP_CONFIG (R396): Configures a tap port's mode, MTU and addresses. The link goes down, the counters clear, and the answer waits for
link up or 100 ms. -/
def execTapConfig (rq : Requester) (parcel : Nat) (f : TapConfigF) (s : State) : Host.Outcome State Fault Refusal :=
  s.request rq miTapConfig parcel (hTapConfig rq parcel f) (.tapConfig rq parcel f)

def miTapKeySet : MsgInfo := { code := 0x0B02, scope := .owner }
def hTapKeySet (p key : Nat) (bytes : Bytes) : Handler := fun s =>
  if 15 < key then refuses s eMalformed
  else if s.sealU.halted then refuses s 0x0B04
  else replies (s.modParcel p (fun q => { q with keys := (key, (bytes ++ zeroBytes 32).take 32) :: q.keys.filter (fun e => decide (e.1 ≠ key)) })) Ans.ok
/-- TAP_KEY_SET (R396): Installs a tap key in the seal. -/
def execTapKeySet (rq : Requester) (parcel key : Nat) (keyBytes : Bytes) (s : State) : Host.Outcome State Fault Refusal :=
  s.request rq miTapKeySet parcel (hTapKeySet parcel key keyBytes) (.tapKeySet rq parcel key keyBytes)

def SubLink.counterBytes (l : SubLink) (n : Nat) : Bytes := (List.range n).flatMap (fun i => natLe 8 (Sparse.get EvCnt.init l.cnt i).word)
def miTapStatus : MsgInfo := { code := 0x0B03, scope := .owner }
def hTapStatus (p : Nat) (tap : BitVec 8) : Handler := fun s =>
  match tapOf tap with
  | none => refuses s eMalformed
  | some (t, u) =>
    let why := s.tapRefusal p t
    if why ≠ 0 then refuses s why
    else replies s { status := 0, payload := natLe 1 (b1 (s.subLink t u).link) ++ natLe 1 (s.tap t).mode ++ zeroBytes 6 ++ (s.subLink t u).counterBytes 4 }
/-- TAP_STATUS (R396): Returns a sub-link's state and counters. -/
def execTapStatus (rq : Requester) (parcel : Nat) (tap : BitVec 8) (s : State) : Host.Outcome State Fault Refusal :=
  s.request rq miTapStatus parcel (hTapStatus parcel tap) (.tapStatus rq parcel tap)

/-- Can a sub-link come up: the port's mode has it, REF156 is there, the plate runs, a pluggable has been identified (12 R249, R254, 23
R482)? -/
def State.mayLink (s : State) (t u : Nat) : Bool :=
  let x := s.tap t
  decide (u < subLinks x.mode) && !s.plate.ref156Lost && !s.plate.plateReset && (!x.present || x.copper || x.identified)
def State.subUp (s : State) (t u : Nat) : State :=
  let s := s.modSub t u (fun l => { l with link := true })
  let s := match s.tapOwner t with
    | some p => s.eventOwner p 5
    | none => s
  let s := if s.tapUp t then s.answerWaits (fun w => decide (w.what = .tapLink t)) Ans.ok else s
  s.linkRerequest t u
/-- TAP_LINK_CHANGE (R408): A sub-link goes up or down, stopping or restarting its timers. -/
def execTapLinkChange (tap sub : Nat) (up : Bool) (s : State) : Host.Outcome State Fault Refusal :=
  if 8 ≤ tap ∨ 4 ≤ sub then .refused .noSuchUnit
  else .next (if up then (if (s.subLink tap sub).link || !s.mayLink tap sub then s else s.subUp tap sub) else s.subDown tap sub)

/-- The neighbour cache learns a requester's address (R404, R406). -/
def SubLink.learn (l : SubLink) (ip : BitVec 128) (mac : BitVec 48) : SubLink := { l with neigh := (ip, mac) :: l.neigh.filter (fun e => decide (e.1 ≠ ip)) }
def State.arpIn (s : State) (t u : Nat) (srcMac : BitVec 48) (srcIp target : BitVec 32) : State :=
  let x := s.tap t
  if (s.subLink t u).link && decide (x.ipv4 ≠ 0#32) && decide (target = x.subIpv4 u) then
    (s.modSub t u (fun l => l.learn (mapped4 srcIp) srcMac)).sendOut t u (.arpReply t u srcMac srcIp (x.subMac u))
  else s
/-- ARP_REQUEST (R406): The device answers ARP for its IPv4 address. -/
def execArpRequest (tap sub : Nat) (srcMac : BitVec 48) (srcIp target : BitVec 32) (s : State) : Host.Outcome State Fault Refusal :=
  if 8 ≤ tap ∨ 4 ≤ sub then .refused .noSuchUnit else .next (s.arpIn tap sub srcMac srcIp target)

def State.ndpIn (s : State) (t u : Nat) (srcMac : BitVec 48) (srcIp target : BitVec 128) : State :=
  let x := s.tap t
  if (s.subLink t u).link && decide (x.ipv6 ≠ 0#128) && decide (target = x.subIpv6 u) then
    (s.modSub t u (fun l => l.learn srcIp srcMac)).sendOut t u (.ndpAdvert t u srcMac srcIp (x.subMac u))
  else s
/-- NEIGHBOUR_SOLICITATION (R406): The device answers NDP for its IPv6 address. -/
def execNeighbourSolicitation (tap sub : Nat) (srcMac : BitVec 48) (srcIp target : BitVec 128) (s : State) : Host.Outcome State Fault Refusal :=
  if 8 ≤ tap ∨ 4 ≤ sub then .refused .noSuchUnit else .next (s.ndpIn tap sub srcMac srcIp target)

/-- Is an address the sub-link's own, with its protocol enabled? -/
def State.ownIp (s : State) (t u : Nat) (v6 : Bool) (ip : BitVec 128) : Bool :=
  let x := s.tap t
  if v6 then decide (x.ipv6 ≠ 0#128) && decide (ip = x.subIpv6 u) else decide (x.ipv4 ≠ 0#32) && decide (ip = mapped4 (x.subIpv4 u))
def State.echoIn (s : State) (t u : Nat) (v6 : Bool) (srcIp dstIp : BitVec 128) (body : Bytes) : State :=
  if (s.subLink t u).link && s.ownIp t u v6 dstIp then s.sendOut t u (.echoReply t u v6 srcIp body) else s
/-- ECHO_REQUEST (R406): The device answers an ICMP echo request. -/
def execEchoRequest (tap sub : Nat) (v6 : Bool) (srcIp dstIp : BitVec 128) (body : Bytes) (s : State) : Host.Outcome State Fault Refusal :=
  if 8 ≤ tap ∨ 4 ≤ sub then .refused .noSuchUnit else .next (s.echoIn tap sub v6 srcIp dstIp body)

/-- The peer of an export asks for segments (R412, R417): a range that the export does not have is answered FAIL with RANGE. -/
def State.readReqIn (h : RackHdr) (total count : Nat) (dest : RackTo) (s : State) : State :=
  match dest with
  | .stream _ _ => s
  | .export_ p => match (s.parcel p).exp with
    | none => s
    | some e =>
      if !h.rflag.getLsbD 2 || decide (e.offers = 0) then s
      else if total ≠ e.bytes.length ∨ segCount e.bytes.length < h.arg + count then s.rackSend e.f 5 rfExport e.session 2 []
      else
        let new := ((List.range count).map (fun i => h.arg + i)).filter (fun k => !e.requested.contains k)
        (s.modExport p (fun e => { e with started := true, requested := e.requested ++ new })).exportPump p
/-- READ_REQ (R412): A rack datagram asks the sender for segments. -/
def execReadReq (a : PeerAddr) (h : RackHdr) (_object : BitVec 128) (total count : Nat) (s : State) : Host.Outcome State Fault Refusal :=
  s.rackIn a h 1 (State.readReqIn h total count)

/-- The segment data of a DATA datagram, or none when the GCM tag or DCRC fails (R411, R414). -/
def Parcel.segData (q : Parcel) (r : Rack) (h : RackHdr) (body : Bytes) : Option Bytes :=
  let n := segLen r.f.len h.seq
  let text := if r.f.key = 0xFF then some body
    else match q.keyOf r.f.key with
      | none => none
      | some k =>
        let iv := rackIv r.session h.seq false
        let ct : Bytes := body.take (n + 4)
        if gcmTag k iv (hdrBytes h ++ natLe 4 h.hcrc.toNat) ct = body.drop (n + 4) then some (gcmCrypt k iv ct) else none
  match text with
  | some t => if natLe 4 (crc32c (t.take n)).toNat = t.drop n then some (t.take n) else none
  | none => none
/-- Is a DATA datagram acceptable but for its tag and DCRC (R414)? -/
def Rack.accepts (r : Rack) (h : RackHdr) (body : Bytes) : Bool :=
  let n := segLen r.f.len h.seq
  let enc := decide (r.f.key ≠ 0xFF)
  r.running && decide (h.seq < segCount r.f.len) && decide (h.seq < r.credit) && !r.hasLanded h.seq && !r.arrived.any (fun e => decide (e.1 = h.seq)) &&
    decide (h.rflag.getLsbD 0 = enc) && decide (h.key.toNat = r.f.key) && decide (h.rflag.getLsbD 1 = decide (h.seq + 1 = segCount r.f.len)) && !h.rflag.getLsbD 2 &&
    decide (h.len = n) && decide (body.length = n + 4 + if enc then 16 else 0)
def State.dataIn (h : RackHdr) (body : Bytes) (dest : RackTo) (s : State) : State :=
  match dest with
  | .export_ _ => s
  | .stream p n => match s.rack p n with
    | none => s
    | some r =>
      if !r.accepts h body then s
      else match (s.parcel p).segData r h body with
        | some d => s.modRack p n (fun r => { r with arrived := r.arrived ++ [(h.seq, d)] })
        | none => s.rackCrcError dest
/-- DATA (R414): A rack DATA datagram is checked and its segment accepted into the landing buffer. -/
def execData (a : PeerAddr) (h : RackHdr) (body : Bytes) (s : State) : Host.Outcome State Fault Refusal := s.rackIn a h 2 (State.dataIn h body)

/-- An acknowledgement of the peer of an export; the export ends when it covers the last segment (R417). -/
def State.sackIn (h : RackHdr) (dest : RackTo) (s : State) : State :=
  match dest with
  | .stream _ _ => s
  | .export_ p => match (s.parcel p).exp with
    | none => s
    | some e =>
      if h.rflag.getLsbD 2 && e.started && decide (segCount e.bytes.length ≤ h.arg) then s.exportOver p { status := 0, payload := natLe 8 e.bytes.length }
      else s
/-- SACK (R410): A rack acknowledgement of landed segments reaches the sender. -/
def execSack (a : PeerAddr) (h : RackHdr) (_bitmap : BitVec 256) (s : State) : Host.Outcome State Fault Refusal := s.rackIn a h 3 (State.sackIn h)

def State.creditIn (h : RackHdr) (dest : RackTo) (s : State) : State :=
  match dest with
  | .stream _ _ => s
  | .export_ p => if h.rflag.getLsbD 2 then (s.modExport p (fun e => { e with credit := max e.credit h.arg })).exportPump p else s
/-- CREDIT (R413): A rack credit limit reaches the sender. -/
def execCredit (a : PeerAddr) (h : RackHdr) (s : State) : Host.Outcome State Fault Refusal := s.rackIn a h 4 (State.creditIn h)

def State.failIn (h : RackHdr) (dest : RackTo) (s : State) : State :=
  match dest with
  | .export_ _ => s
  | .stream p n => match s.rack p n with
    | none => s
    | some r => if !r.running then s else if h.arg = 4 then s.modRack p n (fun r => { r with busy := true }) else s.rackFails p n
/-- FAIL (R412): The store refuses a stream; BUSY is retried and other reasons fail it. -/
def execFail (a : PeerAddr) (h : RackHdr) (s : State) : Host.Outcome State Fault Refusal := s.rackIn a h 5 (State.failIn h)

/-- The export of a stream, once its bytes are there. -/
def State.offering (s : State) (p stream : Nat) : Option Export := (s.parcel p).exp.filter (fun e => decide (e.stream = stream) && !e.started && decide (e.bytes ≠ []))
/-- OFFER (R417): The device offers an export to its peer. -/
def execOffer (parcel stream : Nat) (s : State) : Host.Outcome State Fault Refusal :=
  if 4 ≤ parcel then .refused .noSuchUnit
  else .next (match s.offering parcel stream with
    | some e => if e.offers = 0 then s.sendOffer parcel else s
    | none => s)

/-- A segment's pieces are written in the cask (R412, R415, R416). -/
def State.segmentLands (s : State) (p n k : Nat) (r : Rack) (c : Nat) (d : Bytes) (beats : List Ecc) : State :=
  match s.gwWrite c (r.f.off + 8192 * k) d false beats with
  | none => (s.gwRefused c).rackFails p n
  | some t =>
    let t := (t.modRack p n (fun r => { r with arrived := r.arrived.filter (fun e => decide (e.1 ≠ k)), landed := Sparse.set false r.landed k true,
                                               unsacked := r.unsacked ++ [k] })).creditDue p n
    if 31 ≤ r.unsacked.length then t.sendSack p n else t
/-- SEGMENT_LANDED (R415): Every piece of a segment is written; the stream may complete and its region close. A segment whose cask the gateway
cannot reach waits (09 R196). seg holds what the sill's check finds in what is written (09 R175). -/
def execSegmentLanded (parcel stream : Nat) (seg : LandedSeg) (s : State) : Host.Outcome State Fault Refusal :=
  if 4 ≤ parcel then .refused .noSuchUnit
  else .next (match s.rack parcel stream with
    | none => s
    | some r => match r.arrived.find? (fun e => e.1 = seg.seq), (s.parcel parcel).absCask r.f.rcask with
      | some e, some c => if s.gwOpen c then s.segmentLands parcel stream seg.seq r c e.2 seg.beats else s
      | _, _ => s)

/-- RACK_CREDIT_TIMER (R413): The device sends CREDIT and SACK on their periodic timers. -/
def execRackCreditTimer (parcel stream : Nat) (sackTimer : Bool) (s : State) : Host.Outcome State Fault Refusal :=
  if 4 ≤ parcel then .refused .noSuchUnit
  else .next (match s.rack parcel stream with
    | none => s
    | some r => if !r.running || !s.rackUp r.f then s else if sackTimer then s.sendSack parcel stream else s.sendCredit parcel stream)

/-- RACK_REREQUEST (R414): A segment's re-request timer or count expires and it is requested again, or the stream fails. -/
def execRackRerequest (parcel stream seq : Nat) (s : State) : Host.Outcome State Fault Refusal :=
  if 4 ≤ parcel then .refused .noSuchUnit else .next (s.rerequest parcel stream seq)

/-- RACK_BUSY_RETRY (R412): 10 ms after a BUSY refusal the device resends its READ_REQ. -/
def execRackBusyRetry (parcel stream : Nat) (s : State) : Host.Outcome State Fault Refusal :=
  if 4 ≤ parcel then .refused .noSuchUnit
  else .next (match s.rack parcel stream with
    | none => s
    | some r => if r.running && r.busy then (s.modRack parcel stream (fun r => { r with busy := false })).sendReadReq r 0 (segCount r.f.len) else s)

/-- OFFER_RESEND (R417): The export OFFER is resent every 10 ms, giving up after 100 attempts. -/
def execOfferResend (parcel stream : Nat) (s : State) : Host.Outcome State Fault Refusal :=
  if 4 ≤ parcel then .refused .noSuchUnit
  else .next (match s.offering parcel stream with
    | some e => if e.offers = 0 then s else if 100 ≤ e.offers then s.exportOver parcel (Ans.err 0x0502) else s.sendOffer parcel
    | none => s)

end Sys2Proof.Machine
end

