-- ==== Sys2Proof/Machine/Frames.lean ====
section
/-! DEFINITION. What a received Ethernet frame does (19 R406, R407, R409, R418): the MAC's checks, and the datagram or message it brings. -/

namespace Sys2Proof.Machine
open Sys2Proof

/-- Does the MAC accept a frame of this length (R406)? -/
def Tap.accepts (x : Tap) (len : Nat) : Bool := decide (64 ≤ len) && decide (len ≤ min (x.mtu + 18) 9216)
/-- The conditions of R407 that the MAC sees. -/
def State.macDiscards (s : State) (f : Frame) : Bool :=
  !f.fcsOk || f.vlan || !([0x0800#16, 0x86DD#16, 0x0806#16].contains f.etherType) ||
    (decide (f.dst ≠ (s.tap f.tap).subMac f.sub) && decide (f.dst ≠ BitVec.allOnes 48))
/-- Does a UDP port belong to the Pour service of the port's parcel? -/
def State.pourPort (s : State) (t port : Nat) : Option Nat :=
  (List.range 4).find? (fun p => (s.parcel p).pour.serving && (s.parcel p).pour.taps.getLsbD t && decide ((s.parcel p).pour.udpPort = port))
/-- Is it an open rack stream's LOCAL_PORT on the sub-link? -/
def State.rackPort (s : State) (t u port : Nat) : Bool :=
  (List.range 4).any (fun p => (s.parcel p).racks.any (fun e => decide (tapOf e.2.f.tap = some (t, u)) && decide (e.2.f.localPort = port)) ||
    (match (s.parcel p).exp with
      | some e => decide (tapOf e.f.tap = some (t, u)) && decide (e.f.localPort = port)
      | none => false))
/-- A rack datagram, by its TYPE (R409, R410). -/
def State.rackFrame (s : State) (f : Frame) : Host.Outcome State Fault Refusal :=
  let a : PeerAddr := { tap := f.tap, sub := f.sub, ip := f.srcIp, sport := f.srcPort, dport := f.dstPort }
  let h := hdrOf f.payload
  let b : Bytes := f.payload.drop 32
  if f.payload.length < 32 then .next (s.rxDiscard f.tap f.sub)
  else match h.type.toNat with
    | 1 => s.rackIn a h 1 (State.readReqIn h (b.leAt 16 8) (b.leAt 24 4))
    | 2 => s.rackIn a h 2 (State.dataIn h b)
    | 3 => s.rackIn a h 3 (State.sackIn h)
    | 4 => s.rackIn a h 4 (State.creditIn h)
    | 5 => s.rackIn a h 5 (State.failIn h)
    | _ => s.rackIn a h 7 (fun _ s => s)
/-- A UDP datagram (R407, R409, 20 R422). -/
def State.udpIn (s : State) (f : Frame) : Host.Outcome State Fault Refusal :=
  match s.pourPort f.tap f.dstPort with
  | some p => .next (s.pourIn p (.datagram f.tap f.sub f.srcIp f.srcPort) f.payload none).1
  | none => if s.rackPort f.tap f.sub f.dstPort then s.rackFrame f else .next (s.rxDiscard f.tap f.sub)
/-- An ICMP message in payload: echo requests and neighbour solicitations are answered, no other is acted on (R406). -/
def State.icmpIn (s : State) (f : Frame) (v6 : Bool) : State :=
  let ty := f.payload.leAt 0 1
  if v6 then
    if ty = 128 then s.echoIn f.tap f.sub true f.srcIp f.dstIp (f.payload.drop 4)
    else if ty = 135 then s.ndpIn f.tap f.sub f.src f.srcIp (BitVec.ofNat 128 (beNat (f.payload.slice 8 16)))
    else s
  else if ty = 8 then s.echoIn f.tap f.sub false f.srcIp f.dstIp (f.payload.drop 4)
  else s
/-- An ARP request in payload: operation 1, sender IP at 14, target IP at 24. -/
def State.arpFrame (s : State) (f : Frame) : State :=
  if beNat (f.payload.slice 6 2) = 1 then
    s.arpIn f.tap f.sub f.src (BitVec.ofNat 32 (beNat (f.payload.slice 14 4))) (BitVec.ofNat 32 (beNat (f.payload.slice 24 4)))
  else s
/-- Is it a neighbour solicitation? It goes to a group of hosts, and its target names the address it asks for. -/
def solicits (f : Frame) : Bool := decide (f.etherType = 0x86DD#16) && !f.isUdp && decide (f.payload.leAt 0 1 = 135)
/-- A frame that the MAC passes up (R406): IPv4 fragments, IPv6 extension headers, other hosts' addresses and bad UDP checksums go no
further. -/
def State.frameUp (s : State) (f : Frame) : Host.Outcome State Fault Refusal :=
  let v6 := decide (f.etherType = 0x86DD#16)
  if f.etherType = 0x0806#16 then .next (s.arpFrame f)
  else if !f.ipOk || (!v6 && f.fragment) || (v6 && f.extHeader) || !(s.ownIp f.tap f.sub v6 f.dstIp || solicits f) then .next s
  else if !f.isUdp then .next (s.icmpIn f v6)
  else if !f.udpChecksumOk then .next s
  else s.udpIn f
/-- FRAME_RECEIVE (R407): The MAC receives a frame and discards it or passes it up. -/
def execFrameReceive (f : Frame) (s : State) : Host.Outcome State Fault Refusal :=
  if 8 ≤ f.tap ∨ 4 ≤ f.sub then .refused .noSuchUnit
  else if !(s.subLink f.tap f.sub).link then .next s
  else
    let s := (s.subCount f.tap f.sub skFecCorrected f.fecCorrected).subCount f.tap f.sub skFecUncorrected f.fecUncorrected
    let s := if f.fcsOk then s.subCount f.tap f.sub skFramesIn 1 else s
    if s.macDiscards f then .next (s.rxDiscard f.tap f.sub)
    else if !(s.tap f.tap).accepts f.len then .next s
    else s.frameUp f

end Sys2Proof.Machine
end

