-- ==== Sys2Proof/Machine/LoaderForm.lean ====
section
/-! DEFINITION. The loader's checks of an image's container and tables (22 R458-R476, R477 stages 1 and 4). Every check answers the
rejections it finds, each a loader code of R478 with the offset of the item that breaks the rule. -/

namespace Sys2Proof.Machine
open Sys2Proof

/-- Rejections: loader code and offset. -/
abbrev Rejs := List (Nat × Nat)
def rej (bad : Bool) (code off : Nat) : Rejs := if bad then [(code, off)] else []
/-- The lowest code, then the lowest offset under it (R477). -/
def Rejs.worst : Rejs → Option (Nat × Nat)
  | [] => none
  | x :: xs => match Rejs.worst xs with
    | none => some x
    | some y => if y.1 < x.1 ∨ (y.1 = x.1 ∧ y.2 < x.2) then some y else some x

def dirAt (i : Nat) : Nat := 64 + 72 * i
/-- Entries of the directory with the offset of each. -/
def imgDirAt (bs : Bytes) : List (Nat × Sect) := (enumFrom 0 (imgDir bs)).map (fun e => (dirAt e.1, e.2))
def secOff (bs : Bytes) (t : Nat) : Nat := ((imgFind bs t).map (fun s => s.off)).getD 12
def imgFlag (bs : Bytes) : Nat := bs.leAt 10 2
def imgSill (bs : Bytes) : Bool := imgFlag bs % 2 == 1
def imgPro (bs : Bytes) : Bool := imgFlag bs / 2 % 2 == 1
def imgPour (bs : Bytes) : Bool := bs.leAt 7 1 == 1

/-- Stage 1: the stream and IMAGE_BYTES (R477). -/
def rejStream (bs : Bytes) (imageBytes : Nat) : Rejs :=
  let total := imgTotal bs
  rej (decide (bs.length < imageBytes) || decide ((imageBytes + 63) / 64 * 64 < bs.length) || (decide (imageBytes ≠ total) && decide (imageBytes ≠ total + 112)))
    2 16

/-- HEADER and STEPPING (R459, R460). -/
def rejHeader (bs : Bytes) : Rejs :=
  rej (decide (bs.leAt 0 4 ≠ 0x4E4B5545)) 1 0 ++ rej (decide (bs.leAt 4 2 ≠ 1)) 1 4 ++ rej (decide (bs.leAt 6 1 ≠ 0xA0)) 5 6 ++
    rej (decide (1 < bs.leAt 7 1)) 1 7 ++ rej (decide (8 ≤ bs.leAt 9 1)) 1 9 ++ rej (decide (4 ≤ imgFlag bs)) 1 10 ++
    rej (decide (imgNsect bs < 7) || decide (15 < imgNsect bs)) 1 12 ++ rej (decide (2 ^ 20 < bs.leAt 24 4)) 1 24 ++ rej (decide (bs.leAt 28 4 ≠ 0)) 1 28 ++
    rej (!allZero (bs.slice 48 16)) 1 48 ++ (imgDirAt bs).flatMap (fun e => rej (decide (e.2.rsv ≠ 0)) 1 e.1)

/-- The end of a section's targeted records, and of REST's records. -/
def recordsEnd (bs : Bytes) (size : Nat) : Nat → Nat → Nat
  | 0, o => o
  | k + 1, o => recordsEnd bs size k (o + 16 + size * bs.leAt (o + 8) 4)
/-- The length that a section's layout gives it. -/
def layoutLen (bs : Bytes) (s : Sect) : Nat :=
  let few := min s.count (s.len / 16 + 1)
  match s.type with
  | 1 => 32 * s.count
  | 4 => 32 + 16 * s.count
  | 7 => 40 * s.count
  | 8 => 8 * s.count
  | 9 => recordsEnd bs 8 few s.off - s.off
  | 10 => 32 * s.count
  | 11 => 24 * s.count
  | 12 => 8
  | 13 => 16 + 32 * (bs.leAt s.off 4 + bs.leAt (s.off + 4) 4)
  | 14 => 400 + bs.leAt (s.off + 36) 4
  | 15 => 8 * s.count
  | 0 => s.len
  | t => if 15 < t then s.len else recordsEnd bs (itemSize t) few s.off - s.off

def Sect.fin (s : Sect) : Nat := s.off + s.len
/-- The first byte between sections that is not 0 (R458). -/
def gapByte (bs : Bytes) : Option Nat :=
  let ds := imgDir bs
  let lo := dirAt (imgNsect bs)
  (List.range (imgTotal bs - lo)).findSome? (fun i =>
    let o := lo + i
    if bs.leAt o 1 ≠ 0 ∧ !(ds.any (fun s => decide (s.off ≤ o) && decide (o < s.fin))) then some o else none)
/-- LENGTH of the sections (R458). -/
def rejLayout (bs : Bytes) : Rejs :=
  let es := imgDirAt bs
  es.flatMap (fun e =>
    let s := e.2
    rej (decide (s.off % 64 ≠ 0) || decide (s.off < dirAt (imgNsect bs)) || decide (imgTotal bs < s.fin) || decide (layoutLen bs s ≠ s.len) ||
      es.any (fun f => decide (f.1 < e.1) && decide (s.off < f.2.fin) && decide (f.2.off < s.fin))) 2 e.1) ++
    (match gapByte bs with
     | some o => [(2, o)]
     | none => [])
/-- SECTION_SET (R461). ROUTE and CGRP depend on the plan and are checked with it. -/
def rejSet (bs : Bytes) : Rejs :=
  let es := imgDirAt bs
  let has := fun t => es.any (fun e => decide (e.2.type = t))
  es.flatMap (fun e => rej (decide (e.2.type = 0) || decide (15 < e.2.type) || es.any (fun f => decide (f.1 < e.1) && decide (f.2.type = e.2.type))) 3 e.1) ++
    rej ([1, 2, 3, 4, 7, 9, 12].any (fun t => !has t) || has 6 != imgSill bs || has 14 != imgPour bs || (imgPour bs && (has 10 || has 13))) 3 12
/-- SECTION_DIGEST (R460). -/
def rejDigests (bs : Bytes) : Rejs :=
  (imgDirAt bs).flatMap (fun e => rej (decide ((sha384Val (bs.slice e.2.off e.2.len)).toNat ≠ e.2.digest)) 4 e.1)
/-- SIGNATURE_BLOCK (R463). -/
def rejSigBlock (bs : Bytes) (imageBytes : Nat) : Rejs :=
  let o := imgTotal bs
  if imageBytes = o + 112 then rej (decide (bs.leAt o 4 ≠ 0x47495345)) 7 o ++ rej (decide (bs.leAt (o + 8) 8 ≠ 0)) 7 (o + 8) else []
/-- Stage 1 of R477. Lengths that do not fit leave nothing to look at behind them. -/
def rejStage1 (bs : Bytes) (imageBytes : Nat) : Rejs :=
  let a := rejStream bs imageBytes ++ rejHeader bs
  if a.any (fun x => x.1 < 3) then a
  else
    let b := rejLayout bs
    if b ≠ [] then a ++ b else a ++ rejSet bs ++ rejDigests bs ++ rejSigBlock bs imageBytes

/-- The signature block's key and signature, and whether the signature passes R455 against a key table. -/
def imgSigOk (s : State) (bs : Bytes) (imageBytes : Nat) : Bool :=
  let o := imgTotal bs
  let need := s.sealU.keys.any (fun k => k.use_ % 2 == 1)
  if imageBytes = o + 112 then
    s.sealU.keys.any (fun k => decide (k.id = bs.leAt (o + 4) 4) && (!need || k.use_ % 2 == 1) &&
      ecdsaVerify (bytesPoint k.pub) (sha384 (digestBytes (imgDigest bs))) (bs.leAt (o + 16) 48) (bs.leAt (o + 64) 48))
  else !need

/-- The bays of a shape by relative coordinates, with their PLACE entries. -/
def imgBays (bs : Bytes) (w h : Nat) : List (Nat × Nat × Place) :=
  (List.range (12 * h)).flatMap (fun y => (List.range (12 * w)).map (fun x => (x, y, imgPlace bs w x y)))
/-- The records of a section that a bay receives. -/
def bayRecs (bs : Bytes) (t : Nat) (x y : Nat) (pl : Place) : List Rec := (imgRecs bs t (itemSize t)).filter (fun r => r.hits pl.groups x y)
def inRecs (rs : List Rec) (i : Nat) : Bool := rs.any (fun r => decide (r.first ≤ i) && decide (i < r.first + r.n))

/-- PLACE (R464). -/
def rejPlace (bs : Bytes) (w h : Nat) : Rejs :=
  let o := secOff bs 1
  rej (decide (((imgFind bs 1).map (fun s => s.count)).getD 0 ≠ 144 * w * h)) 6 o ++
    (enumFrom 0 (imgBays bs w h)).flatMap (fun e =>
      let at_ := o + 32 * e.1
      let pl := e.2.2.2
      let rs := bayRecs bs 2 e.2.1 e.2.2.1 pl
      rej (decide (bs.leAt (at_ + 4) 4 ≠ 0) || decide (bs.leAt (at_ + 24) 8 ≠ 0)) 6 at_ ++
        rej (!inRecs rs pl.body || (if imgPro bs then !inRecs rs pl.prologue else decide (pl.prologue ≠ 0xFFFF) || decide (pl.resident ≠ 0#64))) 8 at_)

/-- Indices of a section's items (R465). -/
def itemRange : Nat → Nat
  | 2 => 16384
  | 5 => 1024
  | _ => 4096
/-- TABLE_FORM of targeted records (R465): each record's form, and no index of a bay written twice. -/
def rejRecords (bs : Bytes) (w h t : Nat) : Rejs :=
  let rs := imgRecs bs t (itemSize t)
  let bays := imgBays bs w h
  (enumFrom 0 rs).flatMap (fun e =>
    let r := e.2
    let form := (if r.dkind = 0 then decide (12 * w ≤ r.a) || decide (12 * h ≤ r.b) else decide (1 < r.dkind) || decide (t = 5) || decide (63 < r.a) || decide (r.b ≠ 0)) ||
      decide (r.rsv ≠ 0) || decide (r.n = 0) || decide (itemRange t < r.first + r.n)
    let again := (rs.take e.1).filter (fun q => decide (q.first < r.first + r.n) && decide (r.first < q.first + q.n) &&
      bays.any (fun b => q.hits b.2.2.groups b.1 b.2.1 && r.hits b.2.2.groups b.1 b.2.1))
    rej form 6 r.at_ ++ again.map (fun q => (6, r.at_ + 16 + itemSize t * (q.first - r.first)))) ++
    (if t = 5 then rs.flatMap (fun r => (List.range r.n).flatMap (fun i =>
      let o := r.at_ + 16 + 16 * i
      rej (decide (bs.leAt o 1 = 0) || decide (2 < bs.leAt o 1) || decide (1 < bs.leAt (o + 1) 1) || decide (bs.leAt (o + 2) 2 = 0) || decide (256 < bs.leAt (o + 2) 2) ||
        !allZero (bs.slice (o + 10) 6)) 6 o))
     else [])

/-- A run of the peg table at an offset. -/
def pegRun (bs : Bytes) (o : Nat) : PegRun := { first := bs.leAt o 8, interval := bs.leAt (o + 8) 4, repeat_ := bs.leAt (o + 12) 4 }
def PegRun.last (r : PegRun) : Nat := r.first + (r.repeat_ - 1) * r.interval
/-- The parts of PEG (R466). -/
def imgBodyCount (bs : Bytes) : Nat := bs.leAt (secOff bs 4) 8
def imgProCount (bs : Bytes) : Nat := bs.leAt (secOff bs 4 + 8) 8
def imgNrun (bs : Bytes) : Nat := bs.leAt (secOff bs 4 + 16) 4
def imgNprun (bs : Bytes) : Nat := bs.leAt (secOff bs 4 + 20) 4
def imgRunsAt (bs : Bytes) (from_ n : Nat) : List (Nat × PegRun) :=
  (List.range n).map (fun i => let o := secOff bs 4 + 32 + 16 * (from_ + i); (o, pegRun bs o))
def imgRuns (bs : Bytes) : List PegRun := (imgRunsAt bs 0 (imgNrun bs)).map (fun e => e.2)
def imgPruns (bs : Bytes) : List PegRun := (imgRunsAt bs (imgNrun bs) (imgNprun bs)).map (fun e => e.2)
/-- The widest gap between consecutive pegs (06 R124). -/
def pegGap : Nat := 2 ^ 20
/-- Runs of one list: the first at 0, each after the one before it, no gap wider than R124 allows. -/
def rejRuns : Option Nat → List (Nat × PegRun) → Rejs
  | _, [] => []
  | prev, (o, r) :: rs =>
    let starts := match prev with
      | none => decide (r.first ≠ 0)
      | some p => decide (r.first ≤ p) || decide (p + pegGap < r.first)
    rej (starts || decide (r.repeat_ = 0) || (decide (1 < r.repeat_) && (decide (r.interval = 0) || decide (pegGap < r.interval)))) 9 o ++ rejRuns (some r.last) rs
/-- COUNTS of the peg table (R466). -/
def rejPegs (bs : Bytes) : Rejs :=
  let o := secOff bs 4
  let body := imgRunsAt bs 0 (imgNrun bs)
  let pro := imgRunsAt bs (imgNrun bs) (imgNprun bs)
  let lastOf := fun (l : List (Nat × PegRun)) => (l.getLast?.map (fun e => e.2.last)).getD 0
  rej (!allZero (bs.slice (o + 24) 8)) 6 o ++
    rej (decide (((imgFind bs 4).map (fun s => s.count)).getD 0 ≠ imgNrun bs + imgNprun bs) || decide (imgNrun bs = 0) ||
      (!imgPro bs && (decide (imgProCount bs ≠ 0) || decide (imgNprun bs ≠ 0))) || (imgPro bs && (decide (imgNprun bs = 0) || decide (lastOf pro + 1 ≠ imgProCount bs))) ||
      decide (imgBodyCount bs ≤ lastOf body) || decide (lastOf body + pegGap < imgBodyCount bs)) 9 o ++ rejRuns none body ++ rejRuns none pro

/-- An entry of REGION (R469), with its offset and relative cask. -/
structure ImgRegion where
  at_ : Nat
  rcask : Nat
  useCode : Nat
  kindCode : Nat
  rsv : Nat
  r : Region
  deriving DecidableEq, Repr
def useOf : Nat → RegionUse
  | 0 => .weight
  | 1 => .landing
  | 2 => .kv
  | 3 => .scratch
  | _ => .vintage
def kindOf : Nat → RegionKind
  | 0 => .interleaved
  | 1 => .channelLocal
  | _ => .replicated
def imgRegions (bs : Bytes) : List ImgRegion :=
  let s := imgFind bs 7
  (List.range ((s.map (fun s => s.count)).getD 0)).map (fun i =>
    let o := (s.map (fun s => s.off)).getD 0 + 40 * i
    { at_ := o, rcask := bs.leAt o 1, useCode := bs.leAt (o + 1) 1, kindCode := bs.leAt (o + 2) 1, rsv := bs.leAt (o + 4) 4 + bs.leAt (o + 32) 8
      r := { base := bs.leAt (o + 8) 8, size := bs.leAt (o + 16) 8, kind := kindOf (bs.leAt (o + 2) 1), use_ := useOf (bs.leAt (o + 1) 1), chan := bs.leAt (o + 3) 1
             lb := bs.leAt (o + 24) 8, digest := 0, digestValid := false, closing := false, written := false } })
/-- The regions of a relative cask. -/
def imgCaskRegions (bs : Bytes) (rc : Nat) : List Region := ((imgRegions bs).filter (fun e => e.rcask = rc)).map (fun e => e.r)

/-- Local addresses that a region uses on each of its channels (09 R178). -/
def Region.localLen (r : Region) : Nat := match r.kind with
  | .interleaved => r.size / 32
  | _ => r.size
/-- Do two regions meet in offset, or in channel and local address (09 R178)? -/
def Region.meets (a b : Region) : Bool :=
  (decide (a.base < b.base + b.extent) && decide (b.base < a.base + a.extent)) ||
    (decide (a.lb < b.lb + b.localLen) && decide (b.lb < a.lb + a.localLen) &&
      (decide (a.kind ≠ .channelLocal) || decide (b.kind ≠ .channelLocal) || decide (a.chan = b.chan)))
/-- Two slots of 664 MiB (11 R238). -/
def slotsLen : Nat := 2 * (664 * 2 ^ 20)
/-- REGION (R469, 09 R178, 11 R238). -/
def rejRegions (bs : Bytes) (w h : Nat) : Rejs :=
  let rs := imgRegions bs
  (enumFrom 0 rs).flatMap (fun e =>
    let x := e.2
    let r := x.r
    let before := (rs.take e.1).filter (fun y => y.rcask = x.rcask)
    rej (decide (2 * w * h ≤ x.rcask) || decide (4 < x.useCode) || decide (2 < x.kindCode) || decide (x.rsv ≠ 0)) 6 x.at_ ++
      rej (decide (r.base % 8192 ≠ 0) || decide (r.size % 8192 ≠ 0) || decide (r.lb % 256 ≠ 0) || decide (2 ^ 37 < r.base + r.extent) ||
        decide (chanSpan < r.lb + r.localLen) || (if r.kind = .channelLocal then decide (31 < r.chan) else decide (r.chan ≠ 0)) ||
        before.any (fun y => y.r.meets r) ||
        (decide (r.use_ = .vintage) && (decide (r.kind ≠ .interleaved) || before.any (fun y => decide (y.r.use_ = .vintage)) || decide (r.size < slotsLen)))) 0x301 x.at_) ++
    rej ((List.range (2 * w * h)).any (fun rc => !(imgCaskRegions bs rc).any (fun r => decide (r.use_ = .vintage)))) 0x301 (secOff bs 7)
/-- The region of a relative cask that holds a range, if its use is among those named. -/
def imgHolds (bs : Bytes) (rc off len : Nat) (uses : List RegionUse) : Bool :=
  (imgCaskRegions bs rc).any (fun r => uses.contains r.use_ && r.holds off len)

/-- CGRP (R471). -/
def rejGroups (bs : Bytes) (w h : Nat) : Rejs :=
  match imgFind bs 8 with
  | none => []
  | some s => rej (decide (s.count ≠ 64)) 6 s.off ++ (List.range s.count).flatMap (fun i => rej (decide (2 ^ (2 * w * h) ≤ bs.leAt (s.off + 8 * i) 4)) 6 (s.off + 8 * i))

/-- A record of REST (R472). -/
structure RestRec where
  at_ : Nat
  rcask : Nat
  rsv : Nat
  period : Nat
  raw : List (Nat × Nat × Nat × Nat)
  deriving DecidableEq, Repr
def restRecords (bs : Bytes) : Nat → Nat → List RestRec
  | 0, _ => []
  | k + 1, o =>
    let n := bs.leAt (o + 8) 4
    { at_ := o, rcask := bs.leAt o 1, rsv := bs.leAt (o + 1) 3 + bs.leAt (o + 12) 4, period := bs.leAt (o + 4) 4
      raw := (List.range n).map (fun i => let q := o + 16 + 8 * i; (bs.leAt q 4, bs.leAt (q + 4) 2, bs.leAt (q + 6) 1, bs.leAt (q + 7) 1)) }
      :: restRecords bs k (o + 16 + 8 * n)
def imgRest (bs : Bytes) : List RestRec := match imgFind bs 9 with
  | some s => restRecords bs s.count s.off
  | none => []
def RestRec.windows (r : RestRec) : List Window := r.raw.map (fun w => { first := w.1, len := w.2.1, rest := decide (w.2.2.1 = 0) })
/-- REST frames among the first n of the schedule. -/
def restUpTo (p : Nat) (ws : List Window) (n : Nat) : Nat :=
  let one := fun m => (ws.filter (fun w => w.rest)).foldl (fun a w => a + min w.len (m - w.first)) 0
  n / p * one p + one (n % p)
/-- Does every run of 780 frames hold 52 REST frames (09 R191)? A run that holds fewest starts behind a window, ends before one, or starts
a period. -/
def restOften (p : Nat) (ws : List Window) : Bool :=
  decide (0 < p) && (0 :: ws.flatMap (fun w => [(w.first + w.len) % p, (w.first + 780 * p - 780) % p])).all (fun a =>
    decide (52 ≤ restUpTo p ws (a + 780) - restUpTo p ws a))
/-- TABLE_FORM of the windows from an offset: in order, apart, within the period, of a kind that is not reserved (R472). -/
def rejWindows (p : Nat) : Nat → Nat → List (Nat × Nat × Nat × Nat) → Rejs
  | _, _, [] => []
  | o, lo, (first, len, kind, rsv) :: ws =>
    rej (decide (first < lo) || decide (len = 0) || decide (p < first + len) || decide (1 < kind) || decide (rsv ≠ 0)) 6 o ++
      rejWindows p (o + 8) (max lo (first + len)) ws
/-- REST (R472, 09 R191): a window that is no good, and what holds of a cask's whole schedule. -/
def rejRest (bs : Bytes) (w h : Nat) : Rejs :=
  let rs := imgRest bs
  (enumFrom 0 rs).flatMap (fun e =>
    let r := e.2
    let ws := r.windows
    let land : Nat := (ws.filter (fun x => !x.rest)).foldl (fun a x => a + x.len) 0
    rej (decide (2 * w * h ≤ r.rcask) || decide (r.rsv ≠ 0) || (rs.take e.1).any (fun y => decide (y.rcask = r.rcask))) 6 r.at_ ++
      rejWindows r.period (r.at_ + 16) 0 r.raw ++
      (enumFrom 0 ws).flatMap (fun x => rej (x.2.rest && decide (x.2.len < 52)) 0x308 (r.at_ + 16 + 8 * x.1)) ++
      rej (!restOften r.period ws || decide (r.period < 2 * land)) 0x308 r.at_) ++
    rej ((List.range (2 * w * h)).any (fun rc => !rs.any (fun r => decide (r.rcask = rc)))) 0x308 (secOff bs 9)

/-- Entries of 32 bytes: RCASK, OFF and LEN, with DUE where the layout has one (R467, R474). -/
def ent32 (bs : Bytes) (o : Nat) : Nat × Nat × Nat := (bs.leAt o 1, bs.leAt (o + 8) 8, bs.leAt (o + 16) 8)
def imgAwaits (bs : Bytes) : List (Nat × Await) := match imgFind bs 10 with
  | none => []
  | some s => (List.range s.count).map (fun i =>
    let o := s.off + 32 * i
    let e := ent32 bs o
    (o, { rcask := e.1, off := e.2.1, len := e.2.2, due := bs.leAt (o + 24) 4, landed := false, locked := false, got := [] }))
/-- AWAIT (R467). -/
def rejAwaits (bs : Bytes) : Rejs :=
  let es := imgAwaits bs
  es.flatMap (fun e =>
    let a := e.2
    rej (!allZero (bs.slice (e.1 + 1) 7) || decide (bs.leAt (e.1 + 28) 4 ≠ 0)) 6 e.1 ++
      rej (decide (a.len % 64 ≠ 0) || !imgHolds bs a.rcask a.off a.len [.weight, .landing] || decide (a.due = 0) || decide (pegTotal (imgRuns bs) < a.due) ||
        es.any (fun f => decide (f.1 < e.1) && decide (f.2.rcask = a.rcask) && decide (f.2.off < a.off + a.len) && decide (a.off < f.2.off + f.2.len))) 0x401 e.1)

/-- PHASE (R468). -/
def imgPhases (bs : Bytes) : List (Nat × PhaseEnt) := match imgFind bs 11 with
  | none => []
  | some s => (List.range s.count).map (fun i =>
    let o := s.off + 24 * i
    (o, { phase := bs.leAt o 1, sigma := bs.leAt (o + 2) 2, tref := bs.leAt (o + 4) 2, irise := bs.leAt (o + 6) 2, pdyn := bs.leAt (o + 8) 4
          pleak := bs.leAt (o + 12) 4, pcask := bs.leAt (o + 16) 4, occ := 0 }))
def rejPhases (bs : Bytes) : Rejs :=
  let es := imgPhases bs
  es.flatMap (fun e => rej (decide (bs.leAt (e.1 + 1) 1 ≠ 0) || decide (bs.leAt (e.1 + 20) 4 ≠ 0)) 6 e.1 ++
    rej (es.any (fun f => decide (f.1 < e.1) && decide (f.2.phase = e.2.phase))) 0x405 e.1)

/-- TASTE (R473). -/
def imgTaste (bs : Bytes) : Nat := bs.leAt (secOff bs 12) 2
def rejTasteForm (bs : Bytes) : Rejs :=
  let o := secOff bs 12
  rej (!(([16, 32, 64, 128, 256] : List Nat).contains (imgTaste bs)) || !allZero (bs.slice (o + 2) 6)) 6 o

/-- LABEL (R474): the entries from one index, each with its offset. -/
def imgLabel (bs : Bytes) (output : Bool) : List (Nat × Nat × Nat × Nat) := match imgFind bs 13 with
  | none => []
  | some s =>
    let nin := bs.leAt s.off 4
    (List.range (if output then bs.leAt (s.off + 4) 4 else nin)).map (fun i =>
      let o := s.off + 16 + 32 * (if output then nin + i else i)
      (o, ent32 bs o))
def rejLabel (bs : Bytes) : Rejs :=
  let one := fun (uses : List RegionUse) (e : Nat × Nat × Nat × Nat) =>
    rej (!allZero (bs.slice (e.1 + 1) 7) || !allZero (bs.slice (e.1 + 24) 8)) 6 e.1 ++ rej (!imgHolds bs e.2.1 e.2.2.1 e.2.2.2 uses) 0x402 e.1
  rej ((imgFind bs 13).isSome && !allZero (bs.slice (secOff bs 13 + 8) 8)) 6 (secOff bs 13) ++
    (imgLabel bs false).flatMap (one [.landing, .kv, .scratch]) ++ (imgLabel bs true).flatMap (one [.kv, .scratch])

/-- POUR (R475). -/
def imgPourDecl (bs : Bytes) : Option PourDecl := (imgFind bs 14).map (fun s =>
  let w4 := fun i => bs.leAt (s.off + 8 + 4 * i) 4
  let w8 := fun i => bs.leAt (s.off + 44 + 8 * i) 8
  { stepCount := bs.leAt s.off 8, rows := w4 0, prefillRows := w4 1, slots := w4 2, vocab := w4 3, maxPos := w4 4, rowsPerPage := w4 5, maxBlocks := w4 6
    nsets := w4 7, sampler := bs.leAt (s.off + 40) 2, stepTable := w8 0, pageMap := w8 1, records := w8 2, tokenBlock := w8 3
    pool := (List.range 20).map (fun c => (bs.leAt (s.off + 80 + 16 * c) 8, bs.leAt (s.off + 88 + 16 * c) 4))
    setCask := (List.range (w4 7)).map (fun j => bs.leAt (s.off + 400 + j) 1) })
def inRange (v lo hi : Nat) : Bool := decide (lo ≤ v) && decide (v ≤ hi)
/-- Does a cask offset in DADDR form lie with its bytes in a region of these uses? -/
def imgAddrOk (bs : Bytes) (a len : Nat) (uses : List RegionUse) : Bool := decide (a < 2 ^ 42) && imgHolds bs (daddrCask a) (daddrOff a) len uses
def rejPour (bs : Bytes) (w h : Nat) : Rejs :=
  match imgPourDecl bs with
  | none => []
  | some d =>
    let o := secOff bs 14
    rej (decide (bs.leAt (o + 42) 2 ≠ 0) || decide (bs.leAt (o + 76) 4 ≠ 0) || (List.range 20).any (fun c => decide (bs.leAt (o + 92 + 16 * c) 4 ≠ 0))) 6 o ++
      rej (decide (d.stepCount ≠ imgBodyCount bs) || !inRange d.rows 1 16384 || !inRange d.prefillRows 1 d.rows || !inRange d.slots 1 4096 ||
        !inRange d.vocab 2 16777216 || !inRange d.rowsPerPage 1 65536 || !inRange d.maxPos 2 (d.rowsPerPage * d.maxBlocks) ||
        decide (d.maxBlocks ≠ (d.maxPos + d.rowsPerPage - 1) / d.rowsPerPage) || !inRange d.nsets 1 4096 || decide (d.sampler ≠ 1) ||
        d.setCask.any (fun c => decide (2 * w * h ≤ c)) || !imgAddrOk bs d.stepTable (32 * d.rows) [.landing] ||
        !imgAddrOk bs d.pageMap (4 * d.slots * d.maxBlocks * d.nsets) [.landing] || !imgAddrOk bs d.records 1 [.landing] ||
        !imgAddrOk bs d.tokenBlock (4 * d.rows) [.kv, .scratch] ||
        (enumFrom 0 d.pool).any (fun e =>
          let need := d.maxBlocks * (d.setCask.filter (fun c => c = e.1)).length
          decide (e.2.2 < need) || (decide (0 < e.2.2) && !((imgCaskRegions bs e.1).any (fun r => decide (r.use_ = .kv) && decide (r.base = e.2.1) &&
            r.holds e.2.1 (65536 * e.2.2)))))) 0x403 o

/-- LIBRARY (R476). -/
def rejLibrary (bs : Bytes) (w h : Nat) : Rejs :=
  match imgFind bs 15 with
  | none => []
  | some s => (List.range s.count).flatMap (fun i =>
    let o := s.off + 8 * i
    let x := bs.leAt o 1
    let y := bs.leAt (o + 1) 1
    let anch := bs.leAt (o + 6) 2
    let var := bs.leAt (o + 5) 1
    let here := decide (x < 12 * w) && decide (y < 12 * h) && inRecs (bayRecs bs 2 x y (imgPlace bs w x y)) (bs.leAt (o + 2) 2)
    rej (!inRange (bs.leAt (o + 4) 1) 1 3) 6 o ++
    rej (!here || !inRange (bs.leAt (o + 4) 1) 1 3 || decide (1 < var) || (if var = 0 then decide (anch ≠ 0) else decide (512 ≤ anch) || !anchorOk (signedOf 9 anch))) 0x404 o)

/-- Every table of an image (R477 stage 4). -/
def rejTables (bs : Bytes) (w h : Nat) : Rejs :=
  rejPlace bs w h ++ [2, 3, 5, 6].flatMap (rejRecords bs w h) ++ rejPegs bs ++ rejRegions bs w h ++ rejGroups bs w h ++ rejRest bs w h ++ rejAwaits bs ++
    rejPhases bs ++ rejTasteForm bs ++ rejLabel bs ++ rejPour bs w h ++ rejLibrary bs w h

end Sys2Proof.Machine
end

