-- ==== Sys2Proof/Machine/LoaderPlan.lean ====
section
/-! DEFINITION. The loader's checks of each bundle, sill descriptor and route entry on its own (22 R478 ENCODING, PREDICATE, STOCHASTIC,
SILL_DESC, ROUTE; 07 R132, 08 R155, R156, 10 R204-R208). -/

namespace Sys2Proof.Machine
open Sys2Proof

/-- The items of a record with the offset of each. -/
def Rec.items (r : Rec) (t : Nat) : List (Nat × Nat) := (List.range r.n).map (fun i => (i, r.at_ + 16 + itemSize t * i))
/-- The item that a bay's records give an index. -/
def itemOff (rs : List Rec) (t i : Nat) : Option Nat :=
  (rs.find? (fun r => decide (r.first ≤ i) && decide (i < r.first + r.n))).map (fun r => r.at_ + 16 + itemSize t * (i - r.first))

/-- A slot with its PRED cleared: every predicate is taken as on. -/
def noPred (w : Nat) : Nat := w / 16 * 16
/-- A bundle with every PRED cleared. -/
def bundleOn (w : BitVec 256) : BitVec 256 :=
  w &&& ~~~(BitVec.ofNat 256 (15 * (1 + 2 ^ 32 + 2 ^ 96 + 2 ^ 144 + 2 ^ 176 + 2 ^ 224)))

/-- Rounding code of an instruction that rounds (03 R50, 04 R74, R83): DRAIN, TDRAIN, CVT.PACK, CVT.F2I. -/
def rmOf : Instr → Nat
  | .drain _ _ _ f => f.rm.toNat
  | .tdrain _ _ f => f.vb.toNat / 16
  | .cvtPack _ _ f => f.vb.toNat / 16
  | .cvtF2i _ _ f => f.vb.toNat % 4
  | _ => 0

/-- What one slot breaks: an instruction that only its PRED makes invalid breaks R117 or R120, any other bad slot R132. -/
def rejSlot (dec : Nat → Option Instr) (predCode w off : Nat) : Rejs :=
  if slotBad w (dec w) then (if predCode ≠ 0 ∧ noPred w ≠ w ∧ (dec (noPred w)).isSome then [(predCode, off)] else [(0x101, off)]) else []
def slotDecoders (b : BayId) (w : BitVec 256) : List (Option Instr) :=
  [decodeLathe b (latheSlot w), decodePress b (pressSlot w), decodeMover b (moverSlot w), decodeRack b (fun _ => 1) [] (rackSlot w), decodeRoute b (routeSlot w),
    decodeCtrl b .ok (ctrlSlot w)]
def rejBundle (pour : Bool) (w : BitVec 256) (off : Nat) : Rejs :=
  let b : BayId := { x := 0, y := 0 }
  rejSlot (decodeCtrl b .ok) 0x102 (ctrlSlot w) off ++ rejSlot (decodePress b) 0x103 (pressSlot w) off ++ rejSlot (decodeLathe b) 0 (latheSlot w) off ++
    rejSlot (decodeMover b) 0x103 (moverSlot w) off ++ rejSlot (decodeRack b (fun _ => 1) []) 0 (rackSlot w) off ++ rejSlot (decodeRoute b) 0 (routeSlot w) off ++
    rej (pour && (slotDecoders b (bundleOn w)).any (fun o => decide ((o.map rmOf).getD 0 = 3))) 0x10C off
def bundleAt (bs : Bytes) (o : Nat) : BitVec 256 := BitVec.ofNat 256 (leNat (bs.slice o 32))
def rejBundles (bs : Bytes) : Rejs :=
  (imgRecs bs 2 32).flatMap (fun r => (r.items 2).flatMap (fun i => rejBundle (imgPour bs) (bundleAt bs i.2) i.2))

/-- The largest number of pieces of a range on one channel (10 R208, 09 R178). -/
def worstStatic (r : Region) (off n : Nat) : Nat :=
  let p0 := (off - r.base) / 64
  let p1 := (off - r.base + n + 63) / 64
  match r.kind with
  | .interleaved =>
    let upTo := fun (p c : Nat) => p / 128 * 4 + min 4 (p % 128 - 4 * c)
    (List.range 32).foldl (fun m c => max m (upTo p1 c - upTo p0 c)) 0
  | .channelLocal => p1 - p0
  | .replicated =>
    let k := r.size / 64
    (List.range 32).foldl (fun m c => max m (min p1 ((c + 1) * k) - max p0 (c * k))) 0
/-- W(RB) of R208. -/
def worstBlock (r : Region) (rb a : Nat) : Nat :=
  if r.kind = .interleaved then
    (if rb % 8192 = 0 ∧ (a - r.base) % 8192 = 0 then rb / 2048 else min (rb / 64) (4 * ((rb + 8191) / 8192) + 4))
  else rb / 64

/-- Uses that an operation may read and write (10 R217). -/
def sopReads : List RegionUse := [.weight, .landing, .kv, .scratch]
def sopWrites : List RegionUse := [.kv, .scratch]
def SillDesc.dstc (d : SillDesc) : Bool := bitsOf d.opt 4 1 == 1
def SillDesc.scores (d : SillDesc) : Nat := 4 * d.nq * d.nrows
/-- The static ranges of an operation, and the bases of its data-chosen blocks, with the uses open to each (10 R205, R213-R217). -/
def SillDesc.statics (d : SillDesc) : List (Nat × Nat × List RegionUse) := match d.opk with
  | 1 => if d.dstc then [(d.b, d.n * d.rb, sopWrites)] else []
  | 4 => [(d.c, d.scores, sopWrites)]
  | 5 => [(d.c, d.scores, sopReads)]
  | 6 => [(d.a, d.n, sopReads)]
  | 7 => [(d.a, d.n, sopWrites)]
  | 8 => [(d.a, d.n, sopReads), (d.b, d.n, sopWrites)]
  | _ => []
def SillDesc.blocks (d : SillDesc) : List (Nat × List RegionUse) := match d.opk with
  | 1 => [(d.a, sopReads)]
  | 2 => [(d.a, sopWrites)]
  | 3 => [(d.a, sopWrites)]
  | 4 => [(d.a, sopReads)]
  | 5 => [(d.b, sopReads)]
  | _ => []
/-- The charge of R208. -/
def SillDesc.phi (d : SillDesc) (rs : List Region) : Nat :=
  let st := d.statics.foldl (fun a e => a + ((regionAt rs e.1).map (fun r => worstStatic r e.1 e.2.1)).getD 0) 0
  let bl := d.blocks.foldl (fun a e => a + d.n * ((regionAt rs e.1).map (fun r => worstBlock r d.rb e.1)).getD 0) 0
  (if d.opk = 5 ∧ bitsOf d.opt 5 1 = 1 then 2 * st else st) + (if d.opk = 3 then 2 * bl else bl)
def SillDesc.frames (d : SillDesc) (rs : List Region) : Nat := max 1 ((d.phi rs + d.rho - 1) / d.rho)
/-- Bytes of the operand block and of the result (10 R206). -/
def SillDesc.inBytes (d : SillDesc) : Nat := match d.opk with
  | 1 => up128 (4 * d.n)
  | 2 => up128 (4 * d.n) + up128 (d.n * d.rb)
  | 3 => up128 (4 * d.n) + up128 (d.n * (if d.mode = 0 then d.rb / 8 else d.rb))
  | 4 => queriesAt d + up128 ((d.nq * d.e * (fmtP d.fmtA).width + 7) / 8)
  | 5 => queriesAt d
  | _ => 0
def SillDesc.outBytes (d : SillDesc) : Nat := match d.opk with
  | 1 => if d.dstc then 0 else up128 (d.n * d.rb)
  | 4 => 128
  | 5 => if bitsOf d.opt 6 1 = 1 then up128 (32 * d.nq * (d.e + 1)) else up128 (4 * d.nq * d.e)
  | 6 => 128
  | _ => 0
/-- Reserved values of a descriptor's bytes (10 R204). -/
def descForm (bs : Bytes) (o : Nat) : Bool :=
  let d := descOf (bs.slice o 64)
  let rows := decide (d.opk = 4) || decide (d.opk = 5)
  let optMask := match d.opk with
    | 1 => 0x10
    | 4 => 0x0F
    | 5 => 0x6F
    | _ => 0
  let modeMax := match d.opk with
    | 3 => 2
    | 7 => 1
    | _ => 0
  inRange d.opk 1 8 && decide (d.cask < 2) && inRange d.rho 1 10 && decide (d.opt &&& optMask = d.opt) && decide (d.inl ≤ 512) && decide (d.outl ≤ 512) &&
    (decide (5 < d.opk) || (decide (d.rb % 64 = 0) && inRange d.rb 64 65536)) && [d.a, d.b, d.c].all (fun v => decide (v % 64 = 0) && decide (v < 2 ^ 37)) &&
    decide (d.mode ≤ modeMax) && (!rows || inRange d.e 1 1024) && decide (bs.leAt (o + 44) 2 < 512) && decide (bs.leAt (o + 46) 2 < 512) &&
    anchorOk d.anchA && anchorOk d.anchB && fmtOk d.fmtA && fmtOk d.fmtB && decide (bs.leAt (o + 60) 4 = 0)
/-- A descriptor whose form is good, against the regions of its cask (10 R205). -/
def descOk (d : SillDesc) (rs : List Region) : Bool :=
  let rows := decide (d.opk = 4) || decide (d.opk = 5)
  !mxFmt d.fmtA && !mxFmt d.fmtB && decide (d.nq ≤ 8) &&
    (!rows || (decide (0 < d.rowBytes) && decide (d.rb % d.rowBytes = 0) && (decide ((fmtP d.fmtB).width ≠ 4) || decide (d.e % 2 = 0)) && decide (d.nrows ≤ 2 ^ 20))) &&
    (decide (d.opk ≠ 6) || decide (d.n % 64 = 0)) && decide (128 * d.inl = d.inBytes) && decide (128 * d.outl = d.outBytes) && decide (d.t = d.frames rs) &&
    d.statics.all (fun e => rs.any (fun r => e.2.2.contains r.use_ && r.kind != .replicated && r.holds e.1 e.2.1)) &&
    d.blocks.all (fun e => rs.any (fun r => e.2.contains r.use_ && r.kind != .replicated && r.holds e.1 d.rb)) &&
    (decide (d.opk ≠ 8) || decide (d.a + d.n ≤ d.b) || decide (d.b + d.n ≤ d.a))
/-- SILL_DESC: in every bay that holds the entry (R205). -/
def rejDescs (bs : Bytes) (w h : Nat) : Rejs :=
  (imgRecs bs 6 64).flatMap (fun r => (r.items 6).flatMap (fun i =>
    let d := descOf (bs.slice i.2 64)
    let fields := (imgBays bs w h).filterMap (fun b => if r.hits b.2.2.groups b.1 b.2.1 then some (b.1 / 12 + w * (b.2.1 / 12)) else none)
    rej (!descForm bs i.2 || (fields.foldl addNew []).any (fun f => !descOk d (imgCaskRegions bs (2 * f + d.cask)))) 0x309 i.2))

/-- Transit latency of a route between relative coordinates (08 R156). -/
def transit (sx sy dx dy : Nat) : Nat :=
  let span := fun (a b : Nat) => (max a b - min a b, max a b / 12 - min a b / 12)
  let x := span sx dx
  let y := span sy dy
  2 * ((x.1 - x.2) + (y.1 - y.2)) + 8 * (x.2 + y.2) + 2 * (if x.1 = 0 then 0 else x.2 + 1)
/-- The route entries of a bay, with the offset of each. -/
def bayRoutes (bs : Bytes) (w x y : Nat) : List (Nat × RouteEnt) :=
  (bayRecs bs 5 x y (imgPlace bs w x y)).flatMap (fun r => (r.items 5).map (fun i => (i.2, routeOf (bs.slice i.2 16))))
/-- ROUTE: every entry against the shape, R156 and the entry of its peer (R155). -/
def rejRoutes (bs : Bytes) (w h : Nat) : Rejs :=
  (imgBays bs w h).flatMap (fun b => (bayRoutes bs w b.1 b.2.1).flatMap (fun e =>
    let r := e.2
    let inside := decide (r.peerX < 12 * w) && decide (r.peerY < 12 * h) && !(decide (r.peerX = b.1) && decide (r.peerY = b.2.1))
    let mate := (bayRoutes bs w r.peerX r.peerY).any (fun f => decide (f.2.kind + r.kind = 3) && decide (f.2.routeId = r.routeId) && decide (f.2.nflits = r.nflits) &&
      decide (f.2.yx = r.yx) && decide (f.2.lambda = r.lambda) && decide (f.2.peerX = b.1) && decide (f.2.peerY = b.2.1))
    rej (!inside || decide (r.lambda ≠ transit b.1 b.2.1 r.peerX r.peerY) || !mate) 0x201 e.1))

/-- The plan and the tables that its instructions index, item by item. -/
def rejItems (bs : Bytes) (w h : Nat) : Rejs := rejBundles bs ++ rejDescs bs w h ++ rejRoutes bs w h

end Sys2Proof.Machine
end

