-- ==== Sys2Proof/Machine/LoaderDry.lean ====
section
/-! DEFINITION. The loader's dry run (22 R477 stage 4): each bay's plan is issued bundle by bundle, every predicate on, on a bay of its
own whose reads answer zeros; it finds what one bay breaks, and writes down what the bays do to each other (R478). -/

namespace Sys2Proof.Machine
open Sys2Proof

/-- What a bundle did: its count, its bay, its offset, its instructions, its transactions (with whether the address is data-chosen),
its sill operations. -/
structure DryIss where
  u : Int
  bay : BayId
  off : Nat
  ins : List Instr
  racks : List (RackRun × Bool)
  sops : List SopRun
  deriving DecidableEq, Repr

/-- Where a panel was loaded from: its address and its scale word's. -/
structure PanelSrc where
  base : Nat
  sbase : Nat
  deriving DecidableEq, Repr

/-- An accumulation: its first count, its press, its cells, its set-up, the panels it has consumed as pairs of A and B, its end, whether a
drain has read it. -/
structure DryAcc where
  u : Int
  pr : Nat
  q : Nat
  su : Setup
  panels : List (PanelSrc × PanelSrc)
  fin : Option Int
  drained : Bool
  deriving DecidableEq, Repr

/-- An accumulation by its first count, its press and its cells. -/
structure AccKey where
  u : Int
  pr : Nat
  q : Nat
  deriving DecidableEq, Repr
def DryAcc.key (a : DryAcc) : AccKey := { u := a.u, pr := a.pr, q := a.q }

/-- A bay in the dry run. taint says which index registers may hold a value that an ILD wrote (09 R185); vdata gives, for each lathe
register that data reaches, the last count at which an instruction made it so, and vland the registers that come free of data; clash holds
the landings in one register in one fc seen so far; src says where each half was loaded from; pairs the comparisons, original first. -/
structure Dry where
  m : BayM
  taint : Sparse Bool
  landing : List (Int × Nat × Bool)
  vdata : Sparse (Option Int)
  vland : List (Int × Nat)
  clash : List (Int × Nat)
  src : Sparse PanelSrc
  iss : List DryIss
  accs : List DryAcc
  pairs : List (AccKey × AccKey)
  rejs : Rejs
  codes : List Nat

/-- The parts of an image that a bay's dry run needs. -/
structure DryCx where
  cx : BCtx
  orig : Sparse (BitVec 256)
  planRecs : List Rec
  pegRecs : List Rec
  planOff : Nat
  pegOff : Nat
  pour : Bool

/-- Loader codes of a bay's outputs: breaches of R54 but READ_LATE. -/
def outCode : BOut → Option Nat
  | .breach cause _ _ => if cause = brReadLate then none else if cause = brTunCount ∨ cause = brCombine then some 0x106 else some 0x105
  | _ => none
def outCodes (os : List BOut) : List Nat := os.filterMap outCode

/-- The registers that an agenda entry writes (04 R65, 06 R114): V from 0, M from 64, I from 72, lane tuns from 88. The eight blocks of a
TLOADC land together as one result. -/
def Due.regs (d : Due) : List Nat := match d.ev with
  | .lathe (.vreg vd _ _ _ _) => [vd]
  | .lathe (.vregs4 vd _ _) => [vd, vd + 1, vd + 2, vd + 3]
  | .lathe (.mreg k _ _ _) => if k = 0 then [] else [64 + k]
  | .lathe (.tclr lt _ _) => [88 + lt]
  | .lathe (.tterms lt _ _) => [88 + lt]
  | .lathe (.xsum lt _) => [88 + lt]
  | .lathe (.tsum lt _) => [88 + lt]
  | .lathe (.tload lt w _) => if w = 0 then [88 + lt] else []
  | .idx i _ => [72 + i]
  | _ => []
/-- Landings that meet another in one register in one fc. -/
def clashes : List (Int × Nat) → List (Int × Nat)
  | [] => []
  | x :: xs => if xs.contains x then x :: clashes xs else clashes xs
def agendaClashes (b : Bay) : List (Int × Nat) := clashes (b.agenda.flatMap (fun d => d.regs.map (fun r => (d.at_, r))))

/-- Reads of the dry run answer zeros: nothing it does depends on data. -/
def zeroReads (b : Bay) : Bay :=
  { b with
    racks := b.racks.map (fun r => if r.kind = 1 ∧ r.buf = [] then { r with buf := (List.range r.pieces).map (fun w => (w, { bytes := zeroBytes 64, bad := [] })) } else r)
    sops := b.sops.map (fun r => { r with result := some { bytes := zeroBytes (128 * r.desc.outl), bad := [] } }) }

/-- What an instruction does to the taint of an index register: whose, when it lands, and the new taint. A write that a predicate may
switch off taints nothing less. -/
def taintOf (u : Int) : Instr → List (Int × Nat × Bool)
  | .iset _ p i _ => if p.q = 0#3 ∧ !p.qn then [(u + 1, i.toNat, false)] else []
  | .ild _ _ i _ _ => [(u + 2, i.toNat, true)]
  | _ => []

/-- Is the loop well nested (06 R117)? -/
def loopBad (pc : Nat) (stack : List LoopEnt) : Instr → Bool
  | .loop _ lm1 _ => decide (8 ≤ stack.length) || decide (2 ^ 14 ≤ pc + lm1.toNat + 1) || (match stack with
      | t :: _ => decide (t.fin < pc + lm1.toNat + 1)
      | [] => false)
  | .endPlan _ _ _ _ _ => stack.any (fun t => decide (pc < t.fin))
  | _ => false
/-- What the prologue may not issue (06 R113, 22 R478 INVOCATION). -/
def prologueBad : Instr → Bool
  | .cgen _ _ _ => true
  | .movc _ _ f => decide (3 ≤ f.ext.toNat)
  | .endPlan _ _ _ _ _ => true
  | i => decide (rmOf i = 3)

/-- What data-dependent the lathe writes (20 R420): an integer instruction or a move makes its register free of data when its sources are, two
counts later; any other instruction that writes a register does not. -/
def vsources : Instr → Option (LatheF × Pred × Bool × Bool)
  | .movc _ p f => some (f, p, false, false)
  | .mov _ p f => some (f, p, true, false)
  | .bcast _ p f => some (f, p, true, false)
  | .iadd _ p f => some (f, p, true, true)
  | .isub _ p f => some (f, p, true, true)
  | .imul _ p f => some (f, p, true, true)
  | .iand _ p f => some (f, p, true, true)
  | .ior _ p f => some (f, p, true, true)
  | .ixor _ p f => some (f, p, true, true)
  | .ishl _ p f => some (f, p, true, true)
  | .ishr _ p f => some (f, p, true, true)
  | .isra _ p f => some (f, p, true, true)
  | .imin _ p f => some (f, p, true, true)
  | .imax _ p f => some (f, p, true, true)
  | _ => none
/-- Longer than any lathe latency (04 R66). -/
def latheTail : Int := 64
/-- The registers that data reaches after a lathe instruction at u, and the one that it frees of data; w is its slot. -/
def vflow (u : Int) (t : Sparse (Option Int)) (w : Nat) : Option Instr → Sparse (Option Int) × List (Int × Nat)
  | none => (t, [])
  | some i =>
    match vsources i with
    | some (f, p, a, b) =>
      let known := fun (r : Nat) => (Sparse.get none t r).isNone
      let past := match Sparse.get none t f.d with
        | some c => decide (c + latheTail ≤ u)
        | none => true
      if (!a || known f.a) && (!b || known f.b) && f.mkn = 0 && p.q = 0#3 && !p.qn && past then (t, [(u + 2, f.d)])
      else (Sparse.set none t f.d (some u), [])
    | none =>
      let d := bitsOf w 14 6
      ([d, d + 1, d + 2, d + 3].foldl (fun t r => Sparse.set none t r (some u)) t, [])
/-- A CGEN of a Pour-class image whose counter's domain no data reaches, and is neither 0x3 nor 0x8 to 0xF (20 R420, 04 R85). -/
def cgenBad (b : Bay) (t : Sparse (Option Int)) : Instr → Bool
  | .cgen _ _ f =>
    (Sparse.get none t (f.b + 3)).isNone && f.mkn = 0 &&
      (List.range 128).any (fun l => let d := (b.lathe.lane (f.b + 3) l).toNat / 2 ^ 28; decide (d ≠ 3) && decide (d < 8))
  | _ => false

/-- The count of the last access of a mover operation (05 R92). -/
def MoverOp.lastAccess (o : MoverOp) : Int := o.u + ((o.n + 255) / 256 : Nat) + (match o.kind with
  | .copy _ => 2
  | _ => 0)
/-- A drain of the prologue whose rows, and with them its flags, reach the vat at or after the body's first count (06 R497, 07 R141). -/
def drainLate (u : Int) : Instr → Bool
  | .drain _ _ s _ => decide (0 ≤ u + (sideOf (selQ s) : Nat) + 5)
  | .drainr _ _ s _ => decide (0 ≤ u + 4 * (sideOf (selQ s) : Nat) + (if s.qe then 3 else 5))
  | _ => false
/-- Effects of the prologue on the state of R497 that are still to come at the body's first count: landings, reads on their way to a half or
the lathe, combining writes with their flags, k-steps, panels, a mover that is not idle. -/
def lateEffect (b : Bay) : Bool :=
  b.agenda.any (fun d => decide (0 ≤ d.at_) && (match d.ev with
    | .fault _ _ _ => false
    | .flitIn _ _ _ _ _ _ => false
    | .bankSleep _ => false
    | .bankWake _ => false
    | _ => true)) ||
    (b.accs ++ b.carry).any (fun a => decide (a.intoBody.sink ≠ a.sink) || !(b.vat.accumBanks a).isEmpty) ||
    !b.waves.isEmpty || !b.loads.isEmpty || b.vat.mover.any (fun o => decide (0 ≤ o.lastAccess)) ||
    b.presses.any (fun e => e.2.quarters.any (fun q => q.2.run.any (fun r => r.setup.isSome) || q.2.acc.isSome))

/-- The half that a panel load fills or a k-step reads. -/
def halfIx (pr : Nat) (opB : Bool) (half g : Nat) : Nat := 16 * pr + ctlIx opB half g
/-- Note where the loads of a bundle fill their halves from. -/
def noteLoads (u : Int) (b : Bay) (t : Sparse PanelSrc) : Sparse PanelSrc :=
  (b.loads.filter (fun r => r.u = u)).foldl (fun t r =>
    Sparse.set { base := 0, sbase := 0 } t (halfIx r.pr r.opB r.half r.q) { base := r.base, sbase := r.sbase }) t
/-- Note the accumulations that a bundle started, fed or ended. -/
def noteAcc (u : Int) (b : Bay) (src : Sparse PanelSrc) (as : List DryAcc) : List DryAcc :=
  let at_ := fun (k : Nat) => Sparse.get { base := 0, sbase := 0 } src k
  (listedPresses b).foldl (fun as pr => (List.range 5).foldl (fun as q =>
    match ((b.press pr).quarter q).run with
    | some r =>
      match r.setup with
      | some su =>
        if r.start = u then
          let as := if r.first then as ++ [{ u := u, pr := pr, q := q, su := su, panels := [], fin := none, drained := false }] else as
          let pair := (at_ (halfIx pr false r.ha q), at_ (halfIx pr true r.hb q))
          as.map (fun a => if a.pr = pr ∧ a.q = q ∧ a.fin.isNone then
            { a with panels := a.panels ++ [pair], fin := if r.last then some (u + (r.dur : Int)) else none } else a)
        else as
      | none => as
    | none => as) as) as
/-- The accumulation that a drain or comparison at d reads: the last one on the cells that has reached the latches (03 R48). -/
def latched (as : List DryAcc) (pr q : Nat) (d : Int) : Option DryAcc :=
  (as.filter (fun a => decide (a.pr = pr) && decide (a.q = q) && (match a.fin with
    | some e => decide (e + (sideOf q : Int) + 3 ≤ d)
    | none => false))).getLast?
/-- The original and the taste run of a TASTE, if they accumulate the same products (03 R61-R63): the same formats, anchor and panels. PR names
the original and PRB the taste run (DESIGN CHOICE, log entry 51). -/
def notePair (u : Int) (as : List DryAcc) (ps : List (AccKey × AccKey)) : Instr → List (AccKey × AccKey)
  | .taste _ s prb qb =>
    match latched as s.pr.toNat (selQ s) u, latched as prb.toNat (if s.qe then qb.toNat else wholeIx) u with
    | some o, some t =>
      if o.su.fmtA = t.su.fmtA ∧ o.su.fmtB = t.su.fmtB ∧ o.su.anchor = t.su.anchor ∧ o.panels.isPerm t.panels then ps ++ [(o.key, t.key)] else ps
    | _, _ => ps
  | _ => ps
/-- A drain reads an accumulation: it is no taste run (03 R61). -/
def noteDrain (u : Int) (as : List DryAcc) : Instr → List DryAcc
  | .drain _ _ s _ => as.map (fun a => if some a = latched as s.pr.toNat (selQ s) u then { a with drained := true } else a)
  | .drainr _ _ s _ => as.map (fun a => if some a = latched as s.pr.toNat (selQ s) u then { a with drained := true } else a)
  | _ => as

/-- May an instruction's index register pair hold a value that an ILD wrote (07 R148, 09 R185)? -/
def pairTainted (t : Sparse Bool) (i : Nat) : Bool := Sparse.get false t i || Sparse.get false t ((i + 1) % 16)
/-- A bank selector by mask whose pair may hold such a value (07 R148). -/
def maskTainted (t : Sparse Bool) : Instr → Bool
  | .vmode _ s _ r => r && pairTainted t (s.toNat % 16)
  | .vpower _ s _ r => r && pairTainted t (s.toNat % 16)
  | _ => false
/-- Issue the next bundle of the dry run. -/
def Dry.step (k : DryCx) (d : Dry) : Dry :=
  let m := if !d.m.bay.seq.body && decide (d.m.bay.seq.count = 0) then enterBody k.cx d.m else d.m
  let u := m.bay.seq.count
  let m := settle k.cx m u
  let pc := m.bay.seq.pc.toNat
  let off := (itemOff k.planRecs 2 pc).getD k.planOff
  let w := Sparse.get 0#256 k.orig pc
  let ins := (slotDecoders k.cx.id (bundleOn w)).filterMap id
  let taint := (d.landing.filter (fun e => decide (e.1 ≤ u))).foldl (fun t e => Sparse.set false t e.2.1 e.2.2) d.taint
  let vdata := (d.vland.filter (fun e => decide (e.1 ≤ u))).foldl (fun t e => Sparse.set none t e.2 none) d.vdata
  let settled := (agendaClashes m.bay).filter (fun x => !d.clash.contains x)
  let prev := (d.iss.getLast?.map (fun i => i.off)).getD off
  let busy := m.bay.vat.mover.any (fun o => decide (u < o.lastAccess))
  let stack := m.bay.seq.stack
  let codes := outCodes m.out
  let n := issueBundle k.cx ({ (m.upd (fun b => { b with breach := { cause := 0, count := 0, unit := 0 } })) with out := [] }) [] .ok []
  let n := n.upd zeroReads
  let tainted := ins.any (fun i => match i with
    | .crd _ _ f => pairTainted taint f.ci.toNat
    | .cwr _ _ f => pairTainted taint f.f.ci.toNat
    | .cbw _ _ ci _ _ _ _ => pairTainted taint ci.toNat
    | _ => false)
  let racks := (n.bay.racks.filter (fun r => decide (r.u = u))).map (fun r => (r, tainted))
  let sops := n.bay.sops.filter (fun r => decide (r.u = u))
  let mover := (decodeMover k.cx.id (moverSlot (bundleOn w))).any (fun i => match i with
    | .vmode _ _ _ _ => false
    | .vpower _ _ _ _ => false
    | _ => true)
  let digestBad := n.bay.agenda.any (fun e => decide (e.at_ = u + 2) && (match e.ev with
    | .fault c _ _ => decide (c = 0x0204)
    | _ => false))
  let entry := (ins.findSome? (fun i => match i with
    | .peg _ ix _ _ _ => itemOff k.pegRecs 3 ix.toNat
    | .endPlan _ ix _ _ _ => itemOff k.pegRecs 3 ix.toNat
    | _ => none)).getD k.pegOff
  let now := (agendaClashes n.bay).filter (fun x => !(d.clash ++ settled).contains x)
  let src := noteLoads u n.bay d.src
  let accs := ins.foldl (noteDrain u) (noteAcc u n.bay src d.accs)
  let lathe := latheSlot w
  let flow := vflow u vdata lathe (decodeLathe k.cx.id lathe)
  let r := rej (ins.any (loopBad pc stack)) 0x102 off ++ rej (!settled.isEmpty) 0x104 prev ++ rej (!now.isEmpty) 0x104 off ++
    rej (busy && mover) 0x105 off ++ rej (ins.any (maskTainted taint)) 0x101 off ++ rej (k.pour && ins.any (cgenBad m.bay vdata)) 0x403 off ++
    rej digestBad 0x108 entry ++
    rej (decide (u < 0) && (ins.any prologueBad || ins.any (drainLate u) || !sops.isEmpty || racks.any (fun x => decide (x.1.kind ≠ 1) || x.2 ||
      (match regionAt (k.cx.regions.getD (x.1.cask % 2) []) x.1.off with
       | some g => decide (g.use_ ≠ .weight) || !x.1.on
       | none => true)))) 0x102 off
  { m := n, taint := taint, landing := d.landing.filter (fun e => decide (u < e.1)) ++ (slotDecoders k.cx.id w).flatMap (fun o => (o.map (taintOf u)).getD [])
    vdata := flow.1, vland := d.vland.filter (fun e => decide (u < e.1)) ++ flow.2
    clash := (d.clash ++ settled ++ now).filter (fun x => decide (u ≤ x.1)), src := src
    iss := d.iss ++ [{ u := u, bay := k.cx.id, off := off, ins := ins, racks := racks, sops := sops }]
    accs := accs, pairs := ins.foldl (notePair u accs) d.pairs, rejs := d.rejs ++ r, codes := d.codes ++ codes ++ outCodes n.out }
/-- Issue up to n bundles. -/
def Dry.run (k : DryCx) : Nat → Dry → Dry
  | 0, d => d
  | n + 1, d => if d.m.bay.seq.issuing then Dry.run k n (d.step k) else d
/-- A bay's work that is under way after its last bundle runs out; fuel bounds the counts. -/
def dryQuiet (cx : BCtx) : Nat → BayM → BayM
  | 0, m => m
  | k + 1, m => if m.bay.quiet then m else dryQuiet cx k ((quietTick cx m).upd zeroReads)
/-- Landings in one register that only the last bundle's own accesses bring about (04 R65). -/
def Dry.lastClash (k : DryCx) (d : Dry) : Rejs :=
  match d.iss.getLast? with
  | some i => rej ((agendaClashes (quietTick k.cx d.m).bay).any (fun x => !d.clash.contains x)) 0x104 i.off
  | none => []
/-- The codes of a run once nothing is under way any more, and the windows of 03 R56 over what it started have ended. -/
def Dry.finish (k : DryCx) (d : Dry) : List Nat :=
  let m := dryQuiet k.cx 1048576 { d.m with out := [] }
  d.codes ++ outCodes (settle k.cx m (m.bay.seq.ticked + 32)).out

/-- A bay before its first bundle, with a shim budget of beta (03 R57). -/
def dryStart (bs : Bytes) (w x y beta : Nat) : Dry :=
  let b := imgBay bs w x y Bay.init
  let ps := (List.range 4).foldl (fun m i => Sparse.set Press.init m i { Press.init with beta := beta }) []
  let b := { b with plan := b.plan.map (fun (e : Nat × BitVec 256) => (e.1, bundleOn e.2)), beta := beta, presses := ps }
  let pl := imgPlace bs w x y
  let b := if imgPro bs then b.startState (BitVec.ofNat 14 pl.prologue) false (-(imgProCount bs : Int)) 0#128 false else b.startState (BitVec.ofNat 14 pl.body) true 0 0#128 false
  { m := { bay := b, out := [] }, taint := [], landing := [], vdata := [], vland := [], clash := [], src := [], iss := [], accs := [], pairs := [],
    rejs := [], codes := [] }

/-- The bundle at which a run first shows a code: the shortest prefix that does. -/
def firstShows (k : DryCx) (start : Dry) (code : Nat) (iss : List DryIss) : Option Nat :=
  (enumFrom 1 iss).findSome? (fun (e : Nat × DryIss) => if ((Dry.run k e.1 start).finish k).contains code then some e.2.off else none)
/-- The prologue's bundle whose effects reach past its end (22 R478). -/
def lateAt (k : DryCx) (start : Dry) (pro : Nat) (iss : List DryIss) : Option Nat :=
  (enumFrom 1 (iss.take pro)).findSome? (fun (e : Nat × DryIss) =>
    let d := Dry.run k e.1 start
    if lateEffect (tickTurn k.cx (settle k.cx d.m (-1)) 0).bay then some e.2.off else none)

/-- What one bay's dry run finds, with its transactions. -/
structure DryBay where
  iss : List DryIss
  accs : List DryAcc
  pairs : List (AccKey × AccKey)
  rejs : Rejs
def dryBay (bs : Bytes) (w x y : Nat) (k : DryCx) : DryBay :=
  let n := imgProCount bs + imgBodyCount bs + 1
  let one := fun (beta : Nat) =>
    let k := { k with cx := { k.cx with betaTarget := beta } }
    let st := dryStart bs w x y beta
    let d := Dry.run k n st
    let shown := d.finish k
    (d, [0x105, 0x106].flatMap (fun c => if shown.contains c then [(c, (firstShows k st c d.iss).getD k.planOff)] else []))
  let hi := one 16
  let lo := one 0
  let late := if imgPro bs then (match lateAt k (dryStart bs w x y 16) (imgProCount bs) hi.1.iss with
      | some o => [(0x102, o)]
      | none => []) else []
  { iss := hi.1.iss, accs := hi.1.accs, pairs := hi.1.pairs, rejs := hi.1.rejs ++ hi.1.lastClash k ++ hi.2 ++ lo.2 ++ late }

/-- The context of a bay of parcel q in the dry run: the image's regions, groups and schedules (22 R469-R472). -/
def absMask (q : Parcel) (m : Nat) : Nat := (List.range 20).foldl (fun a rc => if bitsOf m rc 1 = 1 then a + ((q.absCask rc).map (fun c => 2 ^ c)).getD 0 else a) 0
def imgGroups (bs : Bytes) (q : Parcel) : Sparse Nat × Sparse Nat := match imgFind bs 8 with
  | none => ([], [])
  | some s => (List.range 64).foldl (fun g i =>
    (Sparse.set 0 g.1 i (absMask q (bs.leAt (s.off + 8 * i) 4)), Sparse.set 0 g.2 i (bs.leAt (s.off + 8 * i + 4) 4))) ([], [])
def imgSchedule (bs : Bytes) (rc : Nat) : Nat × List Window := match (imgRest bs).find? (fun r => decide (r.rcask = rc)) with
  | some r => (r.period, r.windows)
  | none => (0, [])
def dryCx (bs : Bytes) (q : Parcel) (x y : Nat) : DryCx :=
  let b := q.bayAt x y
  let f := fieldOf b
  let rc := q.relCask (2 * f)
  let g := imgGroups bs q
  let pl := imgPlace bs q.w x y
  { cx := { id := b, px := x, py := y, field := f, rel := rc, regions := [imgCaskRegions bs rc, imgCaskRegions bs (rc + 1)]
            allRegions := (List.range (2 * q.w * q.h)).map (imgCaskRegions bs), grpCask := g.1, grpChan := g.2
            period := [(imgSchedule bs rc).1, (imgSchedule bs (rc + 1)).1], windows := [(imgSchedule bs rc).2, (imgSchedule bs (rc + 1)).2], betaTarget := 16
            inParcel := true }
    orig := imgStore bs 2 0#256 16384 (fun w => BitVec.ofNat 256 (leNat w)) pl.groups x y
    planRecs := bayRecs bs 2 x y pl, pegRecs := bayRecs bs 3 x y pl, planOff := secOff bs 2, pegOff := secOff bs 3
    pour := imgPour bs }

/-- The counts of the pegs of a list of runs. -/
def runCounts (rs : List PegRun) : List Nat := rs.flatMap (fun r => (List.range r.repeat_).map (fun i => r.first + i * r.interval))
/-- Peg counts of the prologue and of the body as invocation counts. -/
def pegCounts (bs : Bytes) : List Int := (runCounts (imgPruns bs)).map (fun (c : Nat) => (c : Int) - (imgProCount bs : Int)) ++ (runCounts (imgRuns bs)).map (fun (c : Nat) => (c : Int))
/-- PEG and END of a bundle: PHV, phase, whether END. -/
def DryIss.peg (i : DryIss) : Option (Bool × BitVec 8 × Bool) := i.ins.findSome? (fun o => match o with
  | .peg _ _ ph v _ => some (v, ph, false)
  | .endPlan _ _ ph v _ => some (v, ph, true)
  | _ => none)
/-- COUNTS: every bay's pegs and END at the counts of the peg table (R466, 06 R112). -/
def rejPegCounts (bs : Bytes) (d : DryBay) : Rejs :=
  let pegs := pegCounts bs
  let fin := (imgBodyCount bs : Int)
  d.iss.flatMap (fun i => match i.peg with
    | some (_, _, true) => rej (decide (i.u ≠ fin)) 9 i.off
    | some (_, _, false) => rej (!pegs.contains i.u) 9 i.off
    | none => []) ++
    rej (pegs.any (fun c => !d.iss.any (fun i => decide (i.u = c) && i.peg.isSome)) || !d.iss.any (fun i => decide (i.u = fin) && i.peg.any (fun p => p.2.2))) 9 (secOff bs 4)

/-- PHASE_MARKER: PHV and phase as the first bay has them (06 R126). -/
def rejPhaseMarks (first d : DryBay) : Rejs :=
  d.iss.flatMap (fun i => match i.peg with
    | some p => rej (first.iss.any (fun j => decide (j.u = i.u) && j.peg.any (fun r => decide (r.1 ≠ p.1) || decide (r.2.1 ≠ p.2.1)))) 0x109 i.off
    | none => [])
/-- CRUSH (06 R127): in the first bay only, its peg at its count, no second one before that. -/
def rejCrush (isFirst : Bool) (d : DryBay) : Rejs :=
  d.iss.flatMap (fun i => i.ins.flatMap (fun o => match o with
    | .crush _ ph lead =>
      let c := i.u + 16 * (lead.toNat : Int)
      rej (!isFirst || !d.iss.any (fun j => decide (j.u = c) && j.peg.any (fun p => p.1 && decide (p.2.1 = ph))) ||
        d.iss.any (fun j => decide (j.u < i.u) && j.ins.any (fun q => match q with
          | .crush _ _ l2 => decide (i.u ≤ j.u + 16 * (l2.toNat : Int))
          | _ => false))) 0x10A i.off
    | _ => []))

/-- Windows of 64 consecutive peg intervals between the pegs cs, or from the first to fin when there are fewer (03 R63); what starts after
the last peg falls to the last window. -/
def tasteWindows (cs : List Int) (fin : Int) : List (Int × Int) :=
  let n := cs.length - 1
  if cs.isEmpty then []
  else if n < 64 then [(cs.headD 0, fin)]
  else (List.range (n - 63)).map (fun i => (cs.getD i 0, if i + 64 = n then fin else cs.getD (i + 64) 0))
/-- TASTING of one bay (03 R61, R63). -/
def tasteFails (bs : Bytes) (d : DryBay) : Bool :=
  let pro := (runCounts (imgPruns bs)).map (fun (c : Nat) => (c : Int) - (imgProCount bs : Int))
  let fin := (imgBodyCount bs : Int)
  let body := (runCounts (imgRuns bs)).map (fun (c : Nat) => (c : Int)) ++ [fin]
  let t := imgTaste bs
  let pairs := d.pairs.filter (fun p => !d.accs.any (fun a => decide (a.key = p.2) && a.drained))
  (tasteWindows pro 0 ++ tasteWindows body (fin + 1)).any (fun w =>
    let as := d.accs.filter (fun a => !pairs.any (fun p => decide (p.2 = a.key)) && decide (w.1 ≤ a.u) && decide (a.u < w.2))
    let tasted := as.filter (fun a => pairs.any (fun p => decide (p.1 = a.key)))
    decide (t * tasted.length < as.length) || as.any (fun a => !tasted.any (fun b => decide (b.pr = a.pr))))

end Sys2Proof.Machine
end

