-- ==== Sys2Proof/Machine/LoaderRules.lean ====
section
/-! DEFINITION. The loader's rules over every bay together (22 R478 codes 0x0108 to 0x030B): meshes, racking ports, channels, transactions
in flight, rests, sill operations, journals. -/

namespace Sys2Proof.Machine
open Sys2Proof

/-- Something that an issue uses: a key that names the resource and its count, an amount, the bundle's offset. -/
structure Charge where
  key : Nat
  amt : Nat
  off : Nat
  deriving DecidableEq, Repr
/-- Bundles at which a resource is used beyond its limit, in the order of issue. -/
def overGo (limit : Nat) : Sparse Nat → List Charge → List Nat
  | _, [] => []
  | m, c :: cs =>
    let n := Sparse.get 0 m c.key + c.amt
    let rest := overGo limit (Sparse.set 0 m c.key n) cs
    if limit < n then c.off :: rest else rest
def tooMany (limit code : Nat) (cs : List Charge) : Rejs := (overGo limit [] cs).map (fun o => (code, o))
/-- A key from a resource and a count. -/
def keyOf (a : Nat) (c : Int) : Nat := a * 2 ^ 64 + (c + 2 ^ 60).toNat

/-- One issue with its bay's context. -/
structure Iss where
  k : DryCx
  i : DryIss
/-- Every issue of the parcel in order of count, then of bay (R477). -/
def inOrder (ds : List (DryCx × DryBay)) : List Iss :=
  (ds.flatMap (fun d => d.2.iss.map (fun i => ({ k := d.1, i := i } : Iss)))).mergeSort (fun a b =>
    decide (a.i.u < b.i.u) || (decide (a.i.u = b.i.u) && decide (bayIx a.i.bay ≤ bayIx b.i.bay)))

/-- May a data-chosen transaction reach an interleaved region of its field's casks (09 R179, R185)? -/
def opensTo (kind : Nat) (g : Region) : Bool := if kind = 1 then rackReads g.use_ else rackWrites g.use_
def mayInterleave (k : DryCx) (r : RackRun) : Bool :=
  decide (r.kind ≠ 3) && k.cx.regions.any (fun rs => rs.any (fun g => opensTo r.kind g && decide (g.kind = .interleaved)))
/-- The timings t(w) that an address open to a data-chosen transaction could give, 2w included (09 R184). -/
def chosenTimings (k : DryCx) (r : RackRun) : List (Nat → Nat) := (fun w => 2 * w) :: (if mayInterleave k r then [fun w => w / 2] else [])

/-- Words on the racking ports (09 R182, 10 R207): 0 the read port, 1 the write port. A data-chosen read is charged in each fc the most words
that one of its timings gives. -/
def portCharges (x : Iss) : List Charge :=
  let at_ := fun (port : Nat) (c : Int) (n : Nat) => ({ key := keyOf (2 * bayIx x.i.bay + port) c, amt := n, off := x.i.off } : Charge)
  x.i.racks.flatMap (fun e =>
    let r := e.1
    if r.kind ≠ 1 then (List.range ((r.pieces + 1) / 2)).map (fun (j : Nat) => at_ 0 (r.u + 1 + (j : Int)) (if 2 * j + 1 < r.pieces then 2 else 1))
    else if e.2 then
      (List.range (2 * r.pieces)).map (fun (j : Nat) => at_ 1 (r.u + 160 + (j : Int)) ((chosenTimings x.k r).foldl (fun m t =>
        max m ((List.range r.pieces).filter (fun w => decide (t w = j))).length) 0))
    else (List.range r.pieces).map (fun w => at_ 1 (r.d w) 1)) ++
    x.i.sops.flatMap (fun r =>
      (List.range r.desc.inl).map (fun (j : Nat) => at_ 0 (r.u + 1 + (j : Int)) 2) ++
        (match r.e with
         | some e => (List.range r.desc.outl).map (fun (j : Nat) => at_ 1 (e + 256 + (j : Int)) 2)
         | none => []))

/-- One piece on a channel: cask, channel, the piece's address there, its access count, whether it writes. -/
structure PieceAt where
  cask : Nat
  chan : Nat
  phys : Nat
  a : Int
  wr : Bool
  deriving DecidableEq, Repr
def fieldRegions (k : DryCx) (cask : Nat) : List Region := k.cx.regions.getD (cask % 2) []
/-- The pieces of a transaction whose address is not data-chosen (09 R178, R182, R190). -/
def rackPieces (k : DryCx) (r : RackRun) : List PieceAt :=
  let one := fun (cask : Nat) (g : Region) (off w : Nat) =>
    ({ cask := cask, chan := (g.place off).1, phys := g.phys off, a := r.u + 32 + (r.t w : Int), wr := decide (r.kind ≠ 1) } : PieceAt)
  (List.range r.pieces).flatMap (fun w =>
    let off := r.off + 64 * w
    if r.kind = 3 then
      ([2 * k.cx.field, 2 * k.cx.field + 1].filter (fun c => bitsOf (Sparse.get 0 k.cx.grpCask r.grp) c 1 == 1)).flatMap (fun c =>
        match regionAt (fieldRegions k c) r.off with
        | some g => ((List.range 32).filter (fun ch => bitsOf (Sparse.get 0 k.cx.grpChan r.grp) ch 1 == 1)).map (fun ch =>
            { (one c g off w) with chan := ch, phys := ch * chanSpan + g.lb + (off - g.base) })
        | none => [])
    else match regionAt (fieldRegions k r.cask) off with
      | some g => [one r.cask g off w]
      | none => [])
def fixedRacks (x : Iss) : List RackRun := (x.i.racks.filter (fun r => !r.2)).map (fun r => r.1)
def chosenRacks (x : Iss) : List RackRun := (x.i.racks.filter (fun r => r.2)).map (fun r => r.1)
def Iss.pieces (x : Iss) : List PieceAt := (fixedRacks x).flatMap (rackPieces x.k)
def bothCasks (x : Iss) : List Nat := [2 * x.k.cx.field, 2 * x.k.cx.field + 1]

/-- The pieces of a data-chosen transaction whose access counts fall in frame f under a timing (09 R184, R185). -/
def piecesIn (r : RackRun) (t : Nat → Nat) (f : Int) : List Nat :=
  (List.range r.pieces).filter (fun w => decide (Int.fdiv (r.u + 32 + (t w : Int)) 9 = f))
/-- The most pieces among ws that an address in region g puts on channel ch (09 R178, R185). -/
def mostOn (k : DryCx) (r : RackRun) (cask : Nat) (g : Region) (ch : Nat) (ws : List Nat) : Nat :=
  if r.kind = 3 then
    if g.kind = .replicated ∧ bitsOf (Sparse.get 0 k.cx.grpCask r.grp) cask 1 = 1 ∧ bitsOf (Sparse.get 0 k.cx.grpChan r.grp) ch 1 = 1 then ws.length else 0
  else match g.kind with
    | .channelLocal => if g.chan = ch then ws.length else 0
    | .replicated => ws.length
    | .interleaved => (List.range (min 128 (g.size / 64 - r.pieces + 1))).foldl (fun m p0 =>
        max m (ws.filter (fun w => decide ((p0 + w) / 4 % 32 = ch))).length) 0
/-- The charge of a data-chosen transaction to one channel in frame f: the most pieces that any address open to it could place there. -/
def chosenCharge (x : Iss) (r : RackRun) (cask ch : Nat) (f : Int) : Nat :=
  ((fieldRegions x.k cask).filter (opensTo r.kind)).foldl (fun m g =>
    max m (mostOn x.k r cask g ch (piecesIn r (fun w => if g.kind = .interleaved ∧ r.kind ≠ 3 then w / 2 else 2 * w) f))) 0
/-- The frames of a data-chosen transaction's access counts under every timing it may have. -/
def chosenFrames (x : Iss) (r : RackRun) : List Int :=
  let f0 := Int.fdiv (r.u + 32) 9
  ((List.range (2 * r.pieces / 9 + 2)).map (fun (j : Nat) => f0 + (j : Int))).filter (fun f =>
    (chosenTimings x.k r).any (fun t => !(piecesIn r t f).isEmpty))
def chanKey (cask chan : Nat) (f : Int) : Nat := keyOf (32 * cask + chan) f
/-- Charged pieces by channel and frame (09 R185). -/
def channelCharges (x : Iss) : List Charge :=
  x.pieces.map (fun p => { key := chanKey p.cask p.chan (Int.fdiv p.a 9), amt := 1, off := x.i.off }) ++
    (chosenRacks x).flatMap (fun r => (chosenFrames x r).flatMap (fun f => (bothCasks x).flatMap (fun c => (List.range 32).map (fun ch =>
      { key := chanKey c ch f, amt := chosenCharge x r c ch f, off := x.i.off }))))

/-- A sill operation's cask, its regions and its span (10 R207). -/
def sopCask (x : Iss) (r : SopRun) : Nat := 2 * x.k.cx.field + r.desc.cask % 2
def sopBases (d : SillDesc) : List Nat := d.statics.map (fun e => e.1) ++ d.blocks.map (fun e => e.1)
def sopRegions (x : Iss) (r : SopRun) : List Region := (sopBases r.desc).filterMap (regionAt (fieldRegions x.k (sopCask x r)))
def sopFrames (r : SopRun) : List Int := match r.e with
  | some e => (List.range (Int.fdiv e 9 - r.k0).toNat).map (fun (j : Nat) => r.k0 + (j : Int))
  | none => []
def sopChans (x : Iss) (r : SopRun) : List Nat :=
  let gs := sopRegions x r
  (List.range 32).filter (fun c => gs.any (fun g => decide (g.kind ≠ .channelLocal) || decide (g.chan = c)))
def isWorkAt (x : Iss) (cask : Nat) (f : Int) : Bool := isWork (x.k.cx.period.getD (cask % 2) 0) (x.k.cx.windows.getD (cask % 2) []) f
def sopCharges (x : Iss) : List Charge :=
  x.i.sops.flatMap (fun r => ((sopFrames r).filter (isWorkAt x (sopCask x r))).flatMap (fun f => (sopChans x r).map (fun ch =>
    { key := chanKey (sopCask x r) ch f, amt := r.desc.rho, off := x.i.off })))
def spanCharges (x : Iss) : List Charge :=
  x.i.sops.flatMap (fun r => (sopFrames r).map (fun f => { key := keyOf (sopCask x r) f, amt := 1, off := x.i.off }))

/-- Transactions in flight by channel and count (09 R186). -/
def flightCharges (x : Iss) : List Charge :=
  let span := fun (cask ch : Nat) (lo hi : Int) => (List.range (hi - lo + 1).toNat).map (fun (j : Nat) =>
    ({ key := keyOf (32 * cask + ch) (lo + (j : Int)), amt := 1, off := x.i.off } : Charge))
  (fixedRacks x).flatMap (fun r =>
    let ps := rackPieces x.k r
    (bothCasks x).flatMap (fun c => (List.range 32).flatMap (fun ch =>
      let mine := ps.filter (fun p => decide (p.cask = c) && decide (p.chan = ch))
      match mine, mine.getLast? with
      | p :: _, some q => span c ch p.a (q.a + 128)
      | _, _ => []))) ++
    (chosenRacks x).flatMap (fun r => (bothCasks x).flatMap (fun c => (List.range 32).flatMap (fun ch =>
      span c ch (r.u + 32) (r.u + 160 + 2 * ((r.pieces - 1 : Nat) : Int)))))

/-- Router ports and links that a SEND or a RECV uses (08 R157, R159). -/
def routeOfRt (x : Iss) (bs : Bytes) (q : Parcel) (rt : Nat) : RouteEnt :=
  let rx := x.i.bay.x - 12 * q.c0
  let ry := x.i.bay.y - 12 * q.r0
  ((itemOff (bayRecs bs 5 rx ry (imgPlace bs q.w rx ry)) 5 rt).map (fun o => routeOf (bs.slice o 16))).getD RouteEnt.none
def Iss.route (x : Iss) : Option (Bool × Nat) := x.i.ins.findSome? (fun o => match o with
  | .send _ _ f => some (true, f.rt.toNat)
  | .recv _ _ f => some (false, f.rt.toNat)
  | _ => none)
def routeCharges (bs : Bytes) (q : Parcel) (x : Iss) : List Charge := match x.route with
  | none => []
  | some (send, rt) => (List.range (routeOfRt x bs q rt).nflits).map (fun (f : Nat) =>
    { key := keyOf (2 * bayIx x.i.bay + (if send then 0 else 1)) (x.i.u + 1 + (f : Int)), amt := 1, off := x.i.off })
/-- The counts of the outputs that a SEND's transfer reserves (08 R159): on the east-west leg every count up to 2M late, elsewhere its canonical
count alone. Flits of one transfer run late together, so a count that two of them reserve is one charge. -/
def linkCharges (bs : Bytes) (q : Parcel) (x : Iss) : List Charge := match x.route with
  | some (true, rt) =>
    let e := routeOfRt x bs q rt
    let dst := q.bayAt e.peerX e.peerY
    let keys := (List.range e.nflits).flatMap (fun (f : Nat) => (flitHops (fun _ _ _ => 0) x.i.bay dst e.yx (x.i.u + 2 + (f : Int))).flatMap (fun h =>
      (List.range (if h.dir < 2 then legFields x.i.bay.x dst.x + 1 else 1)).map (fun (j : Nat) => keyOf (4 * (60 * h.y + h.x) + h.dir) (h.at_ + 2 * (j : Int)))))
    (keys.foldl addNew []).map (fun k => { key := k, amt := 1, off := x.i.off })
  | _ => []
/-- Every SEND has its RECV at the count of R157, and every RECV its SEND (R155). -/
def rejMates (bs : Bytes) (q : Parcel) (xs : List Iss) : Rejs :=
  xs.flatMap (fun x => match x.route with
    | none => []
    | some (send, rt) =>
      let e := routeOfRt x bs q rt
      let c := if send then x.i.u + 2 + (e.lambda : Int) else x.i.u - 2 - (e.lambda : Int)
      let mate := xs.any (fun y => decide (y.i.u = c) && decide (y.i.bay = q.bayAt e.peerX e.peerY) && (match y.route with
        | some (s2, rt2) => s2 != send && decide ((routeOfRt y bs q rt2).routeId = e.routeId)
        | none => false))
      rej (decide (e.kind ≠ (if send then 1 else 2)) || !mate) 0x201 x.i.off)

/-- RACK_ORDER (09 R183): a read and a write of the same bytes at one access count. -/
def rejOrder : List (PieceAt × Nat) → Rejs
  | [] => []
  | x :: xs => xs.flatMap (fun y => rej (decide (x.1.a = y.1.a) && decide (x.1.cask = y.1.cask) && decide (x.1.phys = y.1.phys) && (x.1.wr != y.1.wr)) 0x304 y.2) ++ rejOrder xs
/-- Access counts and sill frames in REST or LAND (09 R191). -/
def rejRests (x : Iss) : Rejs :=
  rej (x.pieces.any (fun p => !isWorkAt x p.cask (Int.fdiv p.a 9)) ||
    (chosenRacks x).any (fun r => (chosenFrames x r).any (fun f => (bothCasks x).any (fun c => !isWorkAt x c f)))) 0x308 x.i.off
/-- Does a group's every cask hold one replicated region of the same shape, open to writes (09 R190)? -/
def groupShape (k : DryCx) (grp : Nat) : Bool :=
  let named := [0, 1].filter (fun c => bitsOf (Sparse.get 0 k.cx.grpCask grp) (2 * k.cx.field + c) 1 == 1)
  (k.cx.regions.getD (named.headD 0) []).any (fun r => groupOk k.cx grp r.base 64 && decide (r.kind = .replicated))
/-- BROADCAST (09 R190): a fixed address must obey the rule, and a data-chosen one be able to. -/
def rejBroadcast (x : Iss) : Rejs :=
  rej (x.i.racks.any (fun r => decide (r.1.kind = 3) && (if r.2 then !groupShape x.k r.1.grp else !r.1.on))) 0x307 x.i.off

/-- Bytes of a cask, as a range of offsets. -/
structure Span where
  cask : Nat
  lo : Nat
  hi : Nat
  deriving DecidableEq, Repr
def Span.hits (a b : Span) : Bool := decide (a.cask = b.cask) && decide (a.lo < b.hi) && decide (b.lo < a.hi)
def regionSpan (c : Nat) (r : Region) : Span := { cask := c, lo := r.base, hi := r.base + r.extent }
/-- What an operation may read (false) or write (true) (10 R210, R217). -/
def sopSpans (x : Iss) (r : SopRun) (wr : Bool) : List Span :=
  let c := sopCask x r
  let d := r.desc
  let st := d.statics.map (fun e => (decide (e.2.2.length < 3), ({ cask := c, lo := e.1, hi := e.1 + e.2.1 } : Span)))
  let bl := d.blocks.flatMap (fun e => ((regionAt (fieldRegions x.k c) e.1).map (fun g => (decide (e.2.length < 3), regionSpan c g))).toList)
  (st ++ bl).filterMap (fun e => if e.1 = wr ∨ (!wr ∧ d.opk = 3) then some e.2 else none)
/-- Bytes that an issue's transactions touch, with the count of each and whether it writes. -/
def touchSpans (x : Iss) : List (Int × Bool × Span) :=
  (fixedRacks x).flatMap (fun r => (List.range r.pieces).flatMap (fun w =>
    let sp := fun (c : Nat) => (r.u + 32 + (r.t w : Int), decide (r.kind ≠ 1), ({ cask := c, lo := r.off + 64 * w, hi := r.off + 64 * w + 64 } : Span))
    if r.kind = 3 then
      ([2 * x.k.cx.field, 2 * x.k.cx.field + 1].filterMap (fun c => (regionAt (fieldRegions x.k c) r.off).map (fun g =>
        ((sp c).1, true, regionSpan c g))))
    else [sp r.cask])) ++
    (chosenRacks x).flatMap (fun r => (bothCasks x).flatMap (fun c =>
      ((fieldRegions x.k c).filter (fun g => if r.kind = 1 then rackReads g.use_ else rackWrites g.use_)).flatMap (fun g =>
        (List.range (2 * r.pieces)).map (fun (j : Nat) => (r.u + 32 + (j : Int), decide (r.kind ≠ 1), regionSpan c g)))))
/-- SILL_HAZARD of one operation against everything else (10 R210). -/
def rejHazard (xs : List Iss) (x : Iss) : Rejs :=
  x.i.sops.flatMap (fun r => match r.e with
    | none => []
    | some e =>
      let rd := sopSpans x r false
      let wr := sopSpans x r true
      let inside := fun (c : Int) => decide (9 * r.k0 ≤ c) && decide (c < e)
      let bad := fun (w : Bool) (s : Span) => (w && rd.any (fun a => a.hits s)) || wr.any (fun a => a.hits s)
      xs.flatMap (fun y =>
        let racks := (touchSpans y).any (fun t => inside t.1 && bad t.2.1 t.2.2)
        let sops := y.i.sops.any (fun t => decide ((y.i.bay, t.tag) ≠ (x.i.bay, r.tag)) && (match t.e with
          | some f => decide (9 * t.k0 < e) && decide (9 * r.k0 < f) && ((sopSpans y t true).any (bad true) || (sopSpans y t false).any (bad false))
          | none => false))
        let later := if y.i.u < x.i.u ∨ (y.i.u = x.i.u ∧ bayIx y.i.bay < bayIx x.i.bay) then x.i.off else y.i.off
        rej (racks || sops) 0x30B later))
/-- SILL_SPAN's second half: no span contains a peg count (10 R209). -/
def rejSpanPegs (pegs : List Int) (x : Iss) : Rejs :=
  rej (x.i.sops.any (fun r => match r.e with
    | some e => pegs.any (fun c => decide (9 * r.k0 ≤ c) && decide (c < e))
    | none => true)) 0x30A x.i.off

/-- Pieces that an issue can write into the KV and SCRATCH regions of a cask (R470). -/
def journalPieces (x : Iss) (cask : Nat) : Nat :=
  ((x.pieces.filter (fun p => p.wr && decide (p.cask = cask))).length) +
    ((chosenRacks x).filter (fun r => decide (r.kind ≠ 1))).foldl (fun a r => a + (if r.kind = 3 then 32 * r.pieces else r.pieces)) 0 +
    (x.i.sops.filter (fun r => decide (sopCask x r = cask))).foldl (fun a r =>
      let d := r.desc
      a + (d.statics.filter (fun e => decide (e.2.2.length < 3))).foldl (fun a e => a + (e.2.1 + 63) / 64) 0 +
        (if d.opk = 2 ∨ d.opk = 3 then d.n * (d.rb / 64) else 0)) 0
/-- The largest number of pieces tooMany 2 x interval consecutive peg intervals. -/
def journalBound (cs : List Int) (interval : Nat) (xs : List (Int × Nat)) : Nat :=
  let per := (cs.zip (cs.drop 1)).map (fun w => (xs.filter (fun x => decide (w.1 ≤ x.1) && decide (x.1 < w.2))).foldl (fun a x => a + x.2) 0)
  (List.range per.length).foldl (fun m i => max m (((per.drop i).take (2 * interval)).foldl (· + ·) 0)) 0
def imgInterval (bs : Bytes) : Nat := if bs.leAt 24 4 = 0 then 4096 else bs.leAt 24 4
/-- JOURNAL (R470). -/
def rejJournal (bs : Bytes) (q : Parcel) (xs : List Iss) : Rejs :=
  let cs := (runCounts (imgRuns bs)).map (fun (c : Nat) => (c : Int)) ++ [(imgBodyCount bs : Int)]
  (imgRegions bs).flatMap (fun e =>
    if e.r.use_ ≠ .vintage ∨ e.r.size < slotsLen then []
    else
      let area := e.r.size - slotsLen
      let full := ((imgCaskRegions bs e.rcask).filter (fun r => rackWrites r.use_)).foldl (fun a r => a + r.extent / 64) 0
      let cask := (q.absCask e.rcask).getD 0
      let b := journalBound cs (imgInterval bs) (xs.map (fun x => (x.i.u, journalPieces x cask)))
      rej (decide (area < 128 * full) && decide (area < 128 * b)) 0x302 e.at_)

/-- Tables that the plan needs (R461), and SILL_FLAG. -/
def rejNeeds (bs : Bytes) (xs : List Iss) : Rejs :=
  rej ((xs.any (fun x => x.route.isSome) && (imgFind bs 5).isNone) || (xs.any (fun x => x.i.racks.any (fun r => decide (r.1.kind = 3))) && (imgFind bs 8).isNone)) 3 12 ++
    rej (xs.any (fun x => !x.i.sops.isEmpty) != imgSill bs) 0x10B 10

/-- Everything the dry run shows (R478). -/
def rejRun (bs : Bytes) (q : Parcel) : Rejs :=
  let ds := (imgBays bs q.w q.h).map (fun b => let k := dryCx bs q b.1 b.2.1; (k, dryBay bs q.w b.1 b.2.1 k))
  let first : DryBay := (ds.head?.map (fun d => d.2)).getD { iss := [], accs := [], rejs := [], pairs := [] }
  let xs := inOrder ds
  let ch := xs.flatMap channelCharges
  let pegs := (pegCounts bs) ++ [(imgBodyCount bs : Int)]
  ds.flatMap (fun d => d.2.rejs ++ rejPegCounts bs d.2 ++ rejPhaseMarks first d.2 ++ rejCrush (decide (d.1.cx.px = 0) && decide (d.1.cx.py = 0)) d.2) ++
    rej (ds.any (fun d => tasteFails bs d.2)) 0x107 (secOff bs 12) ++ rejNeeds bs xs ++ rejMates bs q xs ++ tooMany 1 0x201 (xs.flatMap (routeCharges bs q)) ++
    tooMany 1 0x202 (xs.flatMap (linkCharges bs q)) ++ tooMany 2 0x303 (xs.flatMap portCharges) ++ rejOrder (xs.flatMap (fun x => x.pieces.map (fun p => (p, x.i.off)))) ++
    tooMany 5 0x305 ch ++ tooMany 10 0x305 (xs.flatMap (fun x => channelCharges x ++ sopCharges x)) ++ tooMany 32 0x306 (xs.flatMap flightCharges) ++
    xs.flatMap rejBroadcast ++ xs.flatMap rejRests ++ tooMany 4 0x30A (xs.flatMap spanCharges) ++ xs.flatMap (rejSpanPegs pegs) ++ xs.flatMap (rejHazard xs) ++
    rejJournal bs q xs
/-- The WEIGHT regions that the prologue reads (05 R103). -/
def imgSources (bs : Bytes) (q : Parcel) : List (Nat × Nat) :=
  if imgPro bs then
    ((imgBays bs q.w q.h).flatMap (fun b =>
      let k := dryCx bs q b.1 b.2.1
      (Dry.run k (imgProCount bs) (dryStart bs q.w b.1 b.2.1 16)).iss.flatMap (fun i => i.racks.filterMap (fun r =>
        (regionAt (fieldRegions k r.1.cask) r.1.off).map (fun g => (q.relCask r.1.cask, g.base)))))).foldl (fun l e => if l.contains e then l else l ++ [e]) []
  else []

end Sys2Proof.Machine
end

