-- ==== Sys2Proof/Machine/Loader.lean ====
section
/-! DEFINITION. image.load: the stages of validation in their order, and what a load that passes replaces (18 R380, R381, 22 R477-R479,
11 R235). -/

namespace Sys2Proof.Machine
open Sys2Proof

/-- Bytes of the container without what follows IMAGE_BYTES (R477). -/
def imgBytes (stream : Bytes) (imageBytes : Nat) : Bytes := stream.take imageBytes
/-- Does the image need a licence feature that is absent (R477)? -/
def State.lacksFeature (s : State) (bs : Bytes) : Bool :=
  let need := bs.leAt 9 1
  (List.range 3).any (fun k => (bitsOf need k 1 == 1 || (decide (k = 0) && imgPour bs)) && !s.hasFeature k)
/-- Stage 4: tables first, since the dry run reads them. -/
def rejStage4 (bs : Bytes) (q : Parcel) : Rejs :=
  let a := rejTables bs q.w q.h
  let b := a ++ rejItems bs q.w q.h
  if a.any (fun x => decide (x.1 < 0x101)) then b else b ++ rejRun bs q
/-- The answer of a load that the loader refuses (R381, R477); none when the image passes. -/
def State.loadRefusal (s : State) (p : Nat) (stream : Bytes) (imageBytes : Nat) : Option Ans :=
  let q := s.parcel p
  let bs := imgBytes stream imageBytes
  let invalid := fun (r : Nat × Nat) => ({ status := 0x0301, payload := digestBytes (imgDigest bs) ++ natLe 4 r.1 ++ natLe 8 r.2 } : Ans)
  match Rejs.worst (rejStream stream imageBytes ++ rejStage1 bs (min imageBytes bs.length)) with
  | some r => some (invalid r)
  | none =>
    if !imgSigOk s bs imageBytes then some (Ans.err 0x0302)
    else if bs.leAt 8 1 ≠ q.shape then some (Ans.err 0x0303)
    else if s.lacksFeature bs then some (Ans.err 0x0304)
    else (Rejs.worst (rejStage4 bs q)).map invalid

/-- The phase markers of the body (06 R126), as the first bay's pegs bring them. -/
def imgMarks (bs : Bytes) (q : Parcel) : List (Int × BitVec 8) :=
  (dryBay bs q.w 0 0 (dryCx bs q 0 0)).iss.filterMap (fun i => match i.peg with
    | some (true, ph, _) => if 0 ≤ i.u then some (i.u, ph) else none
    | _ => none)
/-- The image that a container holds. -/
def imgOf (bs : Bytes) (q : Parcel) : Image :=
  { bytes := bs, digest := imgDigest bs, pourClass := imgPour bs, shape := bs.leAt 8 1, features := bs.leAt 9 1, sillOps := imgSill bs, prologue := imgPro bs
    interval := imgInterval bs, bodyCount := imgBodyCount bs, prologueCount := imgProCount bs, runs := imgRuns bs, pruns := imgPruns bs
    phases := (imgPhases bs).map (fun e => e.2), taste := imgTaste bs, labelIn := (imgLabel bs false).map (fun e => e.2)
    labelOut := (imgLabel bs true).map (fun e => e.2), sources := imgSources bs q, pour := imgPourDecl bs, marks := imgMarks bs q }

/-- A region of the new table: a WEIGHT region with the old one's relative cask, BASE and size keeps its digest (R381). -/
def keepDigest (old : List Region) (r : Region) : Region :=
  match old.find? (fun o => decide (o.use_ = .weight) && decide (r.use_ = .weight) && decide (o.base = r.base) && decide (o.size = r.size)) with
  | some o => { r with digest := o.digest, digestValid := o.digestValid, closing := o.closing, written := o.written }
  | none => r
/-- An await of the new image takes over the flag and the lock of an equal one (11 R235). -/
def keepAwait (old : List Await) (a : Await) : Await :=
  match old.find? (fun o => decide (o.rcask = a.rcask) && decide (o.off = a.off) && decide (o.len = a.len)) with
  | some o => { a with landed := o.landed, locked := o.locked }
  | none => a
/-- A cask takes its region table, its schedule and the groups (R469-R472, 09 R178, R189). -/
def Cask.loadTables (k : Cask) (bs : Bytes) (q : Parcel) (rc : Nat) : Cask :=
  let g := imgGroups bs q
  { k with regions := (imgCaskRegions bs rc).map (keepDigest k.regions), period := (imgSchedule bs rc).1, windows := (imgSchedule bs rc).2
           grp := { grpCask := g.1, grpChan := g.2 } }
/-- Does the parcel's first cask keep its VINTAGE region? Its slots then keep what they hold. -/
def State.slotsKept (s : State) (p : Nat) (bs : Bytes) : Bool :=
  let old := (((s.parcel p).absCask 0).map (fun c => (s.cask c).regions)).getD []
  (imgCaskRegions bs 0).any (fun r => decide (r.use_ = .vintage) && old.any (fun o => decide (o.use_ = .vintage) && decide (o.base = r.base) &&
    decide (o.size = r.size) && decide (o.lb = r.lb)))
/-- The load itself (R381). -/
def State.installImage (s : State) (p : Nat) (bs : Bytes) : State :=
  let q := s.parcel p
  let m := imgOf bs q
  let g := imgGroups bs q
  let kept := s.slotsKept p bs
  let s := q.casks.foldl (fun s c => s.modCask c (fun k => k.loadTables bs q (q.relCask c))) { s with gw := { grpCask := g.1, grpChan := g.2 } }
  let s := (s.clearResident p).loadBays p m
  s.modParcel p (fun q =>
    { q with image := some m, awaits := (imgAwaits bs).map (fun e => keepAwait q.awaits e.2), vint := if kept then q.vint else [], base := none, nextSlot := if kept then q.nextSlot else 0
             tr := { q.tr with learned := [], hint := none } })

def miImageLoad : MsgInfo := { code := 0x0301, scope := .owner, cut := true }
/-- Does a bay fail the comparison of LOAD_CRC three times (08 R171)? seen is what its LOAD_CRC held after each attempt; an attempt that is not
listed went well. The Cellarmaster clears LOAD_CRC and reloads a bay that differs alone. -/
def loadFails (want : Word) (seen : List Word) : Bool := decide (3 ≤ seen.length) && (seen.take 3).all (fun c => decide (c ≠ want))
def hImageLoad (p imageBytes : Nat) (stream : Bytes) (crcSeen : List (BayId × List Word)) : Handler := fun s =>
  if !(s.parcel p).loadable then refuses s 0x0306
  else match s.loadRefusal p stream imageBytes with
    | some a => replies s a
    | none =>
      let bs := imgBytes stream imageBytes
      let q := s.parcel p
      let want := fun (b : BayId) =>
        let x := b.x - 12 * q.c0
        let y := b.y - 12 * q.r0
        imgLoadCrc bs (imgPlace bs q.w x y).groups x y
      let bad := crcSeen.filter (fun e => (s.parcel p).holds (fieldOf e.1) && e.1.ok && loadFails (want e.1) e.2)
      match bad.map (fun e => e.1) with
      | b :: _ => refuses (s.report { code := 0x0305, parcel := some p, unit := 0x01, x := b.x, y := b.y }) 0x0305
      | [] =>
        replies (s.installImage p bs) { status := 0, payload := digestBytes (imgDigest bs) }
/-- IMAGE_LOAD (R380, R381): Validates and loads an image. imageBytes is IMAGE_BYTES, stream what the SEG_IN entries carry, crcSeen the
values that bays' LOAD_CRC held after attempts in which messages were lost (08 R171). -/
def execImageLoad (rq : Requester) (parcel imageBytes : Nat) (stream : Bytes) (crcSeen : List (BayId × List Word)) (s : State) : Host.Outcome State Fault Refusal :=
  s.request rq miImageLoad parcel (hImageLoad parcel imageBytes stream crcSeen) (.imageLoad rq parcel imageBytes stream crcSeen)

end Sys2Proof.Machine
end

