-- ==== Sys2Proof/Machine/SealMsgs.lean ====
section
/-! DEFINITION. The seal.* and perturb.* messages (18 R398-R400, 21 R444-R456). -/

namespace Sys2Proof.Machine
open Sys2Proof

/-- The CDI's measurements MR0 to MR3, which name the alias key (21 R444). -/
def State.cdiName (s : State) : Nat := 1 + leNat ((s.sealU.mr.take 4).flatMap digestBytes)
/-- One parcel of a report (21 R451). -/
def State.attestParcel (s : State) (p : Nat) : Bytes :=
  let q := s.parcel p
  natLe 1 (pstateCode q.st) ++ natLe 1 q.owner ++ zeroBytes 6 ++ imageDigestBytes q
/-- AFLAG (21 R451). -/
def State.aflag (s : State) (side : Bool) : Nat := s.sealU.scope % 4 + 4 * b1 (s.hasFeature 1) + 8 * b1 side
/-- Bytes 0 to 799 of the attestation report (21 R451). -/
def State.attestBody (s : State) (nonce device : Bytes) (side : Bool) : Bytes :=
  natLe 4 0x54535441 ++ natLe 2 1 ++ natLe 1 0xA0 ++ natLe 1 (s.aflag side) ++ natLe 2 0x0380 ++ zeroBytes 2 ++ natLe 4 s.raising.fwVer ++ natLe 8 s.plate.wall.toNat ++
    (Config.serialNo ++ zeroBytes 16).take 16 ++ nonce ++ device ++ s.sealU.mr.flatMap digestBytes ++ natLe 4 s.sealU.fwFloor ++ natLe 4 s.sealU.debugCounter ++
    (List.range 4).flatMap s.attestParcel ++ digestBytes (keyHash (Config.devicePublicKey s.cdiName))
def miAttest : MsgInfo := { code := 0x0D01, scope := .any, side := true, parcel := false }
def hAttest (rq : Requester) (nonce : Bytes) : Handler := fun s =>
  if s.sealU.halted then refuses s 0x0D06
  else
    let f := s.fresh
    let side := isSideband rq
    let device := natLe 48 f.1
    let b := s.attestBody ((nonce ++ zeroBytes 48).take 48) device side
    let g := Config.signature s.cdiName (sha384Val b).toNat
    let s := f.2
    replies (if side then { s with sealU := { s.sealU with nonce := some (device, s.tNs) } } else s)
      { status := 0, payload := b ++ natLe 48 g.1 ++ natLe 48 g.2 }
/-- SEAL_ATTEST (21 R451): Returns a signed attestation report. Over the sideband its DEVICE_NONCE becomes the sideband nonce (R452). -/
def execSealAttest (rq : Requester) (nonce : Bytes) (s : State) : Host.Outcome State Fault Refusal :=
  s.request rq miAttest 0xFF (hAttest rq nonce) (.sealAttest rq nonce)

def miCertGet : MsgInfo := { code := 0x0D02, scope := .any, parcel := false, cut := true }
def hCertGet (rq : Requester) (cut : Option CutEntry) : Handler := fun s =>
  let chain := Config.certChain s.cdiName
  let head := natLe 4 chain.length ++ zeroBytes 4
  match cut with
  | none => if 4024 < chain.length then refuses s 0x0E03 else replies s { status := 0, payload := head ++ chain }
  | some e =>
    let r := s.streamOut ((requesterPort rq).getD 0) [e] chain
    (r.s, some (r.ans head))
/-- SEAL_CERT_GET (21 R445): Returns the certificate chain. -/
def execSealCertGet (rq : Requester) (cut : Option CutEntry) (s : State) : Host.Outcome State Fault Refusal :=
  s.request rq miCertGet 0xFF (hCertGet rq cut) (.sealCertGet rq cut)

/-- A feature that a new licence lacks while it is in use (21 R454). -/
def State.featuresLost (s : State) : State :=
  let s := if s.hasFeature 2 then s
    else (List.range 4).foldl (fun (s : State) p => s.modParcel p (fun q => { q with test := false })) (s.modPrt (fun t => { t with ctrl := t.ctrl &&& ~~~1#32, armed := none }))
  if s.hasFeature 1 then s else s.unsignLabels
def miLicence : MsgInfo := { code := 0x0D03, scope := .principal, parcel := false }
def hLicence (l : Bytes) : Handler := fun s =>
  if s.sealU.halted then refuses s 0x0D06
  else if !licSound l then refuses s 0x0D01
  else if !licBound s.sealU.identity l then refuses s 0x0D02
  else
    let n := licOf l
    let x := s.sealU.extend 5 (sha384Val l)
    let s := { s with sealU := { x with licence := some n, licFlash := l, storeEpoch := x.storeEpoch + 1 }, raising := { s.raising with licOk := true } }
    let s := s.featuresLost
    replies s { status := 0, payload := natLe 1 s.bundle ++ natLe 1 n.fields ++ natLe 1 n.parcels ++ natLe 1 n.tapLanes ++ natLe 4 n.powerMax }
/-- SEAL_LICENCE_INSTALL (21 R453): Verifies and installs a licence. -/
def execSealLicenceInstall (rq : Requester) (licence : Bytes) (s : State) : Host.Outcome State Fault Refusal :=
  s.request rq miLicence 0xFF (hLicence licence) (.sealLicenceInstall rq licence)

/-- The key table after a change: it is measured and written to the flash (21 R446, R447, R450). -/
def State.setKeys (s : State) (ks : List RegKey) : State :=
  let x := s.sealU.extend 6 (sha384Val (keyTableBytes ks))
  { s with sealU := { x with keys := ks, keysFlash := ks, storeEpoch := x.storeEpoch + 1 } }
def miKeysAdd : MsgInfo := { code := 0x0D04, scope := .principal, parcel := false }
def keyPointOk (pub : Bytes) : Bool := decide (pub.length = 97) && decide (pub.leAt 0 1 = 4) && onCurve (bytesPoint pub)
def hKeysAdd (id use_ : Nat) (pub : Bytes) : Handler := fun s =>
  if 4 ≤ use_ then refuses s eMalformed
  else if s.sealU.halted then refuses s 0x0D06
  else if 16 ≤ s.sealU.keys.length then refuses s 0x0D03
  else if s.sealU.keys.any (fun k => decide (k.id = id)) || !keyPointOk pub then refuses s 0x0D04
  else replies (s.setKeys (s.sealU.keys ++ [{ id := id, use_ := use_, pub := pub }])) Ans.ok
/-- SEAL_KEYS_ADD (21 R455): Registers a customer public key. -/
def execSealKeysAdd (rq : Requester) (keyId : Nat) (use_ : Word) (pubkey : Bytes) (s : State) : Host.Outcome State Fault Refusal :=
  s.request rq miKeysAdd 0xFF (hKeysAdd keyId use_.toNat pubkey) (.sealKeysAdd rq keyId use_ pubkey)

def miKeysRemove : MsgInfo := { code := 0x0D05, scope := .principal, parcel := false }
def hKeysRemove (id : Nat) : Handler := fun s =>
  if s.sealU.halted then refuses s 0x0D06
  else if !s.sealU.keys.any (fun k => decide (k.id = id)) then refuses s 0x0D04
  else replies (s.setKeys (s.sealU.keys.filter (fun k => decide (k.id ≠ id)))) Ans.ok
/-- SEAL_KEYS_REMOVE (21 R455): Removes a registered key. -/
def execSealKeysRemove (rq : Requester) (keyId : Nat) (s : State) : Host.Outcome State Fault Refusal :=
  s.request rq miKeysRemove 0xFF (hKeysRemove keyId) (.sealKeysRemove rq keyId)

def miKeysList : MsgInfo := { code := 0x0D06, scope := .any, parcel := false }
def hKeysList : Handler := fun s =>
  replies s { status := 0, payload := natLe 4 s.sealU.keys.length ++ zeroBytes 4 ++
    s.sealU.keys.flatMap (fun k => natLe 4 k.id ++ natLe 4 k.use_ ++ digestBytes (keyHash k.pub)) }
/-- SEAL_KEYS_LIST (R398): Lists the registered keys. -/
def execSealKeysList (rq : Requester) (s : State) : Host.Outcome State Fault Refusal := s.request rq miKeysList 0xFF hKeysList (.sealKeysList rq)

/-- A debug token's own fields, binding, counter and signature (21 R456). -/
def State.tokenOk (s : State) (t : Bytes) : Bool :=
  decide (t.length = 160) && decide (t.leAt 0 4 = 0x54474244) && decide (t.leAt 4 2 = 1) && (decide (t.leAt 6 1 = 1) || decide (t.leAt 6 1 = 2)) && decide (t.leAt 7 1 = 0) &&
    s.sealU.identity && decide (t.leAt 8 48 = deviceHash.toNat) && decide (t.leAt 56 4 = s.sealU.debugCounter) && allZero (t.slice 60 4) &&
    ecdsaVerify (Config.skaxoKey 3) (sha384 (t.take 64)) (t.leAt 64 48) (t.leAt 112 48)
def miUnlock : MsgInfo := { code := 0x0D07, scope := .principal, parcel := false }
def hUnlock (t : Bytes) : Handler := fun s =>
  if s.sealU.halted then refuses s 0x0D06
  else if !s.tokenOk t then refuses s 0x0D05
  else
    let k := t.leAt 6 1
    let x := s.sealU.extend 7 (sha384Val (natLe 1 k))
    let s := { s with sealU := { x with debugCounter := x.debugCounter + 1, scope := x.scope ||| k } }
    replies (if k = 2 then s.unsignLabels else s) Ans.ok
/-- SEAL_DEBUG_UNLOCK (21 R456): Verifies a debug token and unlocks JTAG. -/
def execSealDebugUnlock (rq : Requester) (token : Bytes) (s : State) : Host.Outcome State Fault Refusal :=
  s.request rq miUnlock 0xFF (hUnlock token) (.sealDebugUnlock rq token)

def miPerturbEnable : MsgInfo := { code := 0x1001, scope := .ownerOrPrincipal, feature := some 2 }
def hPerturbEnable (p : Nat) : Handler := fun s =>
  if (s.parcel p).busy then refuses s 0x1001
  else if (s.parcel p).test then refuses s 0x1002
  else replies (s.modParcel p (fun q => { q with test := true })) Ans.ok
/-- PERTURB_ENABLE (R400): Puts an idle parcel into test mode. -/
def execPerturbEnable (rq : Requester) (parcel : Nat) (s : State) : Host.Outcome State Fault Refusal :=
  s.request rq miPerturbEnable parcel (hPerturbEnable parcel) (.perturbEnable rq parcel)

def miPerturbDisable : MsgInfo := { code := 0x1002, scope := .ownerOrPrincipal }
def hPerturbDisable (p : Nat) : Handler := fun s =>
  if !(s.parcel p).test then refuses s 0x1002
  else
    let s := s.modParcel p (fun q => { q with test := false })
    replies (if fieldBits s.prt.ctrl 2 1 = p then s.modPrt (fun t => { t with ctrl := t.ctrl &&& ~~~1#32, armed := none }) else s) Ans.ok
/-- PERTURB_DISABLE (R400): Takes a parcel out of test mode. -/
def execPerturbDisable (rq : Requester) (parcel : Nat) (s : State) : Host.Outcome State Fault Refusal :=
  s.request rq miPerturbDisable parcel (hPerturbDisable parcel) (.perturbDisable rq parcel)

end Sys2Proof.Machine
end

