-- ==== Sys2Proof/Machine/Give.lean ====
section
/-! DEFINITION. A request as bytes: its header and payload, the forms of chapter 18's payloads, GIVE, and the cut lists that carry
entries (17 R357, R362, 18 R370-R402). -/

namespace Sys2Proof.Machine
open Sys2Proof

/-- A request as its bytes give it (18 R370). -/
structure Req where
  code : Nat
  version : Nat
  hflag : Nat
  plen : Nat
  parcel : Nat
  tag : DWord
  addr : Nat
  count : Nat
  rsvZero : Bool
  payload : Bytes
  deriving DecidableEq, Repr

def reqOf (bs : Bytes) : Req :=
  let plen := bs.leAt 4 2
  { code := bs.leAt 0 2, version := bs.leAt 2 1, hflag := bs.leAt 3 1, plen := plen, parcel := bs.leAt 6 1, tag := BitVec.ofNat 64 (bs.leAt 8 8)
    addr := bs.leAt 16 8, count := bs.leAt 24 2, rsvZero := decide (bs.leAt 7 1 = 0) && allZero (bs.slice 26 38), payload := (bs.drop 64).take plen }

/-- Bytes of a payload's fields and its reserved ranges, by message code (R375-R400); none: no such message (R372). -/
def msgForm (code : Nat) : Option (Nat × List (Nat × Nat)) :=
  match code with
  | 0x0101 => some (0, [])
  | 0x0102 => some (160, [(1, 7), (60, 4)])
  | 0x0201 => some (16, [(5, 3), (9, 7)])
  | 0x0202 => some (0, [])
  | 0x0203 => some (8, [(1, 7)])
  | 0x0204 => some (0, [])
  | 0x0205 => some (0, [])
  | 0x0206 => some (0, [])
  | 0x0301 => some (8, [])
  | 0x0302 => some (0, [])
  | 0x0303 => some (0, [])
  | 0x0401 => some (8, [(3, 5)])
  | 0x0402 => some (8, [(1, 7)])
  | 0x0403 => some (0, [])
  | 0x0404 => some (16, [(1, 7)])
  | 0x0405 => some (8, [(2, 6)])
  | 0x0406 => some (8, [(1, 7)])
  | 0x0501 => some (72, [(3, 5), (28, 4), (33, 7)])
  | 0x0502 => some (8, [(1, 7)])
  | 0x0503 => some (8, [(1, 7)])
  | 0x0601 => some (72, [(64, 8)])
  | 0x0602 => some (8, [])
  | 0x0603 => some (8, [])
  | 0x0701 => some (0, [])
  | 0x0702 => some (8, [(2, 6)])
  | 0x0703 => some (0, [])
  | 0x0704 => some (0, [])
  | 0x0801 => some (8, [])
  | 0x0802 => some (8, [(1, 3)])
  | 0x0803 => some (16, [(12, 4)])
  | 0x0804 => some (16, [])
  | 0x0805 => some (0, [])
  | 0x0806 => some (0, [])
  | 0x0807 => some (8, [(1, 7)])
  | 0x0901 => some (8, [(5, 3)])
  | 0x0A01 => some (16, [(12, 4)])
  | 0x0A02 => some (0, [])
  | 0x0A03 => some (4, [])
  | 0x0A04 => some (8, [(4, 4)])
  | 0x0B01 => some (40, [(4, 4), (14, 2), (36, 4)])
  | 0x0B02 => some (40, [(1, 7)])
  | 0x0B03 => some (8, [(1, 7)])
  | 0x0C01 => some (16, [(2, 2), (9, 7)])
  | 0x0C02 => some (8, [(1, 7)])
  | 0x0C03 => some (0, [])
  | 0x0C04 => some (8, [(4, 4)])
  | 0x0C05 => some (0, [])
  | 0x0C06 => some (8, [])
  | 0x0D01 => some (48, [])
  | 0x0D02 => some (0, [])
  | 0x0D03 => some (192, [])
  | 0x0D04 => some (108, [(105, 3)])
  | 0x0D05 => some (8, [(4, 4)])
  | 0x0D06 => some (0, [])
  | 0x0D07 => some (160, [])
  | 0x1001 => some (0, [])
  | 0x1002 => some (0, [])
  | _ => none
/-- Is every reserved byte of a payload 0 (R6, R373 check 1)? Does the payload hold its fields (check 7)? -/
def payloadRsv (f : Nat × List (Nat × Nat)) (b : Bytes) : Bool := f.2.all (fun r => allZero (b.slice r.1 r.2))
def payloadHolds (f : Nat × List (Nat × Nat)) (b : Bytes) : Bool := decide (f.1 ≤ b.length)

/-- What the tables of chapter 18 say of a request's message. -/
def State.reqInfo (s : State) (rq : Requester) (r : Req) : MsgInfo :=
  match r.code with
  | 0x0101 => miSysInfo
  | 0x0102 => miPrincipalMove
  | 0x0201 => miCreate
  | 0x0202 => miDelete
  | 0x0203 => miAssign
  | 0x0204 => miPark
  | 0x0205 => miResume
  | 0x0206 => miStatus
  | 0x0301 => miImageLoad
  | 0x0302 => miUnload
  | 0x0303 => miImageInfo
  | 0x0401 => miWindowSet
  | 0x0402 => miWindowClear r.parcel
  | 0x0404 => miRegionClose
  | 0x0405 => miStaveFail
  | 0x0406 => s.miCaskStatus rq r.parcel
  | 0x0501 => miRackOpen
  | 0x0502 => miRackClose
  | 0x0503 => miRackStatus
  | 0x0601 => miRunStart
  | 0x0602 => miRunAbort
  | 0x0603 => miRunResult
  | 0x0701 => miVintageDraw
  | 0x0702 => miVintageExport
  | 0x0703 => miVintageRestore
  | 0x0704 => miVintageStatus
  | 0x0801 => miCapSet
  | 0x0802 => miShareSet
  | 0x0803 => miLeaseSet
  | 0x0804 => miContractSet
  | 0x0805 => miForecast
  | 0x0806 => miPowerStatus
  | 0x0807 => miSidebandSet
  | 0x0901 => miSoundRun r.parcel
  | 0x0A01 => miFaultLog
  | 0x0A02 => miFaultSummary
  | 0x0A03 => miLogClear
  | 0x0A04 => miFaultCounters
  | 0x0B01 => miTapConfig
  | 0x0B02 => miTapKeySet
  | 0x0B03 => miTapStatus
  | 0x0C01 => miPour 0x0C01
  | 0x0C02 => miPour 0x0C02
  | 0x0C03 => { miPour 0x0C03 with cut := true }
  | 0x0C04 => miPour 0x0C04
  | 0x0C05 => miPour 0x0C05
  | 0x0C06 => miPour 0x0C06
  | 0x0D01 => miAttest
  | 0x0D02 => miCertGet
  | 0x0D03 => miLicence
  | 0x0D04 => miKeysAdd
  | 0x0D05 => miKeysRemove
  | 0x0D06 => miKeysList
  | 0x0D07 => miUnlock
  | 0x1001 => miPerturbEnable
  | 0x1002 => miPerturbDisable
  | _ => { code := 0x0403, scope := .owner, cut := true }

/-- rack.open's payload (R383); every field little-endian (R375, 00 R4), addresses too. -/
def rackOpenOf (b : Bytes) : RackOpenF :=
  { stream := b.leAt 0 1, tap := BitVec.ofNat 8 (b.leAt 1 1), key := b.leAt 2 1, peer := BitVec.ofNat 128 (b.leAt 8 16), peerPort := b.leAt 24 2
    localPort := b.leAt 26 2, rcask := b.leAt 32 1, off := b.leAt 40 8, len := b.leAt 48 8, object := BitVec.ofNat 128 (b.leAt 56 16) }
/-- tap.config's payload (R396). -/
def tapConfigOf (b : Bytes) : TapConfigF :=
  { tap := BitVec.ofNat 8 (b.leAt 0 1), mode := BitVec.ofNat 8 (b.leAt 1 1), mtu := b.leAt 2 2, mac := BitVec.ofNat 48 (b.leAt 8 6)
    ipv6 := BitVec.ofNat 128 (b.leAt 16 16), ipv4 := BitVec.ofNat 32 (b.leAt 32 4) }
/-- sound.run's payload (R394): a test that finds nothing amiss. -/
def soundOf (b : Bytes) : SoundF :=
  { kind := BitVec.ofNat 8 (b.leAt 0 1), sflag := BitVec.ofNat 8 (b.leAt 1 1), a := b.leAt 2 1, b := b.leAt 3 1, c := b.leAt 4 1, pass := true }
/-- pour.cancel's list (R397). -/
def cancelIds (b : Bytes) : List Nat := (List.range (b.leAt 0 4)).map (fun i => b.leAt (8 + 8 * i) 8)

/-- The effect of a message with no cut list in its hands. A message that must have one has none of it here. -/
def plainHandler (rq : Requester) (r : Req) : Handler :=
  let b := r.payload
  let p := r.parcel
  match r.code with
  | 0x0101 => hSysInfo
  | 0x0102 => hPrincipalMove (b.leAt 0 1) (b.slice 8 48) (b.leAt 56 4) (b.leAt 64 48) (b.leAt 112 48)
  | 0x0201 => hCreate p (b.leAt 0 1) (b.leAt 1 1) (b.leAt 2 1) (b.leAt 3 1) (b.leAt 4 1) (BitVec.ofNat 8 (b.leAt 8 1)) []
  | 0x0202 => hDelete p
  | 0x0203 => hAssign p (b.leAt 0 1)
  | 0x0204 => hPark rq p
  | 0x0205 => hResume p []
  | 0x0206 => fun s => replies s { status := 0, payload := s.parcelBytes p }
  | 0x0302 => hUnload p
  | 0x0303 => hImageInfo rq p none
  | 0x0401 => hWindowSet rq p (b.leAt 0 1) (b.leAt 1 1) (b.leAt 2 1)
  | 0x0402 => hWindowClear rq p (b.leAt 0 1)
  | 0x0404 => hRegionClose rq p (b.leAt 0 1) (b.leAt 8 8)
  | 0x0405 => hStaveFail (b.leAt 0 1) (b.leAt 1 1)
  | 0x0406 => hCaskStatus p (b.leAt 0 1)
  | 0x0501 => hRackOpen p (rackOpenOf b)
  | 0x0502 => hRackClose p (b.leAt 0 1)
  | 0x0503 => hRackStatus p (b.leAt 0 1)
  | 0x0601 => hRunStart rq p (BitVec.ofNat 128 (b.leAt 0 16)) (BitVec.ofNat 384 (b.leAt 16 48))
  | 0x0602 => hRunAbort p (b.leAt 0 8)
  | 0x0603 => hRunResult p (b.leAt 0 8)
  | 0x0701 => hVintageDraw rq p
  | 0x0702 => hVintageExport rq p (BitVec.ofNat 8 (b.leAt 0 1)) (b.leAt 1 1) []
  | 0x0704 => hVintageStatus p
  | 0x0801 => hCapSet (b.leAt 0 4) (BitVec.ofNat 32 (b.leAt 4 4))
  | 0x0802 => hShareSet p (b.leAt 0 1) (b.leAt 4 4)
  | 0x0803 => hLeaseSet rq (b.leAt 0 4) (b.leAt 4 4) (b.leAt 8 4)
  | 0x0804 => hContractSet rq (b.leAt 0 4) (b.leAt 4 4) (b.leAt 8 8)
  | 0x0805 => hForecast
  | 0x0806 => hPowerStatus
  | 0x0807 => hSidebandSet (b.leAt 0 1)
  | 0x0901 => hSoundRun rq p (soundOf b) { staves := [], wires := [] }
  | 0x0A01 => hFaultLog rq (b.leAt 0 8) (b.leAt 8 4) none
  | 0x0A02 => hFaultSummary
  | 0x0A03 => hLogClear (BitVec.ofNat 32 (b.leAt 0 4))
  | 0x0A04 => hFaultCounters p (b.leAt 0 1) (b.leAt 1 1) (b.leAt 2 1) (b.leAt 3 1)
  | 0x0B01 => hTapConfig rq p (tapConfigOf b)
  | 0x0B02 => hTapKeySet p (b.leAt 0 1) (b.slice 8 32)
  | 0x0B03 => hTapStatus p (BitVec.ofNat 8 (b.leAt 0 1))
  | 0x0C01 => hPourStart p (b.leAt 0 2) (b.leAt 4 4) (BitVec.ofNat 8 (b.leAt 8 1))
  | 0x0C02 => hPourStop rq p (BitVec.ofNat 8 (b.leAt 0 1))
  | 0x0C04 => if 500 < b.leAt 0 4 ∨ b.length < 8 + 8 * b.leAt 0 4 then fun s => refuses s eMalformed else hPourCancel rq p (cancelIds b)
  | 0x0C05 => hPourStatus p
  | 0x0C06 => hPourLabel p (b.leAt 0 8)
  | 0x0D01 => hAttest rq (b.slice 0 48)
  | 0x0D02 => hCertGet rq none
  | 0x0D03 => hLicence (b.take 192)
  | 0x0D04 => hKeysAdd (b.leAt 0 4) (b.leAt 4 4) (b.slice 8 97)
  | 0x0D05 => hKeysRemove (b.leAt 0 4)
  | 0x0D06 => hKeysList
  | 0x0D07 => hUnlock (b.take 160)
  | 0x1001 => hPerturbEnable p
  | 0x1002 => hPerturbDisable p
  | _ => fun s => refuses s 0x0E04

/-- Messages that need a cut list, and those that may have one. -/
def cutMust (code : Nat) : Bool := [0x0301, 0x0403, 0x0703, 0x0C03].contains code
def cutMay (code : Nat) : Bool := [0x0303, 0x0702, 0x0A01, 0x0D02].contains code
/-- Check 3 of R373, with the nesting rule of R362; 0 when it passes. -/
def cutRefusal (r : Req) (nested : Bool) : Nat :=
  if nested ∧ r.count ≠ 0 then 0x0E07
  else if cutMust r.code || cutMay r.code then
    if r.count = 0 ∧ cutMay r.code then (if r.addr = 0 then 0 else eMalformed)
    else if r.count = 0 ∨ 4096 < r.count ∨ r.addr % 64 ≠ 0 then 0x0E04
    else 0
  else if r.count ≠ 0 ∨ r.addr ≠ 0 then eMalformed
  else 0
/-- Checks 1 to 3 of R373 that the header decides; 0 when they pass. -/
def headRefusal (rq : Requester) (m : MsgInfo) (r : Req) (nested : Bool) : Nat :=
  if (msgForm r.code).isNone || (m.sideOnly && !isSideband rq) then eUnknownMsg
  else if r.version ≠ 1 ∨ r.hflag ≠ 0 ∨ !r.rsvZero ∨ !payloadRsv ((msgForm r.code).getD (0, [])) r.payload ∨ (4 ≤ r.parcel ∧ r.parcel ≠ 0xFF) then eMalformed
  else if 4032 < r.plen then 0x0E03
  else cutRefusal r nested

/-- A request runs: the header's checks, then 4 to 7 and the effect. -/
def State.runReq (s : State) (rq : Requester) (r : Req) (nested : Bool) (h : Handler) : State × Option Ans :=
  let m := s.reqInfo rq r
  let why := headRefusal rq m r nested
  if why ≠ 0 then (s, some (Ans.err why))
  else s.effect rq m r.parcel (fun s => if payloadHolds ((msgForm r.code).getD (0, [])) r.payload then h s else refuses s eMalformed)

/-- A MSG entry runs its request as if it had been given in a slot (17 R362): its status is the answer's. -/
def State.runEntry (s : State) (port slot : Nat) (e : CutEntry) : State × Nat × Nat :=
  let back := fun (n : Nat) => (s.emitPort port (.dmaWrite port (e.addr + 32) (writeBack n 0)), n, 0)
  if !cutOk e false ∨ e.kind ≠ 3#8 then back 0x0E06
  else if !e.dmaOk then back 0x0E05
  else
    let r := reqOf (e.data.take e.len ++ zeroBytes 64)
    let rq := Requester.entry port slot e.haddr e.addr r.tag
    let now := s.plate.wall.toNat
    let x := s.runReq rq { r with payload := ((e.data.take e.len).drop 64).take r.plen } true (plainHandler rq r)
    match x.2 with
    | some a => (x.1.answer (some rq) r.code r.parcel now a, a.status, 0)
    | none => (x.1, 0, 0)

/-- The slot whose list it is. -/
def requesterSlot : Requester → Nat
  | .slot _ n _ => n
  | .entry _ n _ _ _ => n
  | .sideband _ _ => 0
def miTransfer : MsgInfo := { code := 0x0403, scope := .owner, cut := true }
/-- Must an entry that moves data wait for its cask (09 R196)? -/
def State.entryHeld (s : State) (p : Nat) (e : CutEntry) : Bool := match (s.parcel p).absCask (daddrCask e.daddr) with
  | some c => (decide (e.kind = 1#8) || decide (e.kind = 2#8)) && !s.gwOpen c
  | none => false
/-- The entries of cask.transfer, in order (R382, 17 R362), up to one that must wait: the progress, and what is left. -/
def transferGo (rq : Requester) (parcel : Nat) : List CutEntry → CutRun → CutRun × List CutEntry
  | [], r => (r, [])
  | e :: es, r =>
    if r.stopped then (r, [])
    else if r.s.entryHeld parcel e then (r, e :: es)
    else transferGo rq parcel es (r.entry e (fun s =>
      if e.kind = 3#8 then s.runEntry r.port (requesterSlot rq) e else if e.kind = 2#8 then s.segOut r.port parcel e else s.segIn parcel e))
/-- A transfer ends with its answer, or waits with the entries that are left (09 R196). -/
def hTransfer (rq : Requester) (parcel : Nat) (cut : List CutEntry) : Handler := fun s =>
  let r := transferGo rq parcel cut (CutRun.start s ((requesterPort rq).getD 0))
  match r.2 with
  | [] => replies r.1.s (r.1.ans [])
  | rest => (r.1.s.await rq 0x0403 parcel (.transfer r.1.done r.1.fail rest), none)
/-- CASK_TRANSFER (R382): Moves data through the gateway under a cut list. -/
def execCaskTransfer (rq : Requester) (parcel : Nat) (cut : List CutEntry) (s : State) : Host.Outcome State Fault Refusal :=
  s.deliver rq miTransfer parcel (.caskTransfer rq parcel cut) (fun s =>
    if !isSideband rq ∧ (cut = [] ∨ 4096 < cut.length) then s.answer (some rq) 0x0403 parcel s.plate.wall.toNat (Ans.err 0x0E04)
    else s.serve rq miTransfer parcel (hTransfer rq parcel cut))

/-- Host memory that answers a read. -/
def hostAt (m : List (Nat × Byte)) (a : Nat) : Option Byte := (m.find? (fun e => decide (e.1 = a))).map (fun e => e.2)
def hostBytes (m : List (Nat × Byte)) (a : Nat) : Nat → Option Bytes
  | 0 => some []
  | n + 1 => match hostAt m a with
    | some b => (hostBytes m (a + 1) n).map (fun bs => b :: bs)
    | none => none
/-- One entry of a list as the device reads it (17 R362). -/
def entryOf (m : List (Nat × Byte)) (addr : Nat) (b : Bytes) : CutEntry :=
  let kind := b.leAt 0 1
  let data := if kind = 2 then none else hostBytes m (b.leAt 8 8) (b.leAt 4 4)
  { addr := addr, kind := BitVec.ofNat 8 kind, eflag := BitVec.ofNat 8 (b.leAt 1 1), len := b.leAt 4 4, haddr := b.leAt 8 8, daddr := b.leAt 16 8
    rsvZero := allZero (b.slice 2 2) && allZero (b.slice 40 24), data := data.getD [], dmaOk := decide (kind = 2) || data.isSome
    beats := [] }
def cutEntries (m : List (Nat × Byte)) (addr count : Nat) : Option (List CutEntry) :=
  match hostBytes m addr (64 * count) with
  | some bs => some ((List.range count).map (fun i => entryOf m (addr + 64 * i) (bs.slice (64 * i) 64)))
  | none => none

/-- A stream comes in through the list, then the message takes effect (18 R380, R390, R397). -/
def streamHandler (rq : Requester) (es : List CutEntry) (h : Bytes → Handler) : Handler := fun s =>
  let x := inGo es (CutRun.start s ((requesterPort rq).getD 0), [])
  if x.1.stopped then (x.1.s, some (x.1.ans []))
  else
    let y := h x.2 x.1.s
    (y.1, y.2.map (fun a => { a with cutDone := x.1.done, cutFail := x.1.fail }))
/-- The effect of a message with its cut list (R380-R382, R390, R395, R397, R398). -/
def cutHandler (rq : Requester) (r : Req) (es : List CutEntry) : Handler :=
  let b := r.payload
  let p := r.parcel
  let one := fun (h : Option CutEntry → Handler) => if es.length = 1 then h es.head? else fun s => refuses s eMalformed
  match r.code with
  | 0x0301 => streamHandler rq es (fun bs => hImageLoad p (b.leAt 0 8) bs [])
  | 0x0303 => one (hImageInfo rq p)
  | 0x0403 => hTransfer rq p es
  | 0x0702 => hVintageExport rq p (BitVec.ofNat 8 (b.leAt 0 1)) (b.leAt 1 1) es
  | 0x0703 => streamHandler rq es (hVintageRestore p)
  | 0x0A01 => one (hFaultLog rq (b.leAt 0 8) (b.leAt 8 4))
  | 0x0C03 => streamHandler rq es (hPourSubmit rq p)
  | 0x0D02 => one (hCertGet rq)
  | _ => plainHandler rq r
/-- A request with the host memory that its list and its entries read. -/
def listHandler (rq : Requester) (r : Req) (m : List (Nat × Byte)) : Handler :=
  if r.count = 0 then plainHandler rq r
  else fun s => match cutEntries m r.addr r.count with
    | some es => cutHandler rq r es s
    | none => refuses s 0x0E05

/-- The Cellarmaster takes the request of a slot and answers it, unless an event is still to bring the answer (R357, R373). -/
def State.giveSlot (s : State) (port slot : Nat) (hostMem : List (Nat × Byte)) : State :=
  let t := s.takeSlot port slot
  if !t.2 then t.1
  else
    let r := reqOf ((s.port port).slots.readBytes (slotAt slot) 4096)
    let rq := Requester.slot port slot r.tag
    let now := s.plate.wall.toNat
    let m := s.reqInfo rq r
    if s.mustQueue (some port) (s.reqKeys rq m r.parcel) (msgNow m.code) then
      t.1.holdReq (some port) (some slot) (s.reqKeys rq m r.parcel) (msgNow m.code) (.give port slot hostMem)
    else
      let x := t.1.runReq rq r false (listHandler rq r hostMem)
      match x.2 with
      | some a => x.1.answer (some rq) r.code r.parcel now a
      | none => x.1
/-- GIVE (17 R357): Hands a mailbox slot to the device and the Cellarmaster answers it in place. hostMem is the host memory that answers
the device's reads. -/
def execGive (port slot : Nat) (hostMem : List (Nat × Byte)) (s : State) : Host.Outcome State Fault Refusal :=
  if 4 ≤ port ∨ 64 ≤ slot then .refused .noSuchUnit
  else .next (if !s.portLive port then s else if s.writeHeld port then s.holdWrite port (.give port slot hostMem) else s.giveSlot port slot hostMem)

/-- MSG (17 R362): A MSG entry runs a request as if given in a slot. slot is the one whose request carries the list. -/
def execMsg (port slot : Nat) (e : CutEntry) (s : State) : Host.Outcome State Fault Refusal :=
  if 4 ≤ port ∨ 64 ≤ slot then .refused .noSuchUnit
  else .next (if s.portLive port && s.raising.done then (s.runEntry port slot e).1 else s)

end Sys2Proof.Machine
end

