-- ==== Sys2Proof/Machine/Gateway.lean ====
section
/-! DEFINITION. The cellar gateway's waiting traffic (09 R195, R196, 11 R237, 17 R354, R355): BAR2 writes and reads, and transfers under a cut list. -/

namespace Sys2Proof.Machine
open Sys2Proof

/-- 1 GiB: a page of BAR2 (R354). -/
def gib : Nat := 1073741824
def State.portErr (s : State) (p bit : Nat) : State := s.modPort p (fun q => { q with err := q.err ||| BitVec.ofNat 5 (2 ^ bit) })
/-- Where a BAR2 offset leads (R354): the cask and the offset in it; none while the page is not mapped. -/
def State.bar2At (s : State) (port off : Nat) : Option (Option Nat × Nat) :=
  let w := Sparse.get 0#32 (s.port port).win (off / gib)
  if w.getLsbD 31 then some ((s.parcel (fieldBits w 15 14)).absCask (fieldBits w 11 7), fieldBits w 6 0 * gib + off % gib) else none
/-- Must an access to a BAR2 offset wait for its cask (R196)? -/
def State.bar2Held (s : State) (port off : Nat) : Bool := match s.bar2At port off with
  | some (some c, _) => !s.gwOpen c
  | _ => false
/-- A write that stays in one page (R355). -/
def State.bar2Put (s : State) (port off : Nat) (data : Bytes) (beats : List Ecc) : State :=
  match s.bar2At port off with
  | none => s.portErr port 0
  | some (none, _) => s.portErr port 1
  | some (some c, o) => match s.gwWrite c o data true beats with
    | some t => t
    | none => (s.gwRefused c).portErr port 1
/-- A read that stays in one page (R355). -/
def State.bar2Get (s : State) (port off len : Nat) : State :=
  match s.bar2At port off with
  | none => (s.portErr port 0).emit (.unsupported port)
  | some (none, _) => (s.portErr port 1).emit (.unsupported port)
  | some (some c, o) => match s.gwRead c o len with
    | some (bs, bad) => (if bad then s.portErr port 3 else s).emit (.readData port bs bad)
    | none => (s.portErr port 1).emit (.unsupported port)
/-- Does the gateway's buffer of 256 KiB for a port have no room for a write (R355)? -/
def State.postedFull (s : State) (port len : Nat) : Bool :=
  let held := (s.port port).posted.foldl (fun n e => n + e.2.1.length) 0
  decide (held ≠ 0) && decide (262144 < held + len)

/-- Posted writes go out in the order of their arrival at the gateway (R356); one that must wait keeps its port's later ones back. -/
def State.serveWrites : List Nat → List Nat → State → State
  | [], _, s => s
  | p :: ps, stuck, s =>
    match (s.port p).posted with
    | [] => State.serveWrites ps stuck s
    | w :: ws =>
      if stuck.contains p || s.bar2Held p w.1 then State.serveWrites ps (p :: stuck) { s with gwOrder := s.gwOrder ++ [p] }
      else State.serveWrites ps stuck ((s.modPort p (fun q => { q with posted := ws })).bar2Put p w.1 w.2.1 w.2.2)
def State.servePosted (s : State) : State := State.serveWrites s.gwOrder [] { s with gwOrder := [] }
/-- The reads that wait, each once its cask is open and no posted write stands before it. -/
def State.serveReads (port : Nat) : List (Nat × Nat) → State → State
  | [], s => s
  | r :: rs, s =>
    if s.bar2Held port r.1 then State.serveReads port rs (s.modPort port (fun q => { q with reads := q.reads ++ [r] }))
    else State.serveReads port rs (s.bar2Get port r.1 r.2)
/-- The reads of a port wait for all its earlier writes (R356). -/
def State.portReads (s : State) (port : Nat) : State :=
  if (s.port port).posted.isEmpty && !s.noCredits port && !(s.port port).reads.isEmpty then State.serveReads port (s.port port).reads (s.modPort port (fun q => { q with reads := [] }))
  else s
/-- The gateway's posted writes, and then a port's reads. -/
def State.portServe (s : State) (port : Nat) : State := s.servePosted.portReads port

/-- A transfer goes on with the entry at which it waited; one whose port has been reset does not (17 R368). -/
def State.transferOn (s : State) (w : Wait) : State :=
  match w.rq, w.what with
  | some rq, .transfer done fail rest =>
    let t := { s with waits := s.waits.erase w }
    let x := transferGo rq w.parcel rest { CutRun.start t ((requesterPort rq).getD 0) with done := done, fail := fail }
    match x.2 with
    | [] => x.1.s.answer (some rq) w.msg w.parcel w.arrivedNs (x.1.ans [])
    | left => { x.1.s with waits := x.1.s.waits ++ [{ w with what := .transfer x.1.done x.1.fail left }] }
  | none, .transfer _ _ _ => ({ s with waits := s.waits.erase w } : State).cutDies w.parcel
  | _, _ => s

/-- The gateway's waiting traffic takes what LAND frames, stops and the ends of invocations give it (R196). -/
def State.gwServe (s : State) : State :=
  let s := (List.range 4).foldl (fun s p => s.portReads p) s.servePosted
  s.waits.foldl State.transferOn s

/-- May a command that waits be taken up (17 R355, R356, R367)? before lists what came earlier and waits. -/
def State.heldReady (s : State) (before : List Held) (h : Held) : Bool :=
  h.port.all s.portLive &&
    (if h.write then !before.any (fun x => x.write && decide (x.port = h.port)) && (match h.cmd with
        | .bar2Write p _ d => !s.postedFull p d.data.length
        | _ => true)
     else h.port.all (fun p => (s.port p).posted.isEmpty) && (h.now || !s.queueBusy before h.keys))
/-- The state in which a command that waited is taken up: it waits no longer, and its slot is to be taken by it anew. -/
def State.released (s : State) (h : Held) (rest : List Held) : State :=
  let s := match h.port, h.slot with
    | some p, some n => s.modPort p (fun q => { q with own := q.own &&& ~~~(BitVec.ofNat 64 (2 ^ n)) })
    | _, _ => s
  { s with held := rest, turn := if h.write then 1 else 2 }
/-- The first command that waits no longer. -/
def State.takeHeld (s : State) (before : List Held) : List Held → Option (Instr × State)
  | [] => none
  | h :: hs => if s.heldReady before h then some (h.cmd, s.released h (before ++ hs)) else s.takeHeld (before ++ [h]) hs

end Sys2Proof.Machine
end

