-- ==== Sys2Proof/Machine/Raising.lean ====
section
/-! DEFINITION. Raising (16): the claim, the stage commands, RAISE, UNPARK, RAISE_DONE. -/

namespace Sys2Proof.Machine
open Sys2Proof

/-- A write of a port to the RAISE block has its effect, or waits for credits (17 R355). While a command runs the row brings that command's end. -/
def State.raiseWrite (s : State) (p : Nat) (i : Instr) (g : State → State) : Host.Outcome State Fault Refusal :=
  s.onPort p (fun s => if s.raising.cmd.isNone && !s.raising.finishing && s.writeHeld p then s.holdWrite p i else g s)
/-- A write of 1 to CLAIM (R330, R331): the first one wins. The claim starts the seal ROM, which reads the PUF (21 R443), zeroes the
measurement registers and extends MR0 (21 R450). -/
def State.claimBy (s : State) (port : Nat) : State :=
  if s.raising.owner.isSome then s
  else
    let s := s.modRaising (fun r => { r with owner := some port, stage := 1 })
    let x : Seal := { s.sealU with ready := true, identity := Config.pufReads s.freeCtr, mr := [0, 0, 0, 0, 0, 0, 0, 0] }
    { s with sealU := x.extend 0 Config.sealRomDigest, freeCtr := s.freeCtr + 1 }
/-- CLAIM (R330): A write to RAISE_CLAIM.CLAIM takes the principal role if none holds it. -/
def execClaim (port : Nat) (s : State) : Host.Outcome State Fault Refusal :=
  s.raiseWrite port (.claim port) (fun s => if s.portLive port then s.claimBy port else s)

/-- VERIFY_FW (R331): The seal verifies the staged firmware package; success locks the staging window and extends MR1 to MR3. -/
def execVerifyFw (port : Nat) (s : State) : Host.Outcome State Fault Refusal :=
  s.raiseWrite port (.verifyFw port) (fun s =>
    let t := s.raiseTake port 1 0#10 false
    match t.2 with
    | none => t.1
    | some _ =>
      let s := t.1.raiseIdle
      let m := s.raising.staging
      let code := fwCheck m s.raising.fwLen s.sealU.fwFloor
      if code ≠ 0 then s.raiseErr code 0 15 1
      else
        let h := m.readBytes 0 352
        let d := fun k => BitVec.ofNat 384 (fwComp h k).2.2
        let x := ((s.sealU.extend 1 (sha384Val (h.take 256))).extend 2 (d 1)).extend 3 (d 2)
        let s := { s with sealU := { x with microDigest := d 1, sillDigest := d 2 } }
        s.modRaising (fun r => { r with stage := 2, fwVer := h.leAt 8 4, locked := true }))

/-- START_CMST (R332): Starts the Cellarmaster pairs and trellis copies from the verified package. -/
def execStartCmst (port : Nat) (s : State) : Host.Outcome State Fault Refusal :=
  s.raiseWrite port (.startCmst port) (fun s => (s.raiseTake port 2 0#10 false).1)

/-- CMST_READY (R332): The firmware reports ready; STAGE becomes CMST_RUNNING and FW_FLOOR advances (21 R448). -/
def execCmstReady (s : State) : Host.Outcome State Fault Refusal :=
  .next (match s.raising.cmd with
    | some c =>
      if c.op = 2 then
        let floor := s.raising.staging.readLe 12 4
        let s := s.raiseIdle.modRaising (fun r => { r with stage := 3 })
        { s with plate := { s.plate with cmstRunning := true }, sealU := { s.sealU with fwFloor := max s.sealU.fwFloor floor } }
      else s
    | none => s)

/-- The escalation state of the summary is applied to one field (R333 step 2, 15 R324); a failing stave's copy begins while the reserve is free (09 R198). -/
def State.applyEsc (s : State) (f : Nat) : State :=
  let e := s.flog.esc
  let s := (List.range 12).foldl (fun s k => s.modBent f k (fun t =>
    { t with esc := Sparse.get 0 e.esc (12 * f + k), holes := (t.holes ++ (e.holes.filter (fun h => h.1 = 12 * f + k)).map (fun h => h.2)).eraseDups
             retired := t.retired || e.bents.contains (12 * f + k) })) s
  let s := [2 * f, 2 * f + 1].foldl (fun s c => s.modCask c (fun k =>
    let top := if Sparse.get 0 e.ceil c = 0 then 16 else Sparse.get 0 e.ceil c
    let k := { k with ceiling := top, failing := (e.staves.filter (fun (x : Nat × Nat) => x.1 = c)).map (fun (x : Nat × Nat) => x.2), excluded := e.casks.contains c }
    { k with copying := if k.copying.isSome then k.copying else k.failing.find? k.canCopy })) s
  s.modField f (fun x => { x with columns := (x.columns ++ (e.columns.filter (fun c => c.1 = f)).map (fun (c : Nat × Nat × Nat × Nat) => (c.2.1, c.2.2.1, c.2.2.2 % 4, c.2.2.2 / 4))).eraseDups })

/-- The licence in the flash is read, checked and takes effect (R333 step 1, 21 R450, R453). -/
def State.readLicence (s : State) : State :=
  let l := s.sealU.licFlash
  let ok := licSound l && licBound s.sealU.identity l
  let x := if ok then { (s.sealU.extend 5 (sha384Val l)) with licence := some (licOf l) } else { s.sealU with licence := none }
  { s with sealU := x, raising := { s.raising with licOk := ok } }

/-- Trips of THERMTRIP_N that the HV controller recorded reach the log and the summary (14 R300, 15 R324, 23 R485). -/
def tripDetail : TripSource → List (Nat × Nat)
  | .bay b => [(1, 1), (1, b.x), (1, b.y)]
  | .sill c => [(1, 2), (1, c), (1, 0)]
  | .external => [(1, 3), (1, 0), (1, 0)]
def State.reportTrips (s : State) : State :=
  let s := s.pins.tripRec.foldl (fun s t =>
    let s := s.report { code := 0x0803, detail := tripDetail t }
    { s with flog := { s.flog with trips := s.flog.trips ++ (s.flog.ring.getLast?).toList } }) s
  { s with pins := { s.pins with tripRec := [] } }

/-- The LATH groups of hubs that came up leave reset (12 R254, R333): of a seam when both its hubs did, of the plate link of F0 or F5 when its
hub did. -/
def State.releaseLath (s : State) : State :=
  let s := (List.range 13).foldl (fun s n => s.modSeam n (fun m => { m with lathReleased := (s.field (seamEnds n).1).hub && (s.field (seamEnds n).2).hub })) s
  { s with plate := { s.plate with lathPlate := [0, 5].filter (fun f => (s.field f).hub) } }

/-- What the grain map says of the fields (R340, 03 R43, 13 R272): holes, CAL from 0 to 30 mV in steps of 5, one failed column a press. -/
def State.readGrain (s : State) (g : GrainBody) : State :=
  let s := g.holes.foldl (fun (s : State) e => if e.1 < 10 ∧ e.2.1 < 12 ∧ e.2.2 ≤ 12 then s.modBent e.1 e.2.1 (fun b => { b with holes := (b.holes ++ [e.2.2]).eraseDups }) else s) s
  let s := g.cals.foldl (fun (s : State) e => if e.1 < 10 ∧ e.2.1 < 12 ∧ e.2.2 ≤ 30 ∧ e.2.2 % 5 = 0 then s.modBent e.1 e.2.1 (fun b => { b with cal := e.2.2 }) else s) s
  g.columns.foldl (fun (s : State) e =>
    if e.1 < 10 ∧ e.2.1 < 12 ∧ e.2.2.1 ≤ 12 ∧ e.2.2.2.1 < 4 ∧ e.2.2.2.2 < 33 then s.modField e.1 (fun x => { x with columns := (x.columns ++ [(e.2.1, e.2.2.1, e.2.2.2.1, e.2.2.2.2)]).eraseDups })
    else s) s

/-- VERIFY_CONFIG (R333): Verifies the grain map and licence, applies the summary, powers hubs and starts the trellis. body is what the body of the
envelope holds, which is opaque to the reader (21 R449); shortedHubs are hubs that do not come up. -/
def execVerifyConfig (port : Nat) (grainMap : Bytes) (body : GrainBody) (shortedHubs : List Nat) (s : State) :
    Host.Outcome State Fault Refusal :=
  s.raiseWrite port (.verifyConfig port grainMap body shortedHubs) (fun s =>
    let t := s.raiseTake port 3 0#10 false
    match t.2 with
    | none => t.1
    | some _ =>
      let s := t.1.raiseIdle
      let ok := grainOk s.sealU.identity grainMap
      let x := if ok then s.sealU.extend 4 (sha384Val (grainMap.take (grainMap.length - 96))) else s.sealU
      let s := { s with sealU := { x with keys := x.keysFlash } }
      let s := s.readLicence
      let s := { s with sealU := s.sealU.extend 6 (sha384Val (keyTableBytes s.sealU.keys)) }
      let s := if ok then s.readGrain body else s
      let s := (List.range 10).foldl (fun s f => s.applyEsc f) s
      let s := s.flog.esc.seams.foldl (fun s n => s.modSeam n (fun m => { m with retired := true })) s
      let dark := fun f => s.flog.esc.shorted.contains f || shortedHubs.contains f
      let s := (List.range 10).foldl (fun s f => s.modField f (fun y => { y with hub := !dark f })) s
      let s := s.releaseLath
      let s := s.reportTrips
      let s := { s with trellis := { s.trellis with started := true } }
      let s := s.modRaising (fun r => { r with stage := 4, grainOk := ok })
      s.raiseErr (if !ok then 0x0F09 else if !s.raising.licOk then 0x0F0A else 0) 0 15 3)

/-- RAISE (R338): Takes the named fields through the raising steps. After RAISE_DONE they end PARKED. -/
def execRaise (port : Nat) (fields : BitVec 10) (memtest : Bool) (found : List FieldFindings) (s : State) : Host.Outcome State Fault Refusal :=
  s.raiseWrite port (.raise port fields memtest found) (fun s =>
    let t := s.raiseTake port 4 fields memtest
    match t.2 with
    | none => t.1
    | some c =>
      let s := t.1
      let fs := columnOrder ((maskFields c.fields).filter (fun f => decide ((s.field f).st = .raising)))
      (raiseGo found c.memtest (decide (s.raising.stage = 5)) 10 fs s).raiseIdle)

/-- UNPARK (R346): Takes the named PARKED fields through the fast re-raise path. -/
def execUnpark (port : Nat) (fields : BitVec 10) (found : List FieldFindings) (s : State) : Host.Outcome State Fault Refusal :=
  s.raiseWrite port (.unpark port fields found) (fun s =>
    let t := s.raiseTake port 6 fields false
    match t.2 with
    | none => t.1
    | some c =>
      let s := t.1
      let fs := columnOrder ((maskFields c.fields).filter (fun f => decide ((s.field f).st = .unparking)))
      (fs.foldl (fun s f => let r := s.fastField f (findingOf found f); r.1.noteRaise f 6 r.2) s).raiseIdle)

/-- RAISE_STEP_TIMEOUT (R338): A raising step overruns its timeout and fails with E_RAISE_TIMEOUT. The command ends with its last
field. -/
def execRaiseStepTimeout (field : Nat) (s : State) : Host.Outcome State Fault Refusal :=
  s.onField field (fun s =>
    let x := s.field field
    if x.st = .raising ∨ x.st = .unparking then
      let r : RStep := { s := s, code := 0x0F18, step := x.step }
      let e := r.finish field x.fast false
      let s := e.1.noteRaise field s.raising.lastOp e.2
      if (List.range 10).any (fun f => decide ((s.field f).st = .raising) || decide ((s.field f).st = .unparking)) then s else s.raiseIdle
    else s)

/-- RAISE_DONE (R345): A write to RAISE_DONE.SET parks raised fields, opens the mailboxes and sets STAGE to DONE. A write by
REGISTER_WRITE that was accepted before is finished here. -/
def execRaiseDone (port : Nat) (s : State) : Host.Outcome State Fault Refusal :=
  s.raiseWrite port (.raiseDone port) (fun s =>
    if s.isPrincipal port && decide (s.raising.stage = 4) && s.raising.cmd.isNone && (s.raising.finishing || s.portLive port) then
      let s := (List.range 10).foldl (fun s f => if (s.field f).st = .raised then s.fieldOff f .parked else s) s
      let s := s.modRaising (fun r => { r with stage := 5, done := true, finishing := false })
      (List.range 4).foldl (fun s p => s.flushVectors p) s
    else s)

end Sys2Proof.Machine
end

