-- ==== Sys2Proof/Machine/HostPorts.lean ====
section
/-! DEFINITION. The host ports' commands (00_scope R7-R10, 14 R303, 15 R326-R328, 16 R330-R336, 17 R351-R368): resets, BAR2, slots and the
staging window, writes of registers, counters, and the perturbation block's actions. -/

namespace Sys2Proof.Machine
open Sys2Proof

/-- PERST_N (R368): PERST_N, hot reset or link loss resets a host port's link and slots. -/
def execPerstN (port : Nat) (kind : PortReset) (s : State) : Host.Outcome State Fault Refusal :=
  s.onPort port (fun s =>
    let s := s.portDown port
    if kind = .perst then s.modPort port (fun q => { q with perst := true }) else s)
/-- FLR (R368): A function-level reset clears a port's configuration, slots and vectors. -/
def execFlr (port : Nat) (s : State) : Host.Outcome State Fault Refusal :=
  s.onPort port (fun s => if s.portLive port then s.portClear port else s)

/-- May an entry of a port's list move data for a parcel: the port runs and owns it (R363)? -/
def State.entryLive (s : State) (port p : Nat) : Bool :=
  s.portLive port && s.raising.done && (s.parcel p).live && decide ((s.parcel p).owner = port)
/-- The write-back of an entry that ended (R362). -/
def State.entryEnds (x : State × Nat × Nat) (port : Nat) (e : CutEntry) : State := x.1.emitPort port (.dmaWrite port (e.addr + 32) (writeBack x.2.1 x.2.2))
/-- SEG_IN (R362): A cut-list entry moves data from host memory to the device. One whose cask the gateway cannot reach waits (09 R196). -/
def execSegIn (port parcel : Nat) (e : CutEntry) (s : State) : Host.Outcome State Fault Refusal :=
  if 4 ≤ port ∨ 4 ≤ parcel then .refused .noSuchUnit
  else .next (if !s.entryLive port parcel || s.entryHeld parcel e then s else State.entryEnds (s.segIn parcel e) port e)
/-- SEG_OUT (R362): A cut-list entry moves data from the device to host memory. One whose cask the gateway cannot reach waits. -/
def execSegOut (port parcel : Nat) (e : CutEntry) (s : State) : Host.Outcome State Fault Refusal :=
  if 4 ≤ port ∨ 4 ≤ parcel then .refused .noSuchUnit
  else .next (if !s.entryLive port parcel || s.entryHeld parcel e then s else State.entryEnds (s.segOut port parcel e) port e)

/-- The parts of a BAR2 access that each stay in one page. -/
def pageParts (off len : Nat) : List (Nat × Nat) :=
  let k := min len (gib - off % gib)
  [(off, k), (off + k, len - k)].filter (fun x => decide (x.2 ≠ 0))
/-- BAR2_WRITE (R355): A host write through a BAR2 page goes through the cellar gateway into a landing region. It is posted: it waits in the
gateway's buffer until the gateway reaches its cask (09 R196); while that buffer is full it waits for credits, and the port's later writes wait
behind it. -/
def execBar2Write (port off : Nat) (d : HostWrite) (s : State) : Host.Outcome State Fault Refusal :=
  s.onPort port (fun s =>
    if !s.portLive port || decide (256 * gib < off + d.data.length) then s
    else if s.writeHeld port || s.postedFull port d.data.length then s.holdWrite port (.bar2Write port off d)
    else
      let ws := (pageParts off d.data.length).map (fun x => (x.1, (d.data.drop (x.1 - off)).take x.2, if x.1 = off then d.beats else []))
      ({ s.modPort port (fun q => { q with posted := q.posted ++ ws }) with gwOrder := s.gwOrder ++ ws.map (fun _ => port) }).portServe port)
/-- BAR2_READ (R355): A host read through a BAR2 page is served by the cellar gateway, after the writes that were posted before it. -/
def execBar2Read (port off len : Nat) (s : State) : Host.Outcome State Fault Refusal :=
  s.onPort port (fun s =>
    if !s.portLive port || decide (256 * gib < off + len) then s
    else (s.modPort port (fun q => { q with reads := q.reads ++ pageParts off len })).portServe port)
/-- BAR2_READ_TIMEOUT (R355): A BAR2 read not served within 10 ms completes with Completer Abort. The row comes at that moment; a read that does
not wait has been served. -/
def execBar2ReadTimeout (port off len : Nat) (s : State) : Host.Outcome State Fault Refusal :=
  s.onPort port (fun s =>
    if s.portLive port && (s.port port).reads.contains (off, len) then
      ((s.modPort port (fun q => { q with reads := q.reads.erase (off, len) })).portErr port 2).emit (.completerAbort port)
    else s)

/-- Does a counter exist? -/
def counterOk : CounterUnit → Bool
  | .bay b i => b.ok && decide (i < 9)
  | .hub f i => decide (f < 10) && decide (i < 4)
  | .plateHub i => decide (i < 4)
  | .cask c i => decide (c < 20) && decide (i < 29)
  | .island f i => decide (f < 10) && decide (i < 5)
  | .plateRef i => decide (i < 6)
  | .lost => true
  | .mbxDropped p => decide (p < 4)
  | .subLink t u i => decide (t < 8) && decide (u < 4) && decide (i < 5)
/-- The counter of a unit. -/
def State.unitCounter (s : State) : CounterUnit → EvCnt
  | .bay b i => (s.bay b).counter i
  | .hub f i => Sparse.get EvCnt.init (s.field f).hubCnt i
  | .plateHub i => Sparse.get EvCnt.init s.plate.hubCnt i
  | .cask c i => Sparse.get EvCnt.init (s.cask c).cnt i
  | .island f i => Sparse.get EvCnt.init (s.field f).cnt i
  | .plateRef i => Sparse.get EvCnt.init s.plate.refCnt i
  | .lost => s.flog.lost
  | .mbxDropped p => (s.port p).dropped
  | .subLink t u i => Sparse.get EvCnt.init (s.subLink t u).cnt i
/-- The number of a unit's counter among the Cellarmaster's latches. -/
def unitKey : CounterUnit → Nat
  | .bay b i => 100 + 16 * bayIx b + i
  | .hub f i => 30000 + 16 * f + i
  | .plateHub i => 31000 + i
  | .cask c i => 32000 + 32 * c + i
  | .island f i => 34000 + 16 * f + i
  | .plateRef i => 35000 + i
  | .lost => 36000
  | .mbxDropped p => 36100 + p
  | .subLink t u i => 37000 + 64 * t + 16 * u + i
def State.keepLatch (s : State) (k : Nat) (w : Word) : State := { s with plate := { s.plate with latches := Sparse.set 0#32 s.plate.latches k w } }

/-- COUNTER_LOW_READ (R7): A read of a 64- or 48-bit counter's low word latches its high word for that reader. A host port reads the module's
energy count and the dropped-slot counter of its own block (14 R302, 17 R359), no unit's counters (05 R101); the Cellarmaster, once it
runs, reads the energy count and every unit's. -/
def execCounterLowRead (r : Reader) (c : CounterName) (s : State) : Host.Outcome State Fault Refusal :=
  let high := BitVec.ofNat 32 (s.energyMj / 2 ^ 32)
  match r with
  | .port p => s.onPort p (fun s =>
      if !s.portLive p then s
      else match c with
        | .telEnergy => s.keepLatch (latchKey p 0) high
        | .mbxDropped => s.keepLatch (latchKey p 1) (s.port p).dropped.high
        | .unit _ => s)
  | .cellarmaster => match c with
      | .telEnergy => .next (if s.plate.cmstRunning then s.keepLatch (latchKey 4 0) high else s)
      | .mbxDropped => .next s
      | .unit u =>
        if !counterOk u then .refused .noSuchUnit
        else .next (if s.plate.cmstRunning then s.keepLatch (unitKey u) (s.unitCounter u).high else s)

/-- COUNTER_SAT_CLEAR (R9, R10): Writing 1 to an event counter's SAT clears SAT and the count. MBX_DROPPED is the one counter whose words a
host writes (17 R359); the units' counters are cleared by module reset alone (05 R101, 09 R201), those of a sub-link by tap.config too (19
R418), and LOST has no register: a clear of them does not happen. -/
def execCounterSatClear (u : CounterUnit) (sameCycleEvent : Bool) (s : State) : Host.Outcome State Fault Refusal :=
  if !counterOk u then .refused .noSuchUnit
  else .next (match u with
    | .mbxDropped p => s.modPort p (fun q => { q with dropped := EvCnt.cleared sameCycleEvent })
    | _ => s)

/-- A write of TRL_FAST_CAP (14 R285, R303): values 1 to 899 leave CAP_W; the term enters 100 µs after, and leaves at once. -/
def State.writeFastCap (s : State) (v : Word) : State :=
  let w := rwField (rwField s.trellis.fastCap v 31 31 anyVal) v 15 0 (fun x => decide (x = 0) || decide (900 ≤ x))
  if w.getLsbD 31 then s.modTrellis (fun t => { t with fastCap := w, fastDue := some (s.tNs + 100000) })
  else s.modTrellis (fun t => { t with fastCap := w, fastActive := 0#32, fastDue := none })
/-- TRL_FAST_CAP (R303): The principal writes the fast cap term. -/
def execTrlFastCap (port : Nat) (value : Word) (s : State) : Host.Outcome State Fault Refusal :=
  s.barWrite port (.trlFastCap port value) (fun s => if s.portLive port && s.isPrincipal port then s.writeFastCap value else s)
/-- FAST_CAP_EFFECT (R285): 100 µs after the write, the fast cap enters the effective cap. -/
def execFastCapEffect (s : State) : Host.Outcome State Fault Refusal :=
  .next (match s.trellis.fastDue with
    | some _ => s.modTrellis (fun t => { t with fastActive := t.fastCap, fastDue := none })
    | none => s)

/-- The parcel that PRT_CTRL names. -/
def Prt.parcel (t : Prt) : Nat := fieldBits t.ctrl 2 1
/-- Set a RW1C bit of PRT_CTRL: 5 HOLD_DONE, 6 INJ_DONE, 7 FSW_REFUSED. -/
def Prt.flag (t : Prt) (bit : Nat) : Prt := { t with ctrl := t.ctrl ||| BitVec.ofNat 32 (2 ^ bit) }
/-- The forecast with one parcel at another FCODE, in milliwatts (14 R295). -/
def State.forecastAt (s : State) (p f : Nat) : Nat :=
  s.runners.foldl (fun n r => let q := s.parcel r; n + s.parcelMw q (if r = p then f else s.fcode q) q.tr.beta) s.trellis.base
/-- The highest FCODE at or below a target that the caps and R203 allow (15 R328, PRT_FSW). -/
def State.fswBest (s : State) (p target : Nat) : Option Nat :=
  let q := s.parcel p
  fcodesDown.find? (fun f => decide (f ≤ target) && decide (f ≤ s.maxF q) && decide (f ≤ s.sclkMaxF q) && s.currentOk q f q.tr.beta && decide (s.forecastAt p f ≤ 1000 * s.effCap))
/-- A forced switch is ordered (15 R328): lowered when the caps ask for it, refused when the count is less than 4,096 fc ahead, when a switch
stands, or while REF_LOSS stands (12 R248). An increase raises VFAB first, and the SWITCH goes out once it has settled (12 R261, 14 R284). -/
def State.forceSwitch (s : State) (p : Nat) : State :=
  let target := fieldBits s.prt.fsw 7 0
  let count : Nat := s.prt.fswLo.toNat + 2 ^ 32 * s.prt.fswHi.toNat
  let q := s.parcel p
  if !countReached count (s.parcelCount p + 4096) || s.refLoss || s.switchPending q then s.modPrt (fun t => t.flag 7)
  else match s.fswBest p target with
    | none => s.modPrt (fun t => t.flag 7)
    | some f =>
      let s := if f < target then s.modPrt (fun t => t.flag 7) else s
      if s.fcode q < f then
        ((q.fields.foldl (fun s k => s.vfabTo k (BitVec.ofNat 8 f)) s).modTr p (fun r => { r with rising := some (f, some count) })).risen p
      else s.sendSwitch p f (some count)
/-- A write of PRT_FSW: FCODE, then the order that EN gives, which acts only for an armed parcel in test mode (R326). -/
def State.writeFsw (s : State) (v : Word) : State :=
  let s := s.modPrt (fun t => { t with fsw := rwField t.fsw v 7 0 (fun x => decide (0x18 ≤ x) && decide (x ≤ 0x48)) })
  if v.getLsbD 31 && s.prtFor s.prt.parcel then s.forceSwitch s.prt.parcel else s
/-- PRT_FSW (R328): A write of PRT_FSW.EN orders a forced frequency switch at the given count. -/
def execPrtFsw (port : Nat) (value : Word) (s : State) : Host.Outcome State Fault Refusal :=
  s.barWrite port (.prtFsw port value) (fun s => if s.portLive port && s.prtWriter port s.prt.parcel then s.writeFsw value else s)

/-- A write of PRT_INJ_CTRL: the fields, then GO. -/
def State.writeInjCtrl (s : State) (v : Word) : State :=
  let s := s.modPrt (fun t => t.writeInj v)
  if v.getLsbD 31 && s.prtFor s.prt.parcel then s.modPrt (fun t => { t with armed := some { pegSeen := false } }) else s
/-- PRT_INJ_GO (R328): A write of PRT_INJ_CTRL.GO arms an injection at the first access after the next peg. -/
def execPrtInjGo (port : Nat) (value : Word) (s : State) : Host.Outcome State Fault Refusal :=
  s.barWrite port (.prtInjGo port value) (fun s => if s.portLive port && s.prtWriter port s.prt.parcel then s.writeInjCtrl value else s)

/-- Fields of a detail that only the access itself shows: free values of the given sizes. -/
def State.freeFields (s : State) : List Nat → List (Nat × Nat) × State
  | [] => ([], s)
  | k :: ks =>
    let f := s.fresh
    let r := f.2.freeFields ks
    ((k, f.1 % 256 ^ k) :: r.1, r.2)
/-- The fault that an injection raises (15 R307, R326): INJECTED, recovered as any other. -/
def State.injected (s : State) (r : Report) (known : List (Nat × Nat)) (open_ : List Nat) : State :=
  let f := s.freeFields open_
  f.2.report { r with injected := true, detail := known ++ f.1 }
/-- The cask that a cellar injection names: for a beat SUB is the channel with the cask of the field above it, for a symbol the relative
cask (15 R328). -/
def State.injCask (s : State) (p unit sub : Nat) (b : BayId) : Option Nat :=
  if unit = 4 then some (2 * fieldOf b + sub / 32 % 2) else (s.parcel p).absCask sub
/-- One bit, where a code corrects it (15 R328): counted, and nothing else; in the vat the next access to the bank finds and counts it. False: no code corrects the unit's word. -/
def State.injectOne (s : State) (p unit sub : Nat) (b : BayId) : State × Bool :=
  match unit with
  | 0 => (s.modBay b (fun x => { x with vat := { x.vat with inject := some (sub, 2) } }), true)
  | 1 => (s.modBay b (fun x => x.count cntPlanCe 1), true)
  | 3 => (s.modBay b (fun x => x.count cntLathCe 1), true)
  | 4 => match s.injCask p 4 sub b with
    | some c => (s.caskCount c ckBeatCe 1, true)
    | none => (s, true)
  | 5 => match s.injCask p 5 sub b with
    | some c => let f := s.fresh; (f.2.symbolCorrected c (f.1 % 17), true)
    | none => (s, true)
  | _ => (s, false)
/-- A detected injection: the fault of its unit (15 R307). In the vat and in the cellar the next access to the bank or the channel meets the error, as
its own rules say (05 R100, R103, 09 R176, 10 R219). -/
def State.injectTwo (s : State) (p unit sub : Nat) (b : BayId) : State :=
  let n := (s.bay b).seq.count.toNat
  let r : Report := { code := 0, parcel := some p, count := n, unit := 0x01, x := b.x, y := b.y }
  let xy := [(1, b.x), (1, b.y)]
  match unit with
  | 0 => s.modBay b (fun x => { x with vat := { x.vat with inject := some (sub, 3) } })
  | 1 => s.injected { r with code := 0x0206 } xy [2]
  | 2 => s.injected { r with code := 0x0304, unit := 0x02 } xy [2, 2, 1]
  | 3 => s.injected { r with code := 0x0305 } [] [1]
  | 4 => match s.injCask p 4 sub b with
    | some c => s.modCask c (fun k => { k with inject := some (some (sub % 32), .beatUncorrectable) })
    | none => s
  | 5 => match s.injCask p 5 sub b with
    | some c => let f := s.fresh
                f.2.modCask c (fun k => { k with inject := some (none, .uncorrectable (some (f.1 % 17))) })
    | none => s
  | 6 => s.injected { r with code := 0x0201, idx := sub % 4 } xy [1]
  | 7 => s.injected { r with code := 0x0201, idx := sub % 4 } xy [1]
  | 8 => s.injected { r with code := 0x0208, idx := 4 } xy []
  | 9 => s.injected { r with code := 0x0207, idx := sub % 4 } xy [1]
  | _ => s
/-- INJECTION (R326): An armed injection flips bits at the target's first access after the peg. -/
def execInjection (s : State) : Host.Outcome State Fault Refusal :=
  .next (match s.prt.armed with
    | some a =>
      let p := s.prt.parcel
      let w := s.prt.injTgt
      let q := s.parcel p
      let b := q.bayAt (fieldBits w 27 22) (fieldBits w 21 17)
      let unit := fieldBits w 31 28
      let sub := fieldBits w 16 11
      let n := fieldBits s.prt.injCtrl 29 28
      if a.pegSeen && s.prtFor p && q.running && b.ok && q.holds (fieldOf b) && decide (n ≠ 0) then
        let s := s.modPrt (fun t => { t.flag 6 with armed := if t.injCtrl.getLsbD 30 then t.armed else none })
        let one := s.injectOne p unit sub b
        if n = 1 ∧ one.2 then one.1 else s.injectTwo p unit sub b
      else s
    | none => s)

/-- A write into a slot (R358): stored while the host owns it, dropped and counted while the device does. -/
def State.slotPut (s : State) (port slot off : Nat) (data : Bytes) : State :=
  if (s.port port).own.getLsbD slot then s.strayWrite port
  else s.modPort port (fun q => { q with slots := q.slots.writeBytes (slotAt slot + off) (data.take (4096 - off)) })
/-- SLOT_WRITE (R358): A host write to mailbox slot bytes is stored while the slot is host-owned, and is dropped with MBX_DROPPED and
STRAY counted while it is device-owned. -/
def execSlotWrite (port slot off : Nat) (data : Bytes) (s : State) : Host.Outcome State Fault Refusal :=
  if 4 ≤ port ∨ 64 ≤ slot then .refused .noSuchUnit
  else .next (if s.writeHeld port then s.holdWrite port (.slotWrite port slot off data)
    else if s.portLive port && decide (off < 4096) then s.slotPut port slot off data else s)

/-- A write into the staging window (16 R330, R331): from the principal, while STAGE is CLAIMED. -/
def State.stagePut (s : State) (port off : Nat) (data : Bytes) : State :=
  if s.isPrincipal port && decide (s.raising.stage = 1) && !s.raising.locked then
    s.modRaising (fun r => { r with staging := r.staging.writeBytes off (data.take (2 ^ 24 - off)) })
  else s
/-- STAGING_WINDOW_WRITE (R331): A host write into the staging window stores package bytes, or is ignored after verification or when it
comes from a non-principal port. -/
def execStagingWindowWrite (port off : Nat) (data : Bytes) (s : State) : Host.Outcome State Fault Refusal :=
  s.barWrite port (.stagingWindowWrite port off data) (fun s => if s.portLive port then s.stagePut port off data else s)

/-- A write of the RAISE block (16 R330, R334-R336). RAISE_CMD is accepted or refused at once; the row of the command brings its work. -/
def State.writeRaise (s : State) (port off : Nat) (v : Word) : State :=
  if off = 0 then (if v.getLsbD 0 then s.claimBy port else s)
  else if !s.isPrincipal port then s
  else if off = 4 then (if v.getLsbD 30 then s.modRaising (fun r => { r with cmdRej := false }) else s)
  else if off = 8 then s.raiseAccept port (fieldBits v 3 0) (BitVec.ofNat 10 (fieldBits v 17 8)) (v.getLsbD 18)
  else if off = 0x10 then
    (if s.raising.stage = 1 ∧ fieldBits v 24 0 ≤ 2 ^ 24 then s.modRaising (fun r => { r with fwLen := fieldBits v 24 0 }) else s)
  else if off = 0x20 then
    (if v.getLsbD 0 ∧ s.raising.stage = 4 ∧ s.raising.cmd.isNone then s.modRaising (fun r => { r with finishing := true }) else s)
  else s
/-- A write of the mailbox control block (17 R357, R359). A GIVE finds no host memory here: GIVE is a row of its own. -/
def State.writeMailbox (s : State) (port off : Nat) (v : Word) : State :=
  if off = 0x10 then s.modPort port (fun q => { q with done := q.done &&& ~~~(v.setWidth 64) })
  else if off = 0x14 then s.modPort port (fun q => { q with done := q.done &&& ~~~(v.setWidth 64 <<< 32) })
  else if off = 0x24 then (if v.getLsbD 31 then s.modPort port (fun q => { q with dropped := EvCnt.cleared false }) else s)
  else if 0x100 ≤ off ∧ off < 0x200 then (if v.getLsbD 0 then s.giveSlot port ((off - 0x100) / 4) [] else s)
  else s
/-- A write of the telemetry mirror (14 R302): from the principal only. -/
def State.writeTel (s : State) (port off : Nat) (v : Word) : State :=
  if !s.isPrincipal port then s
  else if off = 0x44 then s.writeFastCap v
  else if off = 0x48 then s.modTrellis (fun t => { t with evt := t.evt &&& ~~~(v.setWidth 9) })
  else s
/-- A write of the perturbation block (15 R326-R328). -/
def State.writePrt (s : State) (port off : Nat) (v : Word) : State :=
  if !s.prtWriter port (if off = 0 then fieldBits v 2 1 else s.prt.parcel) then s
  else if off = 0 then s.modPrt (fun t => t.writeCtrl v)
  else if off = 0x1C then s.writeFsw v
  else if off = 0x2C then s.writeInjCtrl v
  else s.modPrt (fun t => t.write off v)
/-- A write of the MSI-X table (17 R352, R360): 16 bytes for each vector; bit 0 of the last word masks it. -/
def State.writeMsix (s : State) (port off : Nat) (v : Word) : State :=
  let n := off / 16
  if 96 ≤ n then s
  else if off % 16 = 12 then
    let bit := BitVec.ofNat 96 (2 ^ n)
    (s.modPort port (fun q => { q with mask := if v.getLsbD 0 then q.mask ||| bit else q.mask &&& ~~~bit })).flushVectors port
  else s.modPort port (fun q => { q with msix := q.msix.writeBytes off (natLe 4 v.toNat) })
/-- A write of a word of BAR0 (17 R352); reserved offsets take none. -/
def State.writeReg (s : State) (port off : Nat) (v : Word) : State :=
  let o := off % 4096
  match off / 4096 with
  | 0 => if o = 8 then s.modPort port (fun q => { q with err := q.err &&& ~~~(v.setWidth 5) }) else s
  | 1 => s.writeRaise port o v
  | 2 => s.writeMailbox port o v
  | 3 =>
    if o = 0 then s.modPort port (fun q => { q with evtPend := q.evtPend &&& ~~~(v.setWidth 16) })
    else if o = 4 then s.modPort port (fun q => { q with evtEn := v.setWidth 16 })
    else s
  | 4 => s.writeTel port o v
  | 5 => s.writePrt port o v
  | 16 => s.writeMsix port o v
  | k =>
    if 64 ≤ k ∧ k < 128 then s.slotPut port (k - 64) o (natLe 4 v.toNat)
    else if 4096 ≤ k ∧ k < 8192 then s.stagePut port (off - 0x1000000) (natLe 4 v.toNat)
    else s
/-- REGISTER_WRITE (R5): A write to a register with no row of its own updates its fields by their access codes. -/
def execRegisterWrite (port off : Nat) (value : Word) (s : State) : Host.Outcome State Fault Refusal :=
  s.barWrite port (.registerWrite port off value) (fun s => if s.portLive port && decide (off % 4 = 0) then s.writeReg port off value else s)

end Sys2Proof.Machine
end

