-- ==== Sys2Proof/Machine/Lath.lean ====
section
/-! DEFINITION. The lath (08_joist_mesh_and_lath R164-R172): messages at a node, broadcast loads, the plate's peg checker. -/

namespace Sys2Proof.Machine
open Sys2Proof

/-- Bytes that a LOAD message's CRC covers: the address word and the payload, little-endian (R170). -/
def loadCovered (m : LoadMsg) : Bytes := (m.addr :: m.words).flatMap (fun w => natLe 4 w.toNat)
def loadCrcOk (m : LoadMsg) : Bool := decide (crc32c (loadCovered m) = m.crc)

/-- The bays a LOAD message reaches: one, or every bay whose GROUPS bit for the group is set (R170). -/
def State.loadTargets (s : State) (m : LoadMsg) : List BayId :=
  match m.group with
  | none => [m.bay]
  | some g => (s.bays.filter (fun e => (bayOfIx e.1).ok && decide (g < 64) && e.2.lath.groups.getLsbD g)).map (fun e => bayOfIx e.1)

/-- Bundles of 256 bits, eight words each, the first word lowest (R107, R170). -/
def bundlesOf : Nat → List Word → List (BitVec 256)
  | 0, _ => []
  | k + 1, ws =>
    if ws.length < 8 then []
    else BitVec.ofNat 256 (leNat ((ws.take 8).flatMap (fun w => natLe 4 w.toNat))) :: bundlesOf k (ws.drop 8)

/-- A bay takes a PLAN message: the bundles go into the plan store and into LOAD_CRC (R170, R171). -/
def Bay.loadPlan (b : Bay) (addr : Nat) (ws : List Word) : Bay :=
  { b with plan := storeItems 0#256 16384 b.plan addr (bundlesOf 7 ws)
           lath := { b.lath with loadCrc := crcMore b.lath.loadCrc (ws.flatMap (fun w => natLe 4 w.toNat)) } }
/-- A PEGTAB message. -/
def Bay.loadPegtab (b : Bay) (addr : Nat) (ws : List Word) : Bay :=
  { b with pegtab := storeItems 0#32 4096 b.pegtab addr ws }
/-- A MICRO message. -/
def Bay.loadMicro (b : Bay) (addr : Nat) (ws : List Word) : Bay := { b with micro := storeItems 0#32 (2 ^ 32) b.micro addr ws }

/-- Does the bay's node take a LOAD message now? Its field is powered, and the parcel that holds it runs no invocation (R170);
MICRO is taken during raising only. -/
def State.loadOpen (s : State) (b : BayId) (micro : Bool) : Bool :=
  let f := fieldOf b
  let run := match s.parcelOfField f with
    | some p => (s.parcel p).running
    | none => false
  b.ok && (s.field f).supply.vfab && !run && (!micro || decide ((s.field f).st = .raising) || decide ((s.field f).st = .unparking))

/-- The Cellarmaster sends a LOAD message again to one bay alone (R170). -/
def State.resendLoad (s : State) (b : BayId) (m : LoadMsg) : State := s.emit (.loadResend { m with group := none, bay := b })
/-- A LOAD message at its targets (R170, R172): a failing CRC discards it there, counts LOAD_NAK and sends a NAK, and the Cellarmaster sends
the message again to that bay alone. -/
def State.load (s : State) (m : LoadMsg) (micro : Bool) (f : Bay → Bay) : State :=
  (s.loadTargets m).foldl (fun s b =>
    if s.loadOpen b micro then
      if loadCrcOk m then s.modBay b f
      else ((s.modBay b (fun x => x.count cntLoadNak 1)).emit (.loadNak b m)).resendLoad b m
    else s) s

/-- PLAN (R170): A LOAD message writes bundles into plan stores. -/
def execPlan (m : LoadMsg) (s : State) : Host.Outcome State Fault Refusal :=
  let n := m.words.length
  .next (if n % 8 = 0 ∧ 8 ≤ n ∧ n ≤ 56 then s.load m false (fun b => b.loadPlan m.addr.toNat m.words) else s)

/-- PEGTAB (R170): A LOAD message writes peg digest table entries. -/
def execPegtab (m : LoadMsg) (s : State) : Host.Outcome State Fault Refusal :=
  .next (if m.words.length ≤ 56 then s.load m false (fun b => b.loadPegtab m.addr.toNat m.words) else s)

/-- MICRO (R170): A LOAD message writes sequencer microcode during raising. -/
def execMicro (m : LoadMsg) (s : State) : Host.Outcome State Fault Refusal :=
  .next (if m.words.length ≤ 56 then s.load m true (fun b => b.loadMicro m.addr.toNat m.words) else s)

/-- A node of the lath that exists. -/
def lathNodeOk : LathNode → Bool
  | .bay b => b.ok
  | .hub f => decide (f < 10)
  | .plate => true

/-- Count k words at a node: 0 LATH_CE, 1 LATH_UE (R172). -/
def State.nodeCount (s : State) (n : LathNode) (i k : Nat) : State :=
  match n with
  | .bay b => s.modBay b (fun x => x.count (cntLathCe + i) k)
  | .hub f => s.modField f (fun x => { x with hubCnt := bump x.hubCnt i k })
  | .plate => { s with plate := { s.plate with hubCnt := bump s.plate.hubCnt i k } }

/-- Does a node receive anything (12 R254: a crossing in reset carries nothing)? A bay's node needs its field's VFAB. -/
def State.nodeUp (s : State) : LathNode → Bool
  | .bay b => s.hubUp (fieldOf b) && (s.field (fieldOf b)).supply.vfab
  | .hub f => s.hubUp f
  | .plate => !s.plate.plateReset

/-- The header word of a message (R166): TYPE, LEN, DEST, DKIND, bits 31:28 zero. -/
def lathHeader (m : LathMsg) : Word :=
  BitVec.ofNat 32 (m.type.toNat + 2 ^ 8 * (m.payload.length % 64) + 2 ^ 14 * m.dest.toNat + 2 ^ 26 * m.dkind.toNat)
/-- Is a node the target that DKIND and DEST name (R166)? A message for another node only passes through. -/
def State.addressed (s : State) (m : LathMsg) : LathNode → Bool
  | .bay b => (decide (m.dkind = 0#2) && decide (m.dest.toNat % 64 = b.x) && decide (m.dest.toNat / 64 % 32 = b.y)) ||
      (decide (m.dkind = 1#2) && (s.bay b).lath.groups.getLsbD (m.dest.toNat % 64))
  | .hub f => decide (m.dkind = 2#2) && decide (m.dest.toNat % 16 = f)
  | .plate => decide (m.dkind = 3#2)

/-- The running parcels that a node serves. -/
def State.nodeParcels (s : State) (n : LathNode) : List Nat :=
  (List.range 4).filter (fun p => (s.parcel p).running && (match n with
    | .bay b => (s.parcel p).holds (fieldOf b)
    | .hub f => (s.parcel p).holds f
    | .plate => true))

/-- A lost message of the PEG, CMD or FAULT class during an invocation (R166): the first of the node's running parcels reports
LATH_UNCORRECTABLE, and every one of them fails its run. -/
def State.lathLost (s : State) (n : LathNode) (cls : LathClass) : State :=
  match s.nodeParcels n with
  | [] => s
  | p :: ps =>
    let k : Nat := match cls with
      | .peg => 0
      | .cmd => 1
      | _ => 2
    let r : Report := match n with
      | .bay b => { code := 0x0305, parcel := some p, count := ((s.bay b).seq.count).toNat, unit := 0x01, x := b.x, y := b.y, detail := [(1, k)] }
      | .hub f => { code := 0x0305, parcel := some p, count := (s.islandCount f).toNat, unit := 0x04, x := f, detail := [(1, k)] }
      | .plate => { code := 0x0305, parcel := some p, count := (s.parcelCount p).toNat, unit := 0x04, x := 0xFF, detail := [(1, k)] }
    ps.foldl (fun s q => s.modInv q (fun i => { i with fault := some (i.fault.getD (faultRec s q r)) })) (s.report r)

/-- Does a lost token message carry a bay's token (R167)? A hub's carries every bay of its field; a bay node's own token only that bay; a
bent's summary, with ARRIVED not 0, the bays of its bent. -/
def lathCarries (m : LathMsg) (k : Nat) : Bool :=
  let b := bayOfIx k
  match m.src with
  | .hub f => decide (fieldOf b = f)
  | .bay c => if bitsOf (m.payload.getD 0 0#32).toNat 16 8 = 0 then decide (b = c) else decide (fieldOf b = fieldOf c) && decide (bentOf b = bentOf c)
  | .plate => false
/-- A lost peg token or summary takes the tokens that it combines with it (R167): what stays in the field's summary is the combination of the
others. -/
def State.tokenLost (s : State) (m : LathMsg) : State :=
  let w := BitVec.ofNat 16 (m.payload.getD 0 0#32).toNat
  let drop := fun (t : TokenSum) => { t with parts := t.parts.filter (fun k => !(decide (k.pegno = w) && lathCarries m k.bay)) }
  let f? := match m.src with
    | .bay b => some (fieldOf b)
    | .hub f => some f
    | .plate => none
  match f?.bind (fun f => s.parcelOfField f) with
  | some p => s.modInv p (fun i => { i with tokens := (i.tokens.map drop).filter (fun t => decide (t.parts ≠ [])) })
  | none => s

/-- The LOAD message that a message of the class carries. -/
def lathLoad (m : LathMsg) (b : BayId) : LoadMsg :=
  let n := m.payload.length
  { group := none, bay := b, addr := m.payload.getD 0 0#32, words := (m.payload.drop 1).take (n - 2), crc := m.payload.getD (n - 1) 0#32 }
/-- A LOAD message at a bay's node, by its TYPE (R170); values not listed are reserved. -/
def State.loadAt (s : State) (b : BayId) (m : LathMsg) : State :=
  let n := m.payload.length
  let l := lathLoad m b
  let k := l.words.length
  if n < 2 then s
  else match m.type.toNat with
    | 1 => if k % 8 = 0 ∧ 8 ≤ k ∧ k ≤ 56 then s.load l false (fun x => x.loadPlan l.addr.toNat l.words) else s
    | 2 => if k ≤ 56 then s.load l false (fun x => x.loadPegtab l.addr.toNat l.words) else s
    | 3 => if k ≤ 56 then s.load l true (fun x => x.loadMicro l.addr.toNat l.words) else s
    | _ => s

/-- The clock command in a CMD message (12 R260). -/
def clockCmdOf (m : LathMsg) : ClockCmd :=
  { count := (m.payload.getD 0 0#32).toNat + 2 ^ 32 * (m.payload.getD 1 0#32).toNat, fcode := (m.payload.getD 2 0#32).setWidth 8
    stop := (m.payload.getD 2 0#32).getLsbD 8 }

/-- A CMD message at a hub, by its TYPE (12 R260). The others (hold, restart, park, vintage), whose TYPE and layout the manual does not give,
act at the plate's own commands; here only their count is held against the island's (R169), in words 0 and 1 as in a clock command
(DESIGN CHOICE, log entry 37). -/
def State.cmdAt (s : State) (f : Nat) (m : LathMsg) : State :=
  let c := clockCmdOf m
  match m.type.toNat with
  | 0x20 => s.clockSwitch f c
  | 0x21 => s.clockCancel f c
  | 0x22 => ((seamsOf f).map (fun p => p.1)).foldl (fun s n => s.clockAlign n c.count) s
  | 0x23 => s.clockEpoch f c.count
  | _ => if s.fieldRuns f && countPast (s.islandCount f) c.count then s.lateCommand f c.count else s
/-- A CMD message at a bay's node: a count that the island has passed raises LATE_COMMAND there (R169); islands and seams act at their hubs. -/
def State.cmdAtBay (s : State) (b : BayId) (m : LathMsg) : State :=
  let c := clockCmdOf m
  if m.type.toNat = 0x22 ∨ m.type.toNat = 0x23 ∨ c.stop || !s.fieldRuns (fieldOf b) then s
  else if countPast (s.bay b).seq.count c.count then
    s.report { code := 0x0307, parcel := s.parcelOfBay b, count := (s.bay b).seq.count.toNat, unit := 0x01, x := b.x, y := b.y, detail := [(1, fieldOf b), (8, c.count)] }
  else s

/-- A REG exchange is outstanding at its target until its reply arrives at the plate or a message of it at the target (R165, R166). -/
def State.regEnds (s : State) (n : LathNode) : State := { s with plate := { s.plate with regOut := s.plate.regOut.filter (fun e => decide (e.1 ≠ n)) } }
/-- A lost REG message leaves the exchange with its target without a reply: the target of a write or read, the sender of a reply. -/
def regTarget (m : LathMsg) (n : LathNode) : LathNode := if n = .plate then m.src else n
def State.regLost (s : State) (n : LathNode) (m : LathMsg) : State :=
  let t := regTarget m n
  { s.regEnds t with plate := { (s.regEnds t).plate with regOut := (s.regEnds t).plate.regOut ++ [(t, m)] } }

/-- What the loss of a message at a node does, by its class (R166). -/
def State.msgLost (s : State) (n : LathNode) (m : LathMsg) : State :=
  match m.cls, n with
  | .peg, _ => (s.tokenLost m).lathLost n .peg
  | .cmd, _ => s.lathLost n .cmd
  | .fault, _ => s.lathLost n .fault
  | .reg, _ => s.regLost n m
  | .load, .bay b => (s.emit (.loadNak b (lathLoad m b))).resendLoad b (lathLoad m b)
  | _, _ => s

/-- LATH_MESSAGE_RECEIVE (R166): A lath node receives a message and corrects its words, header first; it discards the message if one is
uncorrectable. -/
def execLathMessageReceive (node : LathNode) (m : LathMsg) (ecc : List Ecc) (s : State) : Host.Outcome State Fault Refusal :=
  if !lathNodeOk node then .refused .noSuchUnit
  else if !s.nodeUp node then .next s
  else
    let words := ecc.take (m.payload.length + 1)
    let ue := words.count .uncorrectable
    let s := (s.nodeCount node 0 (words.count .corrected)).nodeCount node 1 ue
    .next (if 0 < ue then s.msgLost node m
      else if !s.addressed m node then s
      else match m.cls, node with
        | .cmd, .hub f => s.cmdAt f m
        | .cmd, .bay b => s.cmdAtBay b m
        | .load, .bay b => s.loadAt b m
        | .reg, _ => s.regEnds (regTarget m node)
        | _, _ => s)

/-- The kind of a field's failure at a peg (R168): none, or the first failing check in the table's order. -/
def tokenKind (exp : Nat) : Option TokenSum → Nat
  | none => 1
  | some t =>
    if t.arrived < 144 then 2
    else if !t.agree || decide (t.pegno ≠ BitVec.ofNat 16 exp) then 3
    else if !t.digestOk then 4
    else 0

/-- One field's check at the deadline of a peg (R168). -/
def State.checkField (s : State) (p ord exp : Nat) (f : Nat) : State :=
  let t := match (s.parcel p).inv with
    | some i => i.tokens.find? (fun t => t.field = f ∧ t.ord = ord)
    | none => none
  let k := tokenKind exp t
  if k = 0 then s
  else s.report { code := 0x0306, parcel := some p, count := (s.parcelCount p).toNat, unit := 0x04, x := f, detail := [(1, f), (4, exp), (1, k)] }

/-- The phase marker a peg's summaries carry, from the one that includes the parcel's first bay (R126, R167). -/
def phaseOf (ts : List TokenSum) (first : BayId) (ord : Nat) : Option (BitVec 8) :=
  match ts.find? (fun t => t.field = fieldOf first ∧ t.ord = ord) with
  | some t =>
    let w := t.word1 (bayIx first)
    if w.getLsbD 8 then some (w.setWidth 8) else none
  | none => none

/-- The plate's check of a parcel's next peg (R168): every field's summary, the peg clocks of R316, the phase, END. -/
def State.pegCheck (s : State) (p : Nat) : State :=
  match (s.parcel p).inv with
  | none => s
  | some i =>
    let ord := i.checked + 1
    let np := if i.prologueRan then (s.parcel p).prologuePegs else 0
    let exp := if ord ≤ np then ord else ord - np
    let fs := (s.parcel p).fields
    let s := fs.foldl (fun s f => s.checkField p ord exp f) s
    let s := fs.foldl (fun s f => s.modField f (fun x => { x with pegClock := x.pegClock + 1 })) s
    let s := s.pegLevers p (phaseOf i.tokens (s.parcel p).firstBay ord)
    s.modInv p (fun j => { j with checked := ord, endSeen := j.endSeen || j.tokens.any (fun t => decide (t.ord = ord) && t.isEnd)
                                  tokens := j.tokens.filter (fun t => decide (ord < t.ord)) })

/-- PEG_CHECK (R168): At the deadline the plate's peg checker checks every field's summary for the peg. A peg that the tracker has
not reached has no deadline yet, and a stop before it does not count toward one. -/
def execPegCheck (parcel : Nat) (s : State) : Host.Outcome State Fault Refusal :=
  if 4 ≤ parcel then .refused .noSuchUnit
  else .next (if s.pegReached parcel then s.pegCheck parcel else s)

end Sys2Proof.Machine
end

