-- ==== Sys2Proof/Machine/Power.lean ====
section
/-! DEFINITION. Power: HV_EN, PWR_OK and MOD_RESET_N, input loss, converters, a field's supply, its failures (13, 23 R483-R486). -/

namespace Sys2Proof.Machine
open Sys2Proof

/-- What the seal keeps in the module record flash when its volatile state goes (21 R446). -/
def Seal.restart (x : Seal) : Seal :=
  { Seal.init with fwFloor := x.fwFloor, pkgFloor := x.pkgFloor, debugCounter := x.debugCounter, storeEpoch := x.storeEpoch, licFlash := x.licFlash
                   keysFlash := x.keysFlash, identity := x.identity }
/-- What the fault log keeps in the flash: the summary (15 R324). -/
def FaultLog.restart (x : FaultLog) : FaultLog := { FaultLog.init with recs := x.recs, esc := x.esc, trips := x.trips }

/-- The logic side loses its state; only the module record flash and the HV section keep theirs (00_scope, 13 R269, 17 R368). -/
def State.logicLost (s : State) : State :=
  { s with
    bays := [], parcels := [], fields := [], seams := [], hops := [], casks := [], gw := { grpCask := [], grpChan := [] }, raising := Raising.init, ports := []
    taps := [], flog := s.flog.restart, baySus := [], sealU := s.sealU.restart, trellis := Trellis.init, prt := Prt.init, waits := [], gwOrder := [], held := [] }

/-- Every rail goes down (R269); what the HV section knows stays. -/
def State.powerDown (s : State) : State :=
  let p := s.plate
  { s.logicLost with
    plate := { Plate.init with inputLoss := p.inputLoss, returned := p.returned, disconnect := p.disconnect, conv := p.conv, insulation := p.insulation }
    pins := { s.pins with pwrOk := false, alert := false, eidI3c := 0#8, eidSmb := 0#8, i3cDyn := none } }

/-- The plate-side rails come up and PWR_OK asserts (R269); SB_ADDR is sampled (23 R488). -/
def State.powerUp (s : State) : State :=
  { s with plate := { s.plate with bus := true, plateRails := true, plateReset := true }
           pins := { s.pins with pwrOk := true, hvEnWait := false, therm := none, sbAddr := s.pins.sbStrap } }

/-- Is the HV input present and in range (R264), and does at least one converter work (R266)? -/
def State.inputOk (s : State) : Bool := s.plate.inputLoss.isNone && !s.plate.disconnect && decide (s.plate.conv ≠ 0#4)
/-- Rails come up when HV_EN takes effect with the input in range (23 R484); otherwise nothing happens until input is restored. -/
def State.tryPower (s : State) : State := if s.inputOk && !s.pins.pwrOk then s.powerUp else s

/-- HV_EN_ASSERT (23 R484): The HV section is enabled and the rails come up when the input is in range. Within 1 s of a deassertion it
takes effect when that hold ends. -/
def execHvEnAssert (s : State) : Host.Outcome State Fault Refusal :=
  .next (if s.pins.hvEn then s
    else
      let held := match s.pins.hvOffNs with
        | some t => decide (s.tNs < t + 1000000000)
        | none => false
      let s := { s with pins := { s.pins with hvEn := true, hvEnWait := held } }
      if held then s else s.tryPower)

/-- HV_EN_DEASSERT (23 R484): Rails go down within 2 ms and all logic-side state is lost. -/
def execHvEnDeassert (s : State) : Host.Outcome State Fault Refusal :=
  .next (if s.pins.hvEn then
      let s := s.powerDown
      { s with pins := { s.pins with hvEn := false, hvEnWait := false, hvOffNs := some s.tNs } }
    else s)

/-- PLATE_RESET_EXIT (16 R329): The plate leaves reset, the reference PLL locks or runs in holdover, and the raising engine issues the
SYNC strobe. -/
def execPlateResetExit (s : State) : Host.Outcome State Fault Refusal :=
  .next (if s.pins.pwrOk && s.plate.plateReset && !s.pins.modResetLow then
      let hold := s.plate.ref25Lost
      { s with plate := { s.plate with plateReset := false, holdover := hold, sync := true, master := 0, wall := 0#64 } }
    else s)

/-- The logic side resets while the plate-side rails stay up (13 R269, 17 R368, 23 R486). -/
def State.moduleReset (s : State) : State :=
  let p := s.plate
  { s.logicLost with
    plate := { Plate.init with inputLoss := p.inputLoss, returned := p.returned, disconnect := p.disconnect, conv := p.conv, insulation := p.insulation
                               bus := p.bus, plateRails := p.plateRails, plateReset := true, ref25Lost := p.ref25Lost, ref156Lost := p.ref156Lost, oscLost := p.oscLost }
    pins := { s.pins with alert := false } }

/-- MOD_RESET_N (23 R486): A low level of at least 10 us resets the logic side; below 1 us it is ignored; between them it may or may not
act, which the manual leaves open (log entry 9). -/
def execModResetN (widthNs : Nat) (s : State) : Host.Outcome State Fault Refusal :=
  .next (if s.pins.pwrOk && !decide (widthNs < 1000) && (decide (10000 ≤ widthNs) || Config.shortResetActs widthNs) then s.moduleReset else s)

/-- THERMTRIP_N (14 R300, 23 R485): THERMTRIP_N is asserted and removes every rail within 1 ms. The HV controller records the source. -/
def execThermtripN (src : TripSource) (s : State) : Host.Outcome State Fault Refusal :=
  let ok := match src with
    | .bay b => b.ok
    | .sill c => decide (c < 20)
    | .external => true
  if ok then
    let s := { s with pins := { s.pins with therm := some src, tripRec := s.pins.tripRec ++ [src] } }
    .next (s.powerDown.emit .thermtrip)
  else .refused .noSuchUnit

/-- A power event reaches the log while the Cellarmaster runs (R280, 15 R324). -/
def State.pwrEvent (s : State) (k unit x idx : Nat) (p : Option Nat) (masked : Bool) : State :=
  if s.plate.cmstRunning then s.powerEvent k unit x 0 idx p masked else s

/-- Entries that the summary keeps at once: INPUT_LOSS and THERMTRIP (15 R324). -/
def State.keepLast (s : State) : State :=
  match s.flog.ring.getLast? with
  | some e => { s with flog := { s.flog with trips := s.flog.trips ++ [e] } }
  | none => s

/-- An idle parcel runs at 0.6 GHz at once (14 R297). -/
def State.idleSlow (s : State) (p : Nat) : State := s.idleTo p 0x18#8

/-- INPUT_LOSS (R264): The HV controller declares input loss and the trellis brings the module to 1,000 W (14 R297): it parks every
running parcel and lowers every idle one. A second loss before input is restored continues the first. -/
def execInputLoss (pulled : Bool) (s : State) : Host.Outcome State Fault Refusal :=
  let first := s.plate.inputLoss.isNone
  let s := { s with plate := { s.plate with inputLoss := some (s.plate.inputLoss.getD s.tNs), returned := false, disconnect := s.plate.disconnect || pulled } }
  .next (if first && s.plate.cmstRunning then
      let s := (s.pwrEvent 1 0x0B 0 0 none false).keepLast.contractSees 2
      (List.range 4).foldl (fun s p =>
        if (s.parcel p).running then s.askPark p .trellis
        else if (s.parcel p).st = .idle then s.idleSlow p
        else s) s
    else s)

/-- INPUT_RETURNED (R264): Input has stayed in range for 1 ms and the module runs on. -/
def execInputReturned (s : State) : Host.Outcome State Fault Refusal :=
  .next (if s.inputLost then { s with plate := { s.plate with returned := true } } else s)

/-- INPUT_RESTORED (R264): Input has returned and the hold-up bank has recharged; INPUT_LOSS and its 1,000 W term clear. An HV_EN that
waits for input takes effect (23 R484). -/
def execInputRestored (s : State) : Host.Outcome State Fault Refusal :=
  .next (if s.inputLost && s.plate.returned then
      let s := { s with plate := { s.plate with inputLoss := none, returned := true, disconnect := false } }
      let s := s.pwrEvent 2 0x0B 0 0 none false
      if s.pins.hvEn && !s.pins.hvEnWait && s.pins.therm.isNone then s.tryPower else s
    else s)

/-- RIDE_THROUGH_END (R267): At 20 ms without returned input the HV controller removes every rail. -/
def execRideThroughEnd (s : State) : Host.Outcome State Fault Refusal :=
  .next (if s.inputLost && !s.plate.returned then
      let s := s.powerDown
      { s with pins := { s.pins with tripRec := [] } }
    else s)

/-- CONVERTER_DEGRADED (R266): A converter module stops and the trellis caps module power; with none left the module shuts down. -/
def execConverterDegraded (k : Nat) (s : State) : Host.Outcome State Fault Refusal :=
  if 4 ≤ k then .refused .noSuchUnit
  else .next (if s.plate.conv.getLsbD k then
      let s := { s with plate := { s.plate with conv := s.plate.conv &&& ~~~(BitVec.ofNat 4 (2 ^ k)) } }
      let s := s.pwrEvent 3 0x0B 0 k none false
      if s.plate.conv = 0#4 then s.powerDown else s
    else s)

/-- BUS_COLLAPSE (R266, R280): The 54 V bus falls below 46 V for 10 us: the event, and the module shuts down. -/
def execBusCollapse (s : State) : Host.Outcome State Fault Refusal :=
  .next (if s.plate.bus then (s.pwrEvent 4 0x0B 0 0 none false).powerDown else s)

/-- INSULATION_CHECK (R265): The HV controller measures pole-to-earth insulation and warns below 1 Mohm. -/
def execInsulationCheck (plusKohm minusKohm : Nat) (s : State) : Host.Outcome State Fault Refusal :=
  let m := min plusKohm minusKohm
  let s := { s with plate := { s.plate with insulation := m } }
  .next (if m < 1000 then s.pwrEvent 5 0x0B 0 (if plusKohm < 1000 then 0 else 1) none false else s)

/-- A field whose supply or bent is gone is dark: its hub too is cut off (R273, R276); the parcel that holds it fails. -/
def State.fieldDark (s : State) (f : Nat) : State :=
  let s := s.fieldFails f
  (s.hubDown f).darkField f

/-- A field loses both supply paths (R271). -/
def State.supplyLost (s : State) (f : Nat) : State :=
  if (s.field f).supply.lost then s
  else
    let s := s.pwrEvent 12 0x0A f f (s.parcelOfField f) false
    let s := s.modField f (fun x => { x with supply := { x.supply with lost := true }, tripped := true })
    (s.modEsc (fun e => { e with shorted := e.shorted ++ [f] })).fieldDark f

/-- The lateral path fails and the vertical one carries the field (R271). -/
def State.fallback (s : State) (f : Nat) : State :=
  if (s.field f).supply.latFailed then s
  else
    let s := s.modField f (fun x => { x with supply := { x.supply with latFailed := true, capA := min x.supply.capA 280 } })
    let s := s.pwrEvent 7 0x0A f f (s.parcelOfField f) false
    if (s.field f).supply.verFailed then s.supplyLost f else s

/-- PHASE_DEGRADED (R270): A lateral regulator drops a failed phase; with fewer than 20 left the lateral path fails. -/
def execPhaseDegraded (field phase : Nat) (s : State) : Host.Outcome State Fault Refusal :=
  if 24 ≤ phase then .refused .noSuchUnit
  else s.onField field (fun s =>
    let x := s.field field
    if x.supply.badPhases.contains phase || !x.supply.vfab then s
    else
      let s := s.modField field (fun x => { x with supply := { x.supply with badPhases := x.supply.badPhases ++ [phase] } })
      let s := s.pwrEvent 6 0x0A field phase (s.parcelOfField field) true
      if 4 < (s.field field).supply.badPhases.length then s.fallback field else s)

/-- FALLBACK_ACTIVE (R271): A field's lateral path fails and the vertical regulator carries it under a 280 A cap. -/
def execFallbackActive (field : Nat) (s : State) : Host.Outcome State Fault Refusal :=
  s.onField field (fun s => if (s.field field).supply.vfab then s.fallback field else s)

/-- VERTICAL_DEGRADED (R271): A field's vertical fall-back regulator fails, without a cap. -/
def execVerticalDegraded (field : Nat) (s : State) : Host.Outcome State Fault Refusal :=
  s.onField field (fun s =>
    if (s.field field).supply.verFailed || !s.plate.bus then s
    else
      let s := s.modField field (fun x => { x with supply := { x.supply with verFailed := true } })
      let s := s.pwrEvent 13 0x0A field field (s.parcelOfField field) true
      if (s.field field).supply.latFailed then s.supplyLost field else s)

/-- A second slice fails and the bent goes dark (R273). -/
def State.retireBent (s : State) (f b slice : Nat) : State :=
  if (s.bent f b).retired then s
  else
    let s := s.modBent f b (fun t => { t with slices := t.slices ++ [slice], retired := true })
    let s := s.pwrEvent 9 0x0A f b (s.parcelOfField f) false
    (s.modEsc (fun e => { e with bents := e.bents ++ [12 * f + b] })).fieldDark f

/-- TRIM_DEGRADED (R273): One trim slice of a bent fails and its neighbours take its share; a second one retires the bent. A slice that has
failed is disconnected and fails no more. -/
def execTrimDegraded (field bent slice : Nat) (s : State) : Host.Outcome State Fault Refusal :=
  if 12 ≤ bent ∨ 14 ≤ slice then .refused .noSuchUnit
  else s.onField field (fun s =>
    if !(s.field field).supply.vfab || (s.bent field bent).slices.contains slice then s
    else if (s.bent field bent).slices = [] then
      (s.modBent field bent (fun t => { t with slices := [slice] })).pwrEvent 8 0x0A field bent (s.parcelOfField field) true
    else s.retireBent field bent slice)

/-- BENT_RETIRED (R273): A second slice of a bent fails, the bent goes dark and its field fails. -/
def execBentRetired (field bent slice : Nat) (s : State) : Host.Outcome State Fault Refusal :=
  if 12 ≤ bent ∨ 14 ≤ slice then .refused .noSuchUnit
  else s.onField field (fun s =>
    if !(s.field field).supply.vfab || (s.bent field bent).slices = [] || (s.bent field bent).slices.contains slice then s else s.retireBent field bent slice)

/-- VBENT of a bent (R272): V(f), CAL and ESC. -/
def State.vbent (s : State) (f b : Nat) : Nat := vOf (s.field f).island.live + (s.bent f b).cal + (s.bent f b).esc
/-- STRUT_INJECT (R274): A bay's struts inject charge when its local voltage falls 15 mV below VBENT. How far that draws them down, between 0.9 V
and their charge, is a free value; they recharge within 200 ns. -/
def execStrutInject (x : StrutSense) (s : State) : Host.Outcome State Fault Refusal :=
  let b := x.b
  let localMv := x.localMv
  if b.ok then
    .next (if (s.field (fieldOf b)).supply.vfab && decide (localMv + 15 ≤ s.vbent (fieldOf b) (bentOf b)) then
      let full := s.strutMv b
      let (v, s) := s.fresh
      let left := if full < 900 then full else 900 + v % (full - 899)
      (s.modField (fieldOf b) (fun x => { x with supply := { x.supply with strutLow := Sparse.set (0, 0) x.supply.strutLow (bayIx b) (left, s.tNs + 200) } })).emit (.strut b)
    else s)
  else .refused .noSuchUnit

/-- One comparison of a bump group (R275): how far its drop in µV lies above model × current, in millionths; 0 without current. -/
def crackExcess (model : Nat) (drop ma : Nat) : Int :=
  if model * ma = 0 then 0 else ((drop * 1000 * 1000000 / (model * ma) : Nat) : Int) - 1000000
/-- What 100 ms of comparisons say of a group: open above 60 % or without any current, suspect above 25 %. -/
def crackOpen (e : Int × Nat × Nat) : Bool := decide (e.2.2 = 0) || decide (600000 * (e.2.1 : Int) < e.1)
def crackSuspect (e : Int × Nat × Nat) : Bool := decide (250000 * (e.2.1 : Int) < e.1)
/-- One group's event (R275): once for each group and finding until module reset. -/
def State.crackEvent (s : State) (f g : Nat) (open_ : Bool) : State :=
  let x := (s.field f).supply
  if (if open_ then x.openGroups else x.suspectGroups).contains g then s
  else
    let s := s.modField f (fun x => { x with supply := { x.supply with
      capA := min x.supply.capA (if open_ then 350 else 490), openGroups := x.supply.openGroups ++ (if open_ then [g] else [])
      suspectGroups := x.supply.suspectGroups ++ [g] } })
    s.pwrEvent 10 0x0A f g (s.parcelOfField f) false
/-- The 100 ms that have passed are judged group by group, and the next begin. -/
def State.crackJudge (s : State) (f : Nat) : State :=
  let m := (s.field f).supply.crack
  let s := s.modField f (fun x => { x with supply := { x.supply with crackNs := none, crack := [] } })
  m.foldl (fun s e => if crackOpen e.2 then s.crackEvent f e.1 true else if crackSuspect e.2 then s.crackEvent f e.1 false else s) s
/-- CRACK_CHECK (R275): Every 10 µs the lateral controller compares each bump group's drop (µV) with its model × current (mA), both listed by group
(a group without an entry has no current), and averages the excess over 100 ms, taken one after the other (DESIGN CHOICE, log entry 54); an excess caps the field's current until module reset. -/
def execCrackCheck (field : Nat) (drops currents : List (Nat × Nat)) (s : State) : Host.Outcome State Fault Refusal :=
  s.onField field (fun s =>
    if !(s.field field).supply.vfab then s
    else
      let since := (s.field field).supply.crackNs.getD s.tNs
      let s := s.modField field (fun x => { x with supply := { x.supply with
        crackNs := some since
        crack := (drops.filter (fun e => decide (e.1 < 48))).foldl (fun m e =>
          let o := Sparse.get (0, 0, 0) m e.1
          let ma := Sparse.get 0 currents e.1
          Sparse.set (0, 0, 0) m e.1 (o.1 + crackExcess (x.supply.models.getD e.1 0) e.2 ma, o.2.1 + 1, o.2.2 + ma)) x.supply.crack } })
      if since + 100000000 ≤ s.tNs + 10000 then s.crackJudge field else s)

/-- FIELD_SHORT (R276): A field's regulators trip; its parcel fails and the field stays dark until module reset. -/
def execFieldShort (field : Nat) (s : State) : Host.Outcome State Fault Refusal :=
  s.onField field (fun s =>
    if (s.field field).supply.shorted || !(s.field field).supply.vfab then s
    else ((s.fieldTrips field (s.parcelOfField field)).fieldFails field).darkField field)

/-- FIELD_SUPPLY_LOST (R271): A field loses both supply paths and is handled as a short. -/
def execFieldSupplyLost (field : Nat) (s : State) : Host.Outcome State Fault Refusal :=
  s.onField field (fun s => if (s.field field).supply.vfab then s.supplyLost field else s)

/-- PLATE_LATH_LOST (R278): The hubs of F0 and F5 are both dark; every raised field goes down and every running parcel fails. -/
def execPlateLathLost (s : State) : Host.Outcome State Fault Refusal :=
  .next (if (s.field 0).hub || (s.field 5).hub || !s.plate.cmstRunning then s
    else
      let run := (List.range 4).filter (fun p => (s.parcel p).running)
      let s := run.foldl (fun s p => (s.parcel p).fields.foldl (fun s f =>
        s.report { code := 0x0306, parcel := some p, count := (s.parcelCount p).toNat, unit := 0x04, x := f, detail := [(1, f), (4, (s.parcel p).pegno + 1), (1, 1)] }) s) s
      let s := (List.range 10).foldl (fun s f => if (s.field f).st = .raised then s.fieldFails f else s) s
      run.foldl (fun s p => s.loseParcel p) s)

end Sys2Proof.Machine
end

