-- ==== Sys2Proof/Machine/Hardware.lean ====
section
/-! DEFINITION. Module hardware (23) and the rows that stand with it: link training, D3hot, pluggables, the sideband's addresses, the
HV_EN hold, the summary, REG retries, injected stretches, JTAG. -/

namespace Sys2Proof.Machine
open Sys2Proof

/-- Does the sideband answer (23 R487, R488)? -/
def State.sideLive (s : State) : Bool := s.pins.pwrOk && !s.plate.plateReset
/-- SET_ENDPOINT_ID (23 R488): The bus owner assigns the MCTP endpoint ID. 0 and 0xFF name no endpoint and are refused with the standard's
invalid-data code (PRESUMED, log entry 45). -/
def execSetEndpointId (bus : SideBus) (eid : BitVec 8) (s : State) : Host.Outcome State Fault Refusal :=
  .next (if !s.sideLive then s
    else if eid = 0#8 ∨ eid = 0xFF#8 then s.emit (.mctpReply bus [2#8])
    else
      let s := match bus with
        | .i3c => { s with pins := { s.pins with eidI3c := eid } }
        | .smbus => { s with pins := { s.pins with eidSmb := eid } }
      s.emit (.mctpReply bus [0#8, 0#8, eid, 0#8]))

/-- SETDASA (23 R487): The I3C controller assigns the module's dynamic address with SETDASA or ENTDAA. A target that has one keeps it. -/
def execSetdasa (dynamicAddr : BitVec 7) (_enter : Bool) (s : State) : Host.Outcome State Fault Refusal :=
  .next (if s.sideLive && s.pins.i3cDyn.isNone then { s with pins := { s.pins with i3cDyn := some dynamicAddr } } else s)

/-- A speed and a width of TEL_PORT (17 R353). -/
def linkOk (speed width : Nat) : Bool := decide (1 ≤ speed) && decide (speed ≤ 6) && [1, 2, 4, 8].contains width
/-- A link comes up (12 R254, 17 R350): the reference is chosen at the deassertion of PERST_N and kept until the next one. -/
def State.linkTrained (s : State) (p speed width : Nat) (refclk : Bool) : State :=
  let q := s.port p
  let again := q.perst
  if !again && q.refLost then s
  else
    let mode := if again then s.refChoice refclk else q.refmode
    (s.modPort p (fun q => { q with linkUp := true, perst := false, refLost := false, speed := speed, width := width, refmode := mode })).flushVectors p
/-- LINK_UP (R254): A host port's link training completes; LINK_UP sets, the HOST reset group is released and BAR0 begins to answer. -/
def execLinkUp (port : Nat) (speed width : BitVec 4) (refclk : Bool) (s : State) : Host.Outcome State Fault Refusal :=
  s.onPort port (fun s => if !s.plate.plateReset && linkOk speed.toNat width.toNat then s.linkTrained port speed.toNat width.toNat refclk else s)

/-- D3HOT (17 R351): A port enters D3hot and stops decoding BARs, DMA and MSI-X, or returns to D0 and releases the answers held
meanwhile. -/
def execD3hot (port : Nat) (enter : Bool) (s : State) : Host.Outcome State Fault Refusal :=
  s.onPort port (fun s =>
    let q := s.port port
    if !q.linkUp then s
    else if enter then s.modPort port (fun q => { q with d3hot := true })
    else if !q.d3hot then s
    else (q.held.foldl (fun (s : State) o => s.emit o) (s.modPort port (fun q => { q with d3hot := false, held := [] }))).flushVectors port)

/-- PLUGGABLE_PRESENCE (23 R482): A cage's presence line changes; the module identifies the pluggable under CMIS and enables its lanes, or
runs the cage as a CR channel. A pluggable that fails identification leaves its sub-links down. -/
def execPluggablePresence (tap : Nat) (present copper identified : Bool) (s : State) : Host.Outcome State Fault Refusal :=
  if 8 ≤ tap then .refused .noSuchUnit
  else .next (if s.plate.plateReset then s
    else
      let s := s.modTap tap (fun x => { x with present := present, copper := copper, identified := identified })
      if present && !copper && !identified then s.tapDown tap else s)

/-- REG_EXCHANGE_RETRY (08 R166): 1 µs after a REG exchange with no reply, the Cellarmaster retries the exchange. -/
def execRegExchangeRetry (node : LathNode) (s : State) : Host.Outcome State Fault Refusal :=
  if !lathNodeOk node then .refused .noSuchUnit
  else .next (match s.plate.regOut.find? (fun e => decide (e.1 = node)) with
    | some e => s.emit (.lathNode node e.2)
    | none => s)

/-- SUMMARY_WRITE (15 R324): Firmware writes the fault-log summary to the module record flash and sets SUMMARISED on the entries it counts,
at most once a minute. -/
def execSummaryWrite (s : State) : Host.Outcome State Fault Refusal :=
  let now := s.plate.wall.toNat
  let soon := match s.flog.lastWrite with
    | some t => decide (now < t + 60000000000)
    | none => false
  .next (if !s.plate.cmstRunning || s.plate.cmstFailed || soon then s else { s with flog := s.flog.writeSummary now })

/-- HV_EN_HOLD_END (23 R484): 1 s after HV_EN was deasserted, a held THERMTRIP_N latch releases and an HV_EN assertion that came early takes
effect. -/
def execHvEnHoldEnd (s : State) : Host.Outcome State Fault Refusal :=
  .next (match s.pins.hvOffNs with
    | none => s
    | some _ =>
      if s.pins.hvEn && !s.pins.hvEnWait then { s with pins := { s.pins with hvOffNs := none } }
      else
        let early := s.pins.hvEnWait
        let s := { s with pins := { s.pins with hvOffNs := none, therm := none, hvEnWait := false } }
        if early then s.tryPower else s)

/-- One injected stretch: ST counts it, no detector asked for it. -/
def State.stretchInjected (s : State) (f : Nat) : State :=
  (s.modField f (fun x => { x with island := { x.island with st := x.island.st + 1#4 } })).emit (.stretch f)
/-- STRETCH_INJECTION (15 R328): While PRT_STRETCH is enabled, the named field stretches a burst of cycles every PERIOD running cycles. -/
def execStretchInjection (s : State) : Host.Outcome State Fault Refusal :=
  let w := s.prt.stretch
  let p := s.prt.parcel
  let f := fieldBits w 27 24
  .next (if s.prtFor p && w.getLsbD 31 && decide (16 ≤ fieldBits w 19 0) && (s.parcel p).holds f && (s.field f).supply.vfab && !s.stretchHeld f then
      (List.range (fieldBits w 23 20 + 1)).foldl (fun (s : State) _ => s.stretchInjected f) s
    else s)

/-- Does the unlock scope allow a JTAG instruction (21 R456)? FULL holds BOUNDARY's functions too (DEDUCED). -/
def jtagAllowed (scope : Nat) : JtagOp → Bool
  | .idcode => true
  | .bypass => true
  | .extest => decide (scope ≠ 0)
  | .samplePreload => decide (scope ≠ 0)
  | .internalScan => decide (2 ≤ scope)
  | .memoryAccess => decide (2 ≤ scope)
/-- JTAG_INSTRUCTION (21 R456): An instruction shifted in over JTAG is executed if the unlock scope allows it, and otherwise only IDCODE and
BYPASS answer. What a scan moves in and out is the tester's. -/
def execJtagInstruction (op : JtagOp) (s : State) : Host.Outcome State Fault Refusal :=
  .next (if s.plate.plateRails && jtagAllowed s.sealU.scope op then s.emit (.jtag op) else s)

end Sys2Proof.Machine
end

