-- ==== Sys2Proof/Machine/Lathe.lean ====
section
/-! DEFINITION. The lathe (04_the_lathe, 07_bay_instructions R144-R146). -/

namespace Sys2Proof.Machine
open Sys2Proof

/-- IADD (R66): Lane-wise INT32 addition. -/
def execIadd (b : BayId) (p : Pred) (f : LatheF) (s : State) : Host.Outcome State Fault Refusal :=
  s.bayOp b (Instr.iadd b p f).wf (fun _ m => opIadd m m.bay.seq.count (m.bay.isOn p) f)

/-- ISUB (R66): Lane-wise INT32 subtraction. -/
def execIsub (b : BayId) (p : Pred) (f : LatheF) (s : State) : Host.Outcome State Fault Refusal :=
  s.bayOp b (Instr.isub b p f).wf (fun _ m => opIsub m m.bay.seq.count (m.bay.isOn p) f)

/-- IMUL (R66): Lane-wise INT32 multiplication keeping the low 32 bits. -/
def execImul (b : BayId) (p : Pred) (f : LatheF) (s : State) : Host.Outcome State Fault Refusal :=
  s.bayOp b (Instr.imul b p f).wf (fun _ m => opImul m m.bay.seq.count (m.bay.isOn p) f)

/-- IAND (R66): Lane-wise bitwise AND. -/
def execIand (b : BayId) (p : Pred) (f : LatheF) (s : State) : Host.Outcome State Fault Refusal :=
  s.bayOp b (Instr.iand b p f).wf (fun _ m => opIand m m.bay.seq.count (m.bay.isOn p) f)

/-- IOR (R66): Lane-wise bitwise OR. -/
def execIor (b : BayId) (p : Pred) (f : LatheF) (s : State) : Host.Outcome State Fault Refusal :=
  s.bayOp b (Instr.ior b p f).wf (fun _ m => opIor m m.bay.seq.count (m.bay.isOn p) f)

/-- IXOR (R66): Lane-wise bitwise XOR. -/
def execIxor (b : BayId) (p : Pred) (f : LatheF) (s : State) : Host.Outcome State Fault Refusal :=
  s.bayOp b (Instr.ixor b p f).wf (fun _ m => opIxor m m.bay.seq.count (m.bay.isOn p) f)

/-- ISHL (R66): Lane-wise left shift by a count modulo 32. -/
def execIshl (b : BayId) (p : Pred) (f : LatheF) (s : State) : Host.Outcome State Fault Refusal :=
  s.bayOp b (Instr.ishl b p f).wf (fun _ m => opIshl m m.bay.seq.count (m.bay.isOn p) f)

/-- ISHR (R66): Lane-wise logical right shift. -/
def execIshr (b : BayId) (p : Pred) (f : LatheF) (s : State) : Host.Outcome State Fault Refusal :=
  s.bayOp b (Instr.ishr b p f).wf (fun _ m => opIshr m m.bay.seq.count (m.bay.isOn p) f)

/-- ISRA (R66): Lane-wise arithmetic right shift. -/
def execIsra (b : BayId) (p : Pred) (f : LatheF) (s : State) : Host.Outcome State Fault Refusal :=
  s.bayOp b (Instr.isra b p f).wf (fun _ m => opIsra m m.bay.seq.count (m.bay.isOn p) f)

/-- IMIN (R66): Lane-wise signed minimum. -/
def execImin (b : BayId) (p : Pred) (f : LatheF) (s : State) : Host.Outcome State Fault Refusal :=
  s.bayOp b (Instr.imin b p f).wf (fun _ m => opImin m m.bay.seq.count (m.bay.isOn p) f)

/-- IMAX (R66): Lane-wise signed maximum. -/
def execImax (b : BayId) (p : Pred) (f : LatheF) (s : State) : Host.Outcome State Fault Refusal :=
  s.bayOp b (Instr.imax b p f).wf (fun _ m => opImax m m.bay.seq.count (m.bay.isOn p) f)

/-- ICMP_EQ (R66): Writes a mask bit per lane for integer equality. -/
def execIcmpEq (b : BayId) (p : Pred) (f : LatheF) (s : State) : Host.Outcome State Fault Refusal :=
  s.bayOp b (Instr.icmpEq b p f).wf (fun _ m => opIcmpEq m m.bay.seq.count (m.bay.isOn p) f)

/-- ICMP_LT (R66): Writes a mask bit per lane for signed less-than. -/
def execIcmpLt (b : BayId) (p : Pred) (f : LatheF) (s : State) : Host.Outcome State Fault Refusal :=
  s.bayOp b (Instr.icmpLt b p f).wf (fun _ m => opIcmpLt m m.bay.seq.count (m.bay.isOn p) f)

/-- ICMP_LTU (R66): Writes a mask bit per lane for unsigned less-than. -/
def execIcmpLtu (b : BayId) (p : Pred) (f : LatheF) (s : State) : Host.Outcome State Fault Refusal :=
  s.bayOp b (Instr.icmpLtu b p f).wf (fun _ m => opIcmpLtu m m.bay.seq.count (m.bay.isOn p) f)

/-- MOV (R66): Copies a register under a mask. -/
def execMov (b : BayId) (p : Pred) (f : LatheF) (s : State) : Host.Outcome State Fault Refusal :=
  s.bayOp b (Instr.mov b p f).wf (fun _ m => opMov m m.bay.seq.count (m.bay.isOn p) f)

/-- SEL (R66): Selects between two registers by a mask. -/
def execSel (b : BayId) (p : Pred) (f : LatheF) (s : State) : Host.Outcome State Fault Refusal :=
  s.bayOp b (Instr.sel b p f).wf (fun _ m => opSel m m.bay.seq.count (m.bay.isOn p) f)

/-- BCAST (R66): Copies one lane to every lane. -/
def execBcast (b : BayId) (p : Pred) (f : LatheF) (s : State) : Host.Outcome State Fault Refusal :=
  s.bayOp b (Instr.bcast b p f).wf (fun _ m => opBcast m m.bay.seq.count (m.bay.isOn p) f)

/-- MOVC (R66): Reads LANE, PX, PY, CNTL or CNTH into a register. -/
def execMovc (b : BayId) (p : Pred) (f : LatheF) (s : State) : Host.Outcome State Fault Refusal :=
  s.bayOp b (Instr.movc b p f).wf (fun cx m => opMovc cx.px cx.py m m.bay.seq.count (m.bay.isOn p) f)

/-- FABS (R66): Clears bit 31 of each lane without flags. -/
def execFabs (b : BayId) (p : Pred) (f : LatheF) (s : State) : Host.Outcome State Fault Refusal :=
  s.bayOp b (Instr.fabs b p f).wf (fun _ m => opFabs m m.bay.seq.count (m.bay.isOn p) f)

/-- FNEG (R66): Flips bit 31 of each lane without flags. -/
def execFneg (b : BayId) (p : Pred) (f : LatheF) (s : State) : Host.Outcome State Fault Refusal :=
  s.bayOp b (Instr.fneg b p f).wf (fun _ m => opFneg m m.bay.seq.count (m.bay.isOn p) f)

/-- FADD (R68): IEEE 754 binary32 addition, round to nearest even. -/
def execFadd (b : BayId) (p : Pred) (f : LatheF) (s : State) : Host.Outcome State Fault Refusal :=
  s.bayOp b (Instr.fadd b p f).wf (fun _ m => opFadd m m.bay.seq.count (m.bay.isOn p) f)

/-- FSUB (R68): IEEE 754 binary32 subtraction. -/
def execFsub (b : BayId) (p : Pred) (f : LatheF) (s : State) : Host.Outcome State Fault Refusal :=
  s.bayOp b (Instr.fsub b p f).wf (fun _ m => opFsub m m.bay.seq.count (m.bay.isOn p) f)

/-- FMUL (R68): IEEE 754 binary32 multiplication. -/
def execFmul (b : BayId) (p : Pred) (f : LatheF) (s : State) : Host.Outcome State Fault Refusal :=
  s.bayOp b (Instr.fmul b p f).wf (fun _ m => opFmul m m.bay.seq.count (m.bay.isOn p) f)

/-- FFMA (R68): IEEE 754 binary32 fused multiply-add with one rounding. -/
def execFfma (b : BayId) (p : Pred) (f : LatheF) (s : State) : Host.Outcome State Fault Refusal :=
  s.bayOp b (Instr.ffma b p f).wf (fun _ m => opFfma m m.bay.seq.count (m.bay.isOn p) f)

/-- FMIN (R70): IEEE 754-2019 minimum. -/
def execFmin (b : BayId) (p : Pred) (f : LatheF) (s : State) : Host.Outcome State Fault Refusal :=
  s.bayOp b (Instr.fmin b p f).wf (fun _ m => opFmin m m.bay.seq.count (m.bay.isOn p) f)

/-- FMAX (R70): IEEE 754-2019 maximum. -/
def execFmax (b : BayId) (p : Pred) (f : LatheF) (s : State) : Host.Outcome State Fault Refusal :=
  s.bayOp b (Instr.fmax b p f).wf (fun _ m => opFmax m m.bay.seq.count (m.bay.isOn p) f)

/-- FCMP_EQ (R70): Quiet FP32 equality comparison into a mask. -/
def execFcmpEq (b : BayId) (p : Pred) (f : LatheF) (s : State) : Host.Outcome State Fault Refusal :=
  s.bayOp b (Instr.fcmpEq b p f).wf (fun _ m => opFcmpEq m m.bay.seq.count (m.bay.isOn p) f)

/-- FCMP_LT (R70): Quiet FP32 less-than comparison into a mask. -/
def execFcmpLt (b : BayId) (p : Pred) (f : LatheF) (s : State) : Host.Outcome State Fault Refusal :=
  s.bayOp b (Instr.fcmpLt b p f).wf (fun _ m => opFcmpLt m m.bay.seq.count (m.bay.isOn p) f)

/-- FCMP_LE (R70): Quiet FP32 less-or-equal comparison into a mask. -/
def execFcmpLe (b : BayId) (p : Pred) (f : LatheF) (s : State) : Host.Outcome State Fault Refusal :=
  s.bayOp b (Instr.fcmpLe b p f).wf (fun _ m => opFcmpLe m m.bay.seq.count (m.bay.isOn p) f)

/-- CVT_I2F (R78): Rounds INT32 to FP32. -/
def execCvtI2f (b : BayId) (p : Pred) (f : LatheF) (s : State) : Host.Outcome State Fault Refusal :=
  s.bayOp b (Instr.cvtI2f b p f).wf (fun _ m => opCvtI2f m m.bay.seq.count (m.bay.isOn p) f)

/-- CVT_F2I (R78): Rounds FP32 to INT32 under a rounding mode. -/
def execCvtF2i (b : BayId) (p : Pred) (f : LatheF) (s : State) : Host.Outcome State Fault Refusal :=
  s.bayOp b (Instr.cvtF2i b p f).wf (fun cx m => opCvtF2i cx.px cx.py m m.bay.seq.count (m.bay.isOn p) f)

/-- CVT_UNPACK (R78): Decodes 128 packed elements of any format to FP32. -/
def execCvtUnpack (b : BayId) (p : Pred) (f : LatheF) (s : State) : Host.Outcome State Fault Refusal :=
  s.bayOp b (Instr.cvtUnpack b p f).wf (fun _ m => opCvtUnpack m m.bay.seq.count (m.bay.isOn p) f)

/-- CVT_PACK (R78): Rounds FP32 lanes into a packed format as tun drains. -/
def execCvtPack (b : BayId) (p : Pred) (f : LatheF) (s : State) : Host.Outcome State Fault Refusal :=
  s.bayOp b (Instr.cvtPack b p f).wf (fun cx m => opCvtPack cx.px cx.py m m.bay.seq.count (m.bay.isOn p) f)

/-- FRCP (R71): Correctly rounded reciprocal. -/
def execFrcp (b : BayId) (p : Pred) (f : LatheF) (s : State) : Host.Outcome State Fault Refusal :=
  s.bayOp b (Instr.frcp b p f).wf (fun _ m => opFrcp m m.bay.seq.count (m.bay.isOn p) f)

/-- FSQRT (R71): Correctly rounded square root. -/
def execFsqrt (b : BayId) (p : Pred) (f : LatheF) (s : State) : Host.Outcome State Fault Refusal :=
  s.bayOp b (Instr.fsqrt b p f).wf (fun _ m => opFsqrt m m.bay.seq.count (m.bay.isOn p) f)

/-- FRSQRT (R71): Correctly rounded reciprocal square root. -/
def execFrsqrt (b : BayId) (p : Pred) (f : LatheF) (s : State) : Host.Outcome State Fault Refusal :=
  s.bayOp b (Instr.frsqrt b p f).wf (fun _ m => opFrsqrt m m.bay.seq.count (m.bay.isOn p) f)

/-- FEXP (R71): Correctly rounded e^x. -/
def execFexp (b : BayId) (p : Pred) (f : LatheF) (s : State) : Host.Outcome State Fault Refusal :=
  s.bayOp b (Instr.fexp b p f).wf (fun _ m => opFexp m m.bay.seq.count (m.bay.isOn p) f)

/-- FEXP2 (R71): Correctly rounded 2^x. -/
def execFexp2 (b : BayId) (p : Pred) (f : LatheF) (s : State) : Host.Outcome State Fault Refusal :=
  s.bayOp b (Instr.fexp2 b p f).wf (fun _ m => opFexp2 m m.bay.seq.count (m.bay.isOn p) f)

/-- FLOG (R71): Correctly rounded natural logarithm. -/
def execFlog (b : BayId) (p : Pred) (f : LatheF) (s : State) : Host.Outcome State Fault Refusal :=
  s.bayOp b (Instr.flog b p f).wf (fun _ m => opFlog m m.bay.seq.count (m.bay.isOn p) f)

/-- FLOG2 (R71): Correctly rounded base-2 logarithm. -/
def execFlog2 (b : BayId) (p : Pred) (f : LatheF) (s : State) : Host.Outcome State Fault Refusal :=
  s.bayOp b (Instr.flog2 b p f).wf (fun _ m => opFlog2 m m.bay.seq.count (m.bay.isOn p) f)

/-- FTANH (R71): Correctly rounded hyperbolic tangent. -/
def execFtanh (b : BayId) (p : Pred) (f : LatheF) (s : State) : Host.Outcome State Fault Refusal :=
  s.bayOp b (Instr.ftanh b p f).wf (fun _ m => opFtanh m m.bay.seq.count (m.bay.isOn p) f)

/-- FSIGM (R73): Sigmoid as a fixed sequence of defined operations. -/
def execFsigm (b : BayId) (p : Pred) (f : LatheF) (s : State) : Host.Outcome State Fault Refusal :=
  s.bayOp b (Instr.fsigm b p f).wf (fun _ m => opFsigm m m.bay.seq.count (m.bay.isOn p) f)

/-- FSILU (R73): SiLU as x times FSIGM(x). -/
def execFsilu (b : BayId) (p : Pred) (f : LatheF) (s : State) : Host.Outcome State Fault Refusal :=
  s.bayOp b (Instr.fsilu b p f).wf (fun _ m => opFsilu m m.bay.seq.count (m.bay.isOn p) f)

/-- FGELUS (R73): Sigmoid-approximated GELU. -/
def execFgelus (b : BayId) (p : Pred) (f : LatheF) (s : State) : Host.Outcome State Fault Refusal :=
  s.bayOp b (Instr.fgelus b p f).wf (fun _ m => opFgelus m m.bay.seq.count (m.bay.isOn p) f)

/-- FGELUT (R73): Tanh-approximated GELU. -/
def execFgelut (b : BayId) (p : Pred) (f : LatheF) (s : State) : Host.Outcome State Fault Refusal :=
  s.bayOp b (Instr.fgelut b p f).wf (fun _ m => opFgelut m m.bay.seq.count (m.bay.isOn p) f)

/-- RSUM (R75): Sums the lanes of a register in a fixed pairwise tree. -/
def execRsum (b : BayId) (p : Pred) (f : LatheF) (s : State) : Host.Outcome State Fault Refusal :=
  s.bayOp b (Instr.rsum b p f).wf (fun _ m => opRsum m m.bay.seq.count (m.bay.isOn p) f)

/-- RMAX (R75): Takes the maximum of the lanes in a fixed pairwise tree. -/
def execRmax (b : BayId) (p : Pred) (f : LatheF) (s : State) : Host.Outcome State Fault Refusal :=
  s.bayOp b (Instr.rmax b p f).wf (fun _ m => opRmax m m.bay.seq.count (m.bay.isOn p) f)

/-- TCLR (R76): Starts a new accumulation in every lane tun of LTd at a given anchor. -/
def execTclr (b : BayId) (p : Pred) (f : LatheF) (s : State) : Host.Outcome State Fault Refusal :=
  s.bayOp b (Instr.tclr b p f).wf (fun _ m => opTclr m m.bay.seq.count (m.bay.isOn p) f)

/-- TACC (R76): Adds each lane's FP32 value as an addend into its lane tun. -/
def execTacc (b : BayId) (p : Pred) (f : LatheF) (s : State) : Host.Outcome State Fault Refusal :=
  s.bayOp b (Instr.tacc b p f).wf (fun _ m => opTacc m m.bay.seq.count (m.bay.isOn p) f)

/-- TMAC (R76): Adds each lane's exact product into its lane tun. -/
def execTmac (b : BayId) (p : Pred) (f : LatheF) (s : State) : Host.Outcome State Fault Refusal :=
  s.bayOp b (Instr.tmac b p f).wf (fun _ m => opTmac m m.bay.seq.count (m.bay.isOn p) f)

/-- XSUM (R76): Adds the selected lanes into lane tun 0 of LTd. -/
def execXsum (b : BayId) (p : Pred) (f : LatheF) (s : State) : Host.Outcome State Fault Refusal :=
  s.bayOp b (Instr.xsum b p f).wf (fun _ m => opXsum m m.bay.seq.count (m.bay.isOn p) f)

/-- TSUM (R76): Combines all 128 lane tuns of LTa into lane 0 of LTd. -/
def execTsum (b : BayId) (p : Pred) (f : LatheF) (s : State) : Host.Outcome State Fault Refusal :=
  s.bayOp b (Instr.tsum b p f).wf (fun _ m => opTsum m m.bay.seq.count (m.bay.isOn p) f)

/-- TLOADC (R76): Combines tun records read from the vat into the lane tuns. -/
def execTloadc (b : BayId) (p : Pred) (f : LatheF) (s : State) : Host.Outcome State Fault Refusal :=
  s.bayOp b (Instr.tloadc b p f).wf (fun _ m => opTloadc m m.bay.seq.count (m.bay.isOn p) f)

/-- TSTORE (R76): Writes the lane tuns to the vat as tun records. -/
def execTstore (b : BayId) (p : Pred) (f : LatheF) (s : State) : Host.Outcome State Fault Refusal :=
  s.bayOp b (Instr.tstore b p f).wf (fun _ m => opTstore m m.bay.seq.count (m.bay.isOn p) f)

/-- TDRAIN (R76): Drains each lane tun into a register in a non-MX format. -/
def execTdrain (b : BayId) (p : Pred) (f : LatheF) (s : State) : Host.Outcome State Fault Refusal :=
  s.bayOp b (Instr.tdrain b p f).wf (fun cx m => opTdrain cx.px cx.py m m.bay.seq.count (m.bay.isOn p) f)

/-- CGEN (R82): Computes the counter generator in every unmasked lane. -/
def execCgen (b : BayId) (p : Pred) (f : LatheF) (s : State) : Host.Outcome State Fault Refusal :=
  s.bayOp b (Instr.cgen b p f).wf (fun _ m => opCgen m m.bay.seq.count (m.bay.isOn p) f)

/-- LFRD (R145): Reads LFLAGS and DFLAGS into every lane. -/
def execLfrd (b : BayId) (p : Pred) (f : LatheF) (s : State) : Host.Outcome State Fault Refusal :=
  s.bayOp b (Instr.lfrd b p f).wf (fun _ m => opLfrd m m.bay.seq.count (m.bay.isOn p) f)

/-- LFCLR (R145): Clears LFLAGS and the lathe's DFLAGS at u + 2. -/
def execLfclr (b : BayId) (p : Pred) (f : LatheF) (s : State) : Host.Outcome State Fault Refusal :=
  s.bayOp b (Instr.lfclr b p f).wf (fun _ m => opLfclr m m.bay.seq.count (m.bay.isOn p))

/-- VLD (R89): Loads 512 bytes from the vat into a lathe register. -/
def execVld (b : BayId) (p : Pred) (f : LatheF) (s : State) : Host.Outcome State Fault Refusal :=
  s.bayOp b (Instr.vld b p f).wf (fun _ m => opVld m m.bay.seq.count (m.bay.isOn p) f)

/-- VST (R89): Stores a lathe register's 512 bytes to the vat at u + 3. -/
def execVst (b : BayId) (p : Pred) (f : LatheF) (s : State) : Host.Outcome State Fault Refusal :=
  s.bayOp b (Instr.vst b p f).wf (fun _ m => opVst m m.bay.seq.count (m.bay.isOn p) f)

/-- Is an entry of the agenda the landing of a lathe result? -/
def isLatheDue (d : Due) : Bool := match d.ev with
  | .lathe _ => true
  | _ => false

/-- LATHE_RESULT_LAND (R65): A lathe instruction's result is written to its destination at u + L. -/
def execLatheResultLand (b : BayId) (copiesAgree : Bool) (s : State) : Host.Outcome State Fault Refusal :=
  s.bayOp b true (fun _ m =>
    let c := m.bay.seq.count
    let some := m.bay.agenda.any (fun d => decide (d.at_ ≤ c) && isLatheDue d)
    let m := runDue m c isLatheDue
    if some && !copiesAgree then m.raise 0x0208 (c + 1) 4 [] else m)

end Sys2Proof.Machine
end

