-- ==== Sys2Proof/Machine/Mesh.lean ====
section
/-! DEFINITION. Transfers over the joist mesh (08_joist_mesh_and_lath R152-R162, 07_bay_instructions R151). -/

namespace Sys2Proof.Machine
open Sys2Proof

/-- SEND (R157): Starts a joist mesh transfer of NFLITS flits from the vat along a route. -/
def execSend (b : BayId) (p : Pred) (f : RouteF) (s : State) : Host.Outcome State Fault Refusal :=
  s.bayOp b (Instr.send b p f).wf (fun _ m => issueRoute m m.bay.seq.count (m.bay.isOn p) true f)

/-- RECV (R157): Receives a matching transfer and writes its flits to the vat. -/
def execRecv (b : BayId) (p : Pred) (f : RouteF) (s : State) : Host.Outcome State Fault Refusal :=
  s.bayOp b (Instr.recv b p f).wf (fun _ m => issueRoute m m.bay.seq.count (m.bay.isOn p) false f)

/-- Flip bits of a flit's data (a fault on the way, 08 R160). -/
def flipBits (bs : Bytes) (flips : List Nat) : Bytes :=
  flips.foldl (fun l k => listSet l (k / 8) ((l.getD (k / 8) 0#8) ^^^ BitVec.ofNat 8 (2 ^ (k % 8)))) bs
def flipFlit (flips : List Nat) (d : Due) : Due :=
  match d.ev with
  | .flitIn i f v p data par => { d with ev := .flitIn i f v p (flipBits data flips) par }
  | _ => d
def isFlitDue (d : Due) : Bool := match d.ev with
  | .flitIn _ _ _ _ _ _ => true
  | _ => false

/-- FLIT_ARRIVE (R160): A flit reaches the destination router, is parity-checked and written. -/
def execFlitArrive (b : BayId) (flips : List Nat) (s : State) : Host.Outcome State Fault Refusal :=
  s.bayOp b true (fun _ m =>
    let c := m.bay.seq.count
    runDue (m.upd (fun x => { x with agenda := x.agenda.map (fun d => if decide (d.at_ ≤ c) then flipFlit flips d else d) }))
      c isFlitDue)

end Sys2Proof.Machine
end

