-- ==== Sys2Proof/Machine/Press.lean ====
section
/-! DEFINITION. The presses (03_bays_and_presses, 07_bay_instructions R135-R143). -/

namespace Sys2Proof.Machine
open Sys2Proof

/-- LDA (R137): Loads one A panel, with its scale word, into a half of a press or quarter. -/
def execLda (b : BayId) (p : Pred) (sel : PressSel) (f : LoadF) (s : State) : Host.Outcome State Fault Refusal :=
  s.bayOp b (Instr.lda b p sel f).wf (fun _ m => issueLoad m m.bay.seq.count false (m.bay.isOn p) sel f)

/-- LDB (R137): Loads one B panel, with its scale word, into a half of a press or quarter. -/
def execLdb (b : BayId) (p : Pred) (sel : PressSel) (f : LoadF) (s : State) : Host.Outcome State Fault Refusal :=
  s.bayOp b (Instr.ldb b p sel f).wf (fun _ m => issueLoad m m.bay.seq.count true (m.bay.isOn p) sel f)

/-- SETUP (R138): Arms the formats, anchor, panel count and AUTO of the next accumulation. -/
def execSetup (b : BayId) (sel : PressSel) (f : SetupF) (s : State) : Host.Outcome State Fault Refusal :=
  s.bayOp b (Instr.setup b sel f).wf (fun _ m => issueSetup m m.bay.seq.count sel f)

/-- KSTEP (R139): Issues one panel of 32 k-steps from the named halves, checking operand validity at the first k-step. -/
def execKstep (b : BayId) (sel : PressSel) (ha : Bool) (hb : Bool) (s : State) : Host.Outcome State Fault Refusal :=
  s.bayOp b (Instr.kstep b sel ha hb).wf (fun _ m => issueKstep m m.bay.seq.count sel ha hb)

/-- SHIM (R140): Runs a synthetic press activity pattern for 1 to 64 fc at its applied intensity. -/
def execShim (b : BayId) (sel : PressSel) (lm1 : BitVec 6) (nom : BitVec 4) (min : BitVec 4) (s : State) :
    Host.Outcome State Fault Refusal :=
  s.bayOp b (Instr.shim b sel lm1 nom min).wf (fun _ m => issueShim m m.bay.seq.count sel lm1.toNat nom.toNat min.toNat)

/-- DRAIN (R141): Starts a rounded drain of a press's or quarter's latches into a format and vat address. -/
def execDrain (b : BayId) (p : Pred) (sel : PressSel) (f : DrainF) (s : State) : Host.Outcome State Fault Refusal :=
  s.bayOp b (Instr.drain b p sel f).wf (fun _ m => issueDrain m m.bay.seq.count (m.bay.isOn p) sel f)

/-- DRAINR (R141): Starts a record drain of a press's or quarter's latches as tun records. -/
def execDrainr (b : BayId) (p : Pred) (sel : PressSel) (f : DrainRF) (s : State) : Host.Outcome State Fault Refusal :=
  s.bayOp b (Instr.drainr b p sel f).wf (fun _ m => issueDrainR m m.bay.seq.count (m.bay.isOn p) sel f)

/-- TASTE (R142): Starts a bit-for-bit comparison of the latches of two presses or quarters. -/
def execTaste (b : BayId) (sel : PressSel) (prb : BitVec 2) (qb : BitVec 2) (s : State) : Host.Outcome State Fault Refusal :=
  s.bayOp b (Instr.taste b sel prb qb).wf (fun _ m => issueTaste m m.bay.seq.count sel prb.toNat qb.toNat)

/-- MODE (R143): Sets a press to whole or quartered mode, disarming set-ups and invalidating halves. -/
def execMode (b : BayId) (pr : BitVec 2) (quart : Bool) (s : State) : Host.Outcome State Fault Refusal :=
  s.bayOp b (Instr.mode b pr quart).wf (fun _ m => issueMode m m.bay.seq.count pr.toNat quart)

/-- CLRF (R143): Clears the DFLAGS of the named presses and optionally the vat's VFLAGS. -/
def execClrf (b : BayId) (pm : BitVec 4) (vf : Bool) (s : State) : Host.Outcome State Fault Refusal :=
  s.bayOp b (Instr.clrf b pm vf).wf (fun _ m => m.upd (fun b => b.due (m.bay.seq.count + 1) 0 (.clrf pm vf)))

/-- CELL_ACCUMULATE (R47): A k-step reaches cell (i, j) and its product is added to the tun and residue; at the last
addition the tun moves to the drain latch. -/
def execCellAccumulate (b : BayId) (pr : BitVec 2) (i j : Nat) (s : State) : Host.Outcome State Fault Refusal :=
  s.bayOp b true (fun _ m => cellNow m m.bay.seq.ticked pr.toNat i j)

/-- DRAIN_ROW_CAPTURE (R48): The drain unit captures one latch row, checks residues, rounds it and writes it to the vat. -/
def execDrainRowCapture (b : BayId) (pr : BitVec 2) (copiesAgree : Bool) (s : State) : Host.Outcome State Fault Refusal :=
  s.bayOp b true (fun cx m => drainsFc cx.px cx.py m m.bay.seq.ticked (some pr.toNat) (!copiesAgree))

/-- TASTE_ROW_COMPARE (R62): The comparator compares one row of both latches and checks residues. -/
def execTasteRowCompare (b : BayId) (s : State) : Host.Outcome State Fault Refusal :=
  s.bayOp b true (fun _ m => tasteFc m m.bay.seq.ticked)

end Sys2Proof.Machine
end

