-- ==== Sys2Proof/Machine/Rack.lean ====
section
/-! DEFINITION. Racking between vats and casks (09_casks_and_cellar R180-R190, 07_bay_instructions R150). -/

namespace Sys2Proof.Machine
open Sys2Proof

/-- CRD (R182): Issues a cellar read of 64 bytes to 4 KiB into the vat. -/
def execCrd (b : BayId) (p : Pred) (f : RackF) (s : State) : Host.Outcome State Fault Refusal :=
  s.bayOp b (Instr.crd b p f).wf (fun cx m => issueRack cx m m.bay.seq.count (m.bay.isOn p) 1 f 0 [])

/-- CWR (R182): Issues a cellar write of vat data into a cask. -/
def execCwr (b : BayId) (p : Pred) (f : RackWriteF) (s : State) : Host.Outcome State Fault Refusal :=
  s.bayOp b (Instr.cwr b p f).wf (fun cx m => issueRack cx m m.bay.seq.count (m.bay.isOn p) 2 f.f 0 f.beats)

/-- CBW (R190): Issues a broadcast write to every named channel of a channel group. -/
def execCbw (b : BayId) (p : Pred) (ci : BitVec 4) (vin : BitVec 4) (voff : BitVec 16) (lm1 : BitVec 6) (grp : GroupWriteF)
    (s : State) :
    Host.Outcome State Fault Refusal :=
  s.bayOp b (Instr.cbw b p ci vin voff lm1 grp).wf (fun cx m =>
    issueRack cx m m.bay.seq.count (m.bay.isOn p) 3 { ci := ci, vin := vin, voff := voff, lm1 := lm1, coff := 0#10 } grp.grp.toNat grp.beats)

/-- CRD_DELIVERY (R182): A read piece is written into the vat at its delivery count. errs is what the pieces due at the count meet, in issue
order of their transactions; those it does not reach are clean. -/
def execCrdDelivery (b : BayId) (errs : List PieceErr) (s : State) : Host.Outcome State Fault Refusal :=
  s.bayOp b true (fun cx m => rackDeliveries (bayIx cx.id) m m.bay.seq.count errs)

end Sys2Proof.Machine
end

