-- ==== Sys2Proof/Machine/Sequencer.lean ====
section
/-! DEFINITION. The sequencer (06_bay_sequencer, 07_bay_instructions R133, R134): issue, loops, pegs, index and predicate registers. -/

namespace Sys2Proof.Machine
open Sys2Proof

/-- LOOP (R116): Pushes a loop of L bundles run N times onto the loop stack. -/
def execLoop (b : BayId) (lm1 : BitVec 11) (nm1 : BitVec 12) (s : State) : Host.Outcome State Fault Refusal :=
  s.bayOp b (Instr.loop b lm1 nm1).wf (fun _ m => opLoop m lm1 nm1)

/-- PEG (R122): Checks the closing interval's control-flow digest, resets CFD, updates LASTPEG, PEGNO and PHASE, and sends
the arrival token. -/
def execPeg (b : BayId) (idx : BitVec 12) (phase : BitVec 8) (phv : Bool) (ecc : Ecc) (s : State) :
    Host.Outcome State Fault Refusal :=
  s.bayOp b (Instr.peg b idx phase phv ecc).wf (fun cx m => opPeg cx.betaTarget m m.bay.seq.count idx phase phv ecc false)

/-- END (R122): Acts as a final PEG and then stops issue for the invocation. -/
def execEndPlan (b : BayId) (idx : BitVec 12) (phase : BitVec 8) (phv : Bool) (ecc : Ecc) (s : State) :
    Host.Outcome State Fault Refusal :=
  s.bayOp b (Instr.endPlan b idx phase phv ecc).wf (fun cx m => opPeg cx.betaTarget m m.bay.seq.count idx phase phv ecc true)

/-- CRUSH (R127): Sends a crush hint to the trellis announcing a heavy phase at count u + lead. -/
def execCrush (b : BayId) (phase : BitVec 8) (lead : BitVec 16) (s : State) : Host.Outcome State Fault Refusal :=
  s.bayOp b (Instr.crush b phase lead).wf (fun _ m => opCrush m m.bay.seq.count phase lead)

/-- ISET (R114): Loads an index register with a sign-extended 20-bit immediate. -/
def execIset (b : BayId) (p : Pred) (i : BitVec 4) (imm : BitVec 20) (s : State) : Host.Outcome State Fault Refusal :=
  s.bayOp b (Instr.iset b p i imm).wf (fun _ m => opIset m m.bay.seq.count (m.bay.isOn p) i imm)

/-- ISETH (R114): Replaces bits 31:20 of an index register with a 12-bit immediate. -/
def execIseth (b : BayId) (p : Pred) (i : BitVec 4) (imm : BitVec 12) (s : State) : Host.Outcome State Fault Refusal :=
  s.bayOp b (Instr.iseth b p i imm).wf (fun _ m => opIseth m m.bay.seq.count (m.bay.isOn p) i imm)

/-- ISTEP (R114): Adds a sign-extended immediate to an index register modulo 2^32. -/
def execIstep (b : BayId) (p : Pred) (i : BitVec 4) (imm : BitVec 20) (s : State) : Host.Outcome State Fault Refusal :=
  s.bayOp b (Instr.istep b p i imm).wf (fun _ m => opIstep m m.bay.seq.count (m.bay.isOn p) i imm)

/-- ILD (R114): Loads an index register from one lane of a lathe register. -/
def execIld (b : BayId) (p : Pred) (i : BitVec 4) (vs : BitVec 6) (lane : BitVec 7) (s : State) :
    Host.Outcome State Fault Refusal :=
  s.bayOp b (Instr.ild b p i vs lane).wf (fun _ m => opIld m m.bay.seq.count (m.bay.isOn p) i vs lane)

/-- QSET (R118): Writes an immediate bit to a predicate register. -/
def execQset (b : BayId) (p : Pred) (q : BitVec 3) (bit : Bool) (s : State) : Host.Outcome State Fault Refusal :=
  s.bayOp b (Instr.qset b p q bit).wf (fun _ m => opQset m m.bay.seq.count (m.bay.isOn p) q bit)

/-- QMASK (R118): Copies one lane bit of a lathe mask into a predicate register. -/
def execQmask (b : BayId) (p : Pred) (q : BitVec 3) (mk : BitVec 3) (lane : BitVec 7) (s : State) :
    Host.Outcome State Fault Refusal :=
  s.bayOp b (Instr.qmask b p q mk lane).wf (fun _ m => opQmask m m.bay.seq.count (m.bay.isOn p) q mk lane)

/-- QITER (R118): Sets a predicate when the named loop is in its first or last iteration. -/
def execQiter (b : BayId) (p : Pred) (q : BitVec 3) (level : BitVec 3) (last : Bool) (s : State) :
    Host.Outcome State Fault Refusal :=
  s.bayOp b (Instr.qiter b p q level last).wf (fun _ m => opQiter m m.bay.seq.count (m.bay.isOn p) q level last)

/-- BUNDLE_ISSUE (R109): The sequencer issues the next 256-bit bundle from the plan store, at exactly one per fc, with its
address chosen by R116. ecc is what the quarters of its fetch and the beats of a CWR or CBW in it meet, pegEcc the peg table's word. With the parcel's first bay its seams advance. -/
def execBundleIssue (b : BayId) (ecc : IssueFound) (pegEcc : Ecc) (s : State) : Host.Outcome State Fault Refusal :=
  if !b.ok then .refused .noSuchUnit
  else if s.stopsAt b then .next s
  else
    let q := (s.bay b).seq
    let t := s.runBay b (fun cx m => issueBundle cx m ecc.quarters pegEcc ecc.beats)
    .next (match s.parcelOfBay b with
      | some p =>
        if q.issuing && decide ((s.parcel p).firstBay = b) then (if q.count = 0 then t.firstCount p else t).seamsCycle p else t
      | none => t)

/-- PEG_OVERDUE (R124): A bay reaches LASTPEG + 1,048,577 without a PEG or END and raises the fault. -/
def execPegOverdue (b : BayId) (s : State) : Host.Outcome State Fault Refusal :=
  s.bayOp b true (fun _ m => pegOverdue m m.bay.seq.count)

end Sys2Proof.Machine
end

