-- ==== Sys2Proof/Machine/Sill.lean ====
section
/-! DEFINITION. Sill operations (10_work_in_the_sills, 07_bay_instructions R150). -/

namespace Sys2Proof.Machine
open Sys2Proof

/-- GATHER (R213): A sill operation reads data-chosen rows into the vat or a cask range. -/
def execGather (b : BayId) (p : Pred) (f : SopF) (s : State) : Host.Outcome State Fault Refusal :=
  s.bayOp b (Instr.gather b p f).wf (fun cx m => issueSop cx m m.bay.seq.count (m.bay.isOn p) 1 f)

/-- SCATTER (R213): A sill operation writes rows to data-chosen blocks. -/
def execScatter (b : BayId) (p : Pred) (f : SopF) (s : State) : Host.Outcome State Fault Refusal :=
  s.bayOp b (Instr.scatter b p f).wf (fun cx m => issueSop cx m m.bay.seq.count (m.bay.isOn p) 2 f)

/-- SCATTER_ADD (R213): A sill operation accumulates addend rows into data-chosen cells. -/
def execScatterAdd (b : BayId) (p : Pred) (f : SopF) (s : State) : Host.Outcome State Fault Refusal :=
  s.bayOp b (Instr.scatterAdd b p f).wf (fun cx m => issueSop cx m m.bay.seq.count (m.bay.isOn p) 3 f)

/-- DOT_SWEEP (R214): A sill operation scores queries against key rows and returns maxima. -/
def execDotSweep (b : BayId) (p : Pred) (f : SopF) (s : State) : Host.Outcome State Fault Refusal :=
  s.bayOp b (Instr.dotSweep b p f).wf (fun cx m => issueSop cx m m.bay.seq.count (m.bay.isOn p) 4 f)

/-- SOFTBLEND (R215): A sill operation computes the softmax-weighted sum of value rows. -/
def execSoftblend (b : BayId) (p : Pred) (f : SopF) (s : State) : Host.Outcome State Fault Refusal :=
  s.bayOp b (Instr.softblend b p f).wf (fun cx m => issueSop cx m m.bay.seq.count (m.bay.isOn p) 5 f)

/-- DIGEST (R213): A sill operation computes SHA-384 over a cask range. -/
def execDigest (b : BayId) (p : Pred) (f : SopF) (s : State) : Host.Outcome State Fault Refusal :=
  s.bayOp b (Instr.digest b p f).wf (fun cx m => issueSop cx m m.bay.seq.count (m.bay.isOn p) 6 f)

/-- FILL (R213): A sill operation fills a cask range with a pattern or empty tun records. -/
def execFill (b : BayId) (p : Pred) (f : SopF) (s : State) : Host.Outcome State Fault Refusal :=
  s.bayOp b (Instr.fill b p f).wf (fun cx m => issueSop cx m m.bay.seq.count (m.bay.isOn p) 7 f)

/-- COPY (R213): A sill operation copies a cask range to another. -/
def execCopy (b : BayId) (p : Pred) (f : SopF) (s : State) : Host.Outcome State Fault Refusal :=
  s.bayOp b (Instr.copy b p f).wf (fun cx m => issueSop cx m m.bay.seq.count (m.bay.isOn p) 8 f)

/-- SILL_OP_RESULT (R207): At the end count a sill operation's cask writes complete and its result words are written to
the vat. found lists what its reads meet, by the offset of the piece (R219). -/
def execSillOpResult (b : BayId) (lanesAgree : Bool) (f : SillFound) (s : State) : Host.Outcome State Fault Refusal :=
  s.bayOp b true (fun _ m => sopEnds m m.bay.seq.count lanesAgree f.late f.found)

end Sys2Proof.Machine
end

