-- ==== Sys2Proof/Machine/Vats.lean ====
section
/-! DEFINITION. The vat, its mover and its banks (05_vats, 07_bay_instructions R147-R149). -/

namespace Sys2Proof.Machine
open Sys2Proof

/-- VFILL_PATTERN (R91): The mover fills a vat range with a 32-bit pattern. -/
def execVfillPattern (b : BayId) (p : Pred) (i : BitVec 4) (nm1 : BitVec 17) (s : State) : Host.Outcome State Fault Refusal :=
  s.bayOp b (Instr.vfillPattern b p i nm1).wf (fun _ m => opVfillPattern m m.bay.seq.count (m.bay.isOn p) i nm1)

/-- VFILL_TUN (R91): The mover fills a vat range with empty tun records at an anchor. -/
def execVfillTun (b : BayId) (p : Pred) (i : BitVec 4) (nm1 : BitVec 17) (s : State) : Host.Outcome State Fault Refusal :=
  s.bayOp b (Instr.vfillTun b p i nm1).wf (fun _ m => opVfillTun m m.bay.seq.count (m.bay.isOn p) i nm1)

/-- VCOPY (R92): The mover copies a vat range chunk by chunk. -/
def execVcopy (b : BayId) (p : Pred) (i : BitVec 4) (nm1 : BitVec 17) (s : State) : Host.Outcome State Fault Refusal :=
  s.bayOp b (Instr.vcopy b p i nm1).wf (fun _ m => opVcopy m m.bay.seq.count (m.bay.isOn p) i nm1)

/-- VMODE (R95): Sets the write mode of the selected vat banks. -/
def execVmode (b : BayId) (bsel : BitVec 14) (mode : BitVec 3) (reg : Bool) (s : State) : Host.Outcome State Fault Refusal :=
  s.bayOp b (Instr.vmode b bsel mode reg).wf (fun _ m => opVmode m m.bay.seq.count bsel mode reg)

/-- VPOWER (R98): Sets the power state of the selected vat banks, opening a fence or starting a wake. -/
def execVpower (b : BayId) (bsel : BitVec 14) (state : BitVec 2) (reg : Bool) (s : State) : Host.Outcome State Fault Refusal :=
  s.bayOp b (Instr.vpower b bsel state reg).wf (fun _ m => opVpower m m.bay.seq.count bsel state reg)

/-- BANK_SLEEP (R98): At the end of the write fence the banks enter their sleep state. -/
def execBankSleep (b : BayId) (s : State) : Host.Outcome State Fault Refusal :=
  s.bayOp b true (fun _ m => runDue m m.bay.seq.count (fun d => match d.ev with
    | .bankSleep _ => true
    | _ => false))

/-- BANK_WAKE (R97): A waking bank becomes accessible W fc after its wake command. -/
def execBankWake (b : BayId) (s : State) : Host.Outcome State Fault Refusal :=
  s.bayOp b true (fun _ m => runDue m m.bay.seq.count (fun d => match d.ev with
    | .bankWake _ => true
    | _ => false))

end Sys2Proof.Machine
end

