-- ==== Sys2Proof/Machine/Dispatch.lean ====
section
/-! DEFINITION. The dispatch: one arm per command, each one call of its meaning. -/

namespace Sys2Proof.Machine
open Sys2Proof

def exec (i : Instr) (s : State) : Host.Outcome State Fault Refusal :=
  match i with
  | .bundleIssue b ecc pegEcc => Sys2Proof.Machine.execBundleIssue b ecc pegEcc s
  | .loop b lm1 nm1 => Sys2Proof.Machine.execLoop b lm1 nm1 s
  | .peg b idx phase phv ecc => Sys2Proof.Machine.execPeg b idx phase phv ecc s
  | .endPlan b idx phase phv ecc => Sys2Proof.Machine.execEndPlan b idx phase phv ecc s
  | .crush b phase lead => Sys2Proof.Machine.execCrush b phase lead s
  | .iset b p ix imm => Sys2Proof.Machine.execIset b p ix imm s
  | .iseth b p ix imm => Sys2Proof.Machine.execIseth b p ix imm s
  | .istep b p ix imm => Sys2Proof.Machine.execIstep b p ix imm s
  | .ild b p ix vs lane => Sys2Proof.Machine.execIld b p ix vs lane s
  | .qset b p q bit => Sys2Proof.Machine.execQset b p q bit s
  | .qmask b p q mk lane => Sys2Proof.Machine.execQmask b p q mk lane s
  | .qiter b p q level last => Sys2Proof.Machine.execQiter b p q level last s
  | .pegOverdue b => Sys2Proof.Machine.execPegOverdue b s
  | .lda b p sel f => Sys2Proof.Machine.execLda b p sel f s
  | .ldb b p sel f => Sys2Proof.Machine.execLdb b p sel f s
  | .setup b sel f => Sys2Proof.Machine.execSetup b sel f s
  | .kstep b sel ha hb => Sys2Proof.Machine.execKstep b sel ha hb s
  | .cellAccumulate b pr ix j => Sys2Proof.Machine.execCellAccumulate b pr ix j s
  | .shim b sel lm1 nom min => Sys2Proof.Machine.execShim b sel lm1 nom min s
  | .drain b p sel f => Sys2Proof.Machine.execDrain b p sel f s
  | .drainr b p sel f => Sys2Proof.Machine.execDrainr b p sel f s
  | .drainRowCapture b pr copiesAgree => Sys2Proof.Machine.execDrainRowCapture b pr copiesAgree s
  | .taste b sel prb qb => Sys2Proof.Machine.execTaste b sel prb qb s
  | .tasteRowCompare b => Sys2Proof.Machine.execTasteRowCompare b s
  | .mode b pr quart => Sys2Proof.Machine.execMode b pr quart s
  | .clrf b pm vf => Sys2Proof.Machine.execClrf b pm vf s
  | .iadd b p f => Sys2Proof.Machine.execIadd b p f s
  | .isub b p f => Sys2Proof.Machine.execIsub b p f s
  | .imul b p f => Sys2Proof.Machine.execImul b p f s
  | .iand b p f => Sys2Proof.Machine.execIand b p f s
  | .ior b p f => Sys2Proof.Machine.execIor b p f s
  | .ixor b p f => Sys2Proof.Machine.execIxor b p f s
  | .ishl b p f => Sys2Proof.Machine.execIshl b p f s
  | .ishr b p f => Sys2Proof.Machine.execIshr b p f s
  | .isra b p f => Sys2Proof.Machine.execIsra b p f s
  | .imin b p f => Sys2Proof.Machine.execImin b p f s
  | .imax b p f => Sys2Proof.Machine.execImax b p f s
  | .icmpEq b p f => Sys2Proof.Machine.execIcmpEq b p f s
  | .icmpLt b p f => Sys2Proof.Machine.execIcmpLt b p f s
  | .icmpLtu b p f => Sys2Proof.Machine.execIcmpLtu b p f s
  | .mov b p f => Sys2Proof.Machine.execMov b p f s
  | .sel b p f => Sys2Proof.Machine.execSel b p f s
  | .bcast b p f => Sys2Proof.Machine.execBcast b p f s
  | .movc b p f => Sys2Proof.Machine.execMovc b p f s
  | .fabs b p f => Sys2Proof.Machine.execFabs b p f s
  | .fneg b p f => Sys2Proof.Machine.execFneg b p f s
  | .fadd b p f => Sys2Proof.Machine.execFadd b p f s
  | .fsub b p f => Sys2Proof.Machine.execFsub b p f s
  | .fmul b p f => Sys2Proof.Machine.execFmul b p f s
  | .ffma b p f => Sys2Proof.Machine.execFfma b p f s
  | .fmin b p f => Sys2Proof.Machine.execFmin b p f s
  | .fmax b p f => Sys2Proof.Machine.execFmax b p f s
  | .fcmpEq b p f => Sys2Proof.Machine.execFcmpEq b p f s
  | .fcmpLt b p f => Sys2Proof.Machine.execFcmpLt b p f s
  | .fcmpLe b p f => Sys2Proof.Machine.execFcmpLe b p f s
  | .cvtI2f b p f => Sys2Proof.Machine.execCvtI2f b p f s
  | .cvtF2i b p f => Sys2Proof.Machine.execCvtF2i b p f s
  | .cvtUnpack b p f => Sys2Proof.Machine.execCvtUnpack b p f s
  | .cvtPack b p f => Sys2Proof.Machine.execCvtPack b p f s
  | .frcp b p f => Sys2Proof.Machine.execFrcp b p f s
  | .fsqrt b p f => Sys2Proof.Machine.execFsqrt b p f s
  | .frsqrt b p f => Sys2Proof.Machine.execFrsqrt b p f s
  | .fexp b p f => Sys2Proof.Machine.execFexp b p f s
  | .fexp2 b p f => Sys2Proof.Machine.execFexp2 b p f s
  | .flog b p f => Sys2Proof.Machine.execFlog b p f s
  | .flog2 b p f => Sys2Proof.Machine.execFlog2 b p f s
  | .ftanh b p f => Sys2Proof.Machine.execFtanh b p f s
  | .fsigm b p f => Sys2Proof.Machine.execFsigm b p f s
  | .fsilu b p f => Sys2Proof.Machine.execFsilu b p f s
  | .fgelus b p f => Sys2Proof.Machine.execFgelus b p f s
  | .fgelut b p f => Sys2Proof.Machine.execFgelut b p f s
  | .rsum b p f => Sys2Proof.Machine.execRsum b p f s
  | .rmax b p f => Sys2Proof.Machine.execRmax b p f s
  | .tclr b p f => Sys2Proof.Machine.execTclr b p f s
  | .tacc b p f => Sys2Proof.Machine.execTacc b p f s
  | .tmac b p f => Sys2Proof.Machine.execTmac b p f s
  | .xsum b p f => Sys2Proof.Machine.execXsum b p f s
  | .tsum b p f => Sys2Proof.Machine.execTsum b p f s
  | .tloadc b p f => Sys2Proof.Machine.execTloadc b p f s
  | .tstore b p f => Sys2Proof.Machine.execTstore b p f s
  | .tdrain b p f => Sys2Proof.Machine.execTdrain b p f s
  | .cgen b p f => Sys2Proof.Machine.execCgen b p f s
  | .lfrd b p f => Sys2Proof.Machine.execLfrd b p f s
  | .lfclr b p f => Sys2Proof.Machine.execLfclr b p f s
  | .vld b p f => Sys2Proof.Machine.execVld b p f s
  | .vst b p f => Sys2Proof.Machine.execVst b p f s
  | .latheResultLand b copiesAgree => Sys2Proof.Machine.execLatheResultLand b copiesAgree s
  | .vfillPattern b p ix nm1 => Sys2Proof.Machine.execVfillPattern b p ix nm1 s
  | .vfillTun b p ix nm1 => Sys2Proof.Machine.execVfillTun b p ix nm1 s
  | .vcopy b p ix nm1 => Sys2Proof.Machine.execVcopy b p ix nm1 s
  | .vmode b bsel mode reg => Sys2Proof.Machine.execVmode b bsel mode reg s
  | .vpower b bsel state reg => Sys2Proof.Machine.execVpower b bsel state reg s
  | .bankSleep b => Sys2Proof.Machine.execBankSleep b s
  | .bankWake b => Sys2Proof.Machine.execBankWake b s
  | .crd b p f => Sys2Proof.Machine.execCrd b p f s
  | .cwr b p f => Sys2Proof.Machine.execCwr b p f s
  | .cbw b p ci vin voff lm1 grp => Sys2Proof.Machine.execCbw b p ci vin voff lm1 grp s
  | .crdDelivery b errs => Sys2Proof.Machine.execCrdDelivery b errs s
  | .gather b p f => Sys2Proof.Machine.execGather b p f s
  | .scatter b p f => Sys2Proof.Machine.execScatter b p f s
  | .scatterAdd b p f => Sys2Proof.Machine.execScatterAdd b p f s
  | .dotSweep b p f => Sys2Proof.Machine.execDotSweep b p f s
  | .softblend b p f => Sys2Proof.Machine.execSoftblend b p f s
  | .digest b p f => Sys2Proof.Machine.execDigest b p f s
  | .fill b p f => Sys2Proof.Machine.execFill b p f s
  | .copy b p f => Sys2Proof.Machine.execCopy b p f s
  | .sillOpResult b lanesAgree f => Sys2Proof.Machine.execSillOpResult b lanesAgree f s
  | .send b p f => Sys2Proof.Machine.execSend b p f s
  | .recv b p f => Sys2Proof.Machine.execRecv b p f s
  | .flitArrive b flips => Sys2Proof.Machine.execFlitArrive b flips s
  | .lathMessageReceive node m ecc => Sys2Proof.Machine.execLathMessageReceive node m ecc s
  | .pegCheck parcel => Sys2Proof.Machine.execPegCheck parcel s
  | .plan m => Sys2Proof.Machine.execPlan m s
  | .pegtab m => Sys2Proof.Machine.execPegtab m s
  | .micro m => Sys2Proof.Machine.execMicro m s
  | .claim port => Sys2Proof.Machine.execClaim port s
  | .verifyFw port => Sys2Proof.Machine.execVerifyFw port s
  | .startCmst port => Sys2Proof.Machine.execStartCmst port s
  | .cmstReady => Sys2Proof.Machine.execCmstReady s
  | .verifyConfig port grainMap body shortedHubs => Sys2Proof.Machine.execVerifyConfig port grainMap body shortedHubs s
  | .raise port fields memtest found => Sys2Proof.Machine.execRaise port fields memtest found s
  | .unpark port fields found => Sys2Proof.Machine.execUnpark port fields found s
  | .raiseStepTimeout field => Sys2Proof.Machine.execRaiseStepTimeout field s
  | .raiseDone port => Sys2Proof.Machine.execRaiseDone port s
  | .perstN port kind => Sys2Proof.Machine.execPerstN port kind s
  | .flr port => Sys2Proof.Machine.execFlr port s
  | .give port slot hostMem => Sys2Proof.Machine.execGive port slot hostMem s
  | .bar2Write port off d => Sys2Proof.Machine.execBar2Write port off d s
  | .bar2Read port off len => Sys2Proof.Machine.execBar2Read port off len s
  | .bar2ReadTimeout port off len => Sys2Proof.Machine.execBar2ReadTimeout port off len s
  | .segIn port parcel e => Sys2Proof.Machine.execSegIn port parcel e s
  | .segOut port parcel e => Sys2Proof.Machine.execSegOut port parcel e s
  | .msg port slot e => Sys2Proof.Machine.execMsg port slot e s
  | .counterLowRead r c => Sys2Proof.Machine.execCounterLowRead r c s
  | .counterSatClear u sameCycleEvent => Sys2Proof.Machine.execCounterSatClear u sameCycleEvent s
  | .registerWrite port off value => Sys2Proof.Machine.execRegisterWrite port off value s
  | .trlFastCap port value => Sys2Proof.Machine.execTrlFastCap port value s
  | .fastCapEffect => Sys2Proof.Machine.execFastCapEffect s
  | .prtFsw port value => Sys2Proof.Machine.execPrtFsw port value s
  | .prtInjGo port value => Sys2Proof.Machine.execPrtInjGo port value s
  | .injection => Sys2Proof.Machine.execInjection s
  | .sysInfo rq => Sys2Proof.Machine.execSysInfo rq s
  | .sysPrincipalMove rq newPort nonce keyId sigR sigS => Sys2Proof.Machine.execSysPrincipalMove rq newPort nonce keyId sigR sigS s
  | .parcelCreate rq parcel owner c0 r0 w h taps found => Sys2Proof.Machine.execParcelCreate rq parcel owner c0 r0 w h taps found s
  | .parcelDelete rq parcel => Sys2Proof.Machine.execParcelDelete rq parcel s
  | .parcelAssign rq parcel owner => Sys2Proof.Machine.execParcelAssign rq parcel owner s
  | .parcelPark rq parcel => Sys2Proof.Machine.execParcelPark rq parcel s
  | .parcelResume rq parcel found => Sys2Proof.Machine.execParcelResume rq parcel found s
  | .parcelStatus rq parcel => Sys2Proof.Machine.execParcelStatus rq parcel s
  | .imageLoad rq parcel imageBytes stream crcSeen => Sys2Proof.Machine.execImageLoad rq parcel imageBytes stream crcSeen s
  | .imageUnload rq parcel => Sys2Proof.Machine.execImageUnload rq parcel s
  | .imageInfo rq parcel cut => Sys2Proof.Machine.execImageInfo rq parcel cut s
  | .caskWindowSet rq parcel page rcask offGib => Sys2Proof.Machine.execCaskWindowSet rq parcel page rcask offGib s
  | .caskWindowClear rq parcel page => Sys2Proof.Machine.execCaskWindowClear rq parcel page s
  | .caskTransfer rq parcel cut => Sys2Proof.Machine.execCaskTransfer rq parcel cut s
  | .caskRegionClose rq parcel rcask base => Sys2Proof.Machine.execCaskRegionClose rq parcel rcask base s
  | .regionDigestDone cask base => Sys2Proof.Machine.execRegionDigestDone cask base s
  | .caskStaveFail rq cask stave => Sys2Proof.Machine.execCaskStaveFail rq cask stave s
  | .caskStatus rq parcel cask => Sys2Proof.Machine.execCaskStatus rq parcel cask s
  | .staveFailing cask stave cause => Sys2Proof.Machine.execStaveFailing cask stave cause s
  | .staveSpared cask => Sys2Proof.Machine.execStaveSpared cask s
  | .restStarved cask forced delays => Sys2Proof.Machine.execRestStarved cask forced delays s
  | .vatRetentionScrub b ce ue => Sys2Proof.Machine.execVatRetentionScrub b ce ue s
  | .planScrub b ce ue => Sys2Proof.Machine.execPlanScrub b ce ue s
  | .patrolScrub cask off err => Sys2Proof.Machine.execPatrolScrub cask off err s
  | .rackOpen rq parcel f => Sys2Proof.Machine.execRackOpen rq parcel f s
  | .rackClose rq parcel stream => Sys2Proof.Machine.execRackClose rq parcel stream s
  | .rackStatus rq parcel stream => Sys2Proof.Machine.execRackStatus rq parcel stream s
  | .runStart rq parcel runKey imageDigest => Sys2Proof.Machine.execRunStart rq parcel runKey imageDigest s
  | .runAbort rq parcel serial => Sys2Proof.Machine.execRunAbort rq parcel serial s
  | .runResult rq parcel serial => Sys2Proof.Machine.execRunResult rq parcel serial s
  | .vintageDrawRequest rq parcel => Sys2Proof.Machine.execVintageDrawRequest rq parcel s
  | .vintageExport rq parcel vflag stream cut => Sys2Proof.Machine.execVintageExport rq parcel vflag stream cut s
  | .vintageRestore rq parcel stream => Sys2Proof.Machine.execVintageRestore rq parcel stream s
  | .vintageStatus rq parcel => Sys2Proof.Machine.execVintageStatus rq parcel s
  | .powerCapSet rq capW pflag => Sys2Proof.Machine.execPowerCapSet rq capW pflag s
  | .powerShareSet rq parcel weight floorW => Sys2Proof.Machine.execPowerShareSet rq parcel weight floorW s
  | .powerLeaseSet rq capW durationS expiryCapW => Sys2Proof.Machine.execPowerLeaseSet rq capW durationS expiryCapW s
  | .powerContractSet rq targetW rateUp deadlineNs => Sys2Proof.Machine.execPowerContractSet rq targetW rateUp deadlineNs s
  | .powerForecast rq => Sys2Proof.Machine.execPowerForecast rq s
  | .powerStatus rq => Sys2Proof.Machine.execPowerStatus rq s
  | .powerSidebandSet rq eid => Sys2Proof.Machine.execPowerSidebandSet rq eid s
  | .soundRun rq parcel f found => Sys2Proof.Machine.execSoundRun rq parcel f found s
  | .faultLog rq fromSeq max cut => Sys2Proof.Machine.execFaultLog rq fromSeq max cut s
  | .faultSummary rq => Sys2Proof.Machine.execFaultSummary rq s
  | .faultLogClear rq cflag => Sys2Proof.Machine.execFaultLogClear rq cflag s
  | .faultCounters rq parcel unit x y idx => Sys2Proof.Machine.execFaultCounters rq parcel unit x y idx s
  | .tapConfig rq parcel f => Sys2Proof.Machine.execTapConfig rq parcel f s
  | .tapKeySet rq parcel key keyBytes => Sys2Proof.Machine.execTapKeySet rq parcel key keyBytes s
  | .tapStatus rq parcel tap => Sys2Proof.Machine.execTapStatus rq parcel tap s
  | .tapLinkChange tap sub up => Sys2Proof.Machine.execTapLinkChange tap sub up s
  | .frameReceive f => Sys2Proof.Machine.execFrameReceive f s
  | .arpRequest tap sub srcMac srcIp target => Sys2Proof.Machine.execArpRequest tap sub srcMac srcIp target s
  | .neighbourSolicitation tap sub srcMac srcIp target => Sys2Proof.Machine.execNeighbourSolicitation tap sub srcMac srcIp target s
  | .echoRequest tap sub v6 srcIp dstIp body => Sys2Proof.Machine.execEchoRequest tap sub v6 srcIp dstIp body s
  | .readReq a h object total count => Sys2Proof.Machine.execReadReq a h object total count s
  | .data a h body => Sys2Proof.Machine.execData a h body s
  | .sack a h bitmap => Sys2Proof.Machine.execSack a h bitmap s
  | .credit a h => Sys2Proof.Machine.execCredit a h s
  | .fail a h => Sys2Proof.Machine.execFail a h s
  | .offer parcel stream => Sys2Proof.Machine.execOffer parcel stream s
  | .segmentLanded parcel stream seg => Sys2Proof.Machine.execSegmentLanded parcel stream seg s
  | .rackCreditTimer parcel stream sackTimer => Sys2Proof.Machine.execRackCreditTimer parcel stream sackTimer s
  | .rackRerequest parcel stream seq => Sys2Proof.Machine.execRackRerequest parcel stream seq s
  | .rackBusyRetry parcel stream => Sys2Proof.Machine.execRackBusyRetry parcel stream s
  | .offerResend parcel stream => Sys2Proof.Machine.execOfferResend parcel stream s
  | .pourStart rq parcel udpPort maxSeq taps => Sys2Proof.Machine.execPourStart rq parcel udpPort maxSeq taps s
  | .pourStop rq parcel sflag => Sys2Proof.Machine.execPourStop rq parcel sflag s
  | .pourSubmit rq parcel frames => Sys2Proof.Machine.execPourSubmit rq parcel frames s
  | .pourCancel rq parcel ids => Sys2Proof.Machine.execPourCancel rq parcel ids s
  | .pourStatus rq parcel => Sys2Proof.Machine.execPourStatus rq parcel s
  | .pourLabel rq parcel seqId => Sys2Proof.Machine.execPourLabel rq parcel seqId s
  | .request parcel src frame => Sys2Proof.Machine.execRequest parcel src frame s
  | .append parcel src frame => Sys2Proof.Machine.execAppend parcel src frame s
  | .cancelFrame parcel src frame => Sys2Proof.Machine.execCancelFrame parcel src frame s
  | .fetch parcel src frame => Sys2Proof.Machine.execFetch parcel src frame s
  | .pourIncompleteTimeout parcel seqId => Sys2Proof.Machine.execPourIncompleteTimeout parcel seqId s
  | .pourStepStart parcel => Sys2Proof.Machine.execPourStepStart parcel s
  | .pourStepEnd parcel => Sys2Proof.Machine.execPourStepEnd parcel s
  | .sealAttest rq nonce => Sys2Proof.Machine.execSealAttest rq nonce s
  | .sealCertGet rq cut => Sys2Proof.Machine.execSealCertGet rq cut s
  | .sealLicenceInstall rq licence => Sys2Proof.Machine.execSealLicenceInstall rq licence s
  | .sealKeysAdd rq keyId use pubkey => Sys2Proof.Machine.execSealKeysAdd rq keyId use pubkey s
  | .sealKeysRemove rq keyId => Sys2Proof.Machine.execSealKeysRemove rq keyId s
  | .sealKeysList rq => Sys2Proof.Machine.execSealKeysList rq s
  | .sealDebugUnlock rq token => Sys2Proof.Machine.execSealDebugUnlock rq token s
  | .perturbEnable rq parcel => Sys2Proof.Machine.execPerturbEnable rq parcel s
  | .perturbDisable rq parcel => Sys2Proof.Machine.execPerturbDisable rq parcel s
  | .setEndpointId bus eid => Sys2Proof.Machine.execSetEndpointId bus eid s
  | .linkUp port speed width refclk => Sys2Proof.Machine.execLinkUp port speed width refclk s
  | .d3hot port enter => Sys2Proof.Machine.execD3hot port enter s
  | .stagingWindowWrite port off data => Sys2Proof.Machine.execStagingWindowWrite port off data s
  | .slotWrite port slot off data => Sys2Proof.Machine.execSlotWrite port slot off data s
  | .pluggablePresence tap present copper identified => Sys2Proof.Machine.execPluggablePresence tap present copper identified s
  | .regExchangeRetry node => Sys2Proof.Machine.execRegExchangeRetry node s
  | .summaryWrite => Sys2Proof.Machine.execSummaryWrite s
  | .hvEnHoldEnd => Sys2Proof.Machine.execHvEnHoldEnd s
  | .stretchInjection => Sys2Proof.Machine.execStretchInjection s
  | .jtagInstruction op => Sys2Proof.Machine.execJtagInstruction op s
  | .setdasa dynamicAddr enter => Sys2Proof.Machine.execSetdasa dynamicAddr enter s
  | .stopDecision parcel => Sys2Proof.Machine.execStopDecision parcel s
  | .parcelStop parcel => Sys2Proof.Machine.execParcelStop parcel s
  | .restart parcel lead => Sys2Proof.Machine.execRestart parcel lead s
  | .stopResume parcel => Sys2Proof.Machine.execStopResume parcel s
  | .vintageValid parcel => Sys2Proof.Machine.execVintageValid parcel s
  | .park t => Sys2Proof.Machine.execPark t s
  | .invocationStart parcel => Sys2Proof.Machine.execInvocationStart parcel s
  | .invocationComplete parcel => Sys2Proof.Machine.execInvocationComplete parcel s
  | .labelSigned => Sys2Proof.Machine.execLabelSigned s
  | .rollback parcel found => Sys2Proof.Machine.execRollback parcel found s
  | .cmstLockstep pair => Sys2Proof.Machine.execCmstLockstep pair s
  | .sealLockstep => Sys2Proof.Machine.execSealLockstep s
  | .entropyHealthFail => Sys2Proof.Machine.execEntropyHealthFail s
  | .switch field c => Sys2Proof.Machine.execSwitch field c s
  | .cancel field c => Sys2Proof.Machine.execCancel field c s
  | .align seam epoch => Sys2Proof.Machine.execAlign seam epoch s
  | .epochLoad field epoch => Sys2Proof.Machine.execEpochLoad field epoch s
  | .alignCheck seam sigmas => Sys2Proof.Machine.execAlignCheck seam sigmas s
  | .switchUnlocked field => Sys2Proof.Machine.execSwitchUnlocked field s
  | .switchAtCount field => Sys2Proof.Machine.execSwitchAtCount field s
  | .switched field => Sys2Proof.Machine.execSwitched field s
  | .stretchLocal field => Sys2Proof.Machine.execStretchLocal field s
  | .stretchWave field => Sys2Proof.Machine.execStretchWave field s
  | .crossingOverrun link sigma => Sys2Proof.Machine.execCrossingOverrun link sigma s
  | .refLoss r => Sys2Proof.Machine.execRefLoss r s
  | .refRestored r => Sys2Proof.Machine.execRefRestored r s
  | .ptmExchange offsetNs => Sys2Proof.Machine.execPtmExchange offsetNs s
  | .hvEnAssert => Sys2Proof.Machine.execHvEnAssert s
  | .hvEnDeassert => Sys2Proof.Machine.execHvEnDeassert s
  | .plateResetExit => Sys2Proof.Machine.execPlateResetExit s
  | .modResetN widthNs => Sys2Proof.Machine.execModResetN widthNs s
  | .thermtripN src => Sys2Proof.Machine.execThermtripN src s
  | .inputLoss pulled => Sys2Proof.Machine.execInputLoss pulled s
  | .inputReturned => Sys2Proof.Machine.execInputReturned s
  | .inputRestored => Sys2Proof.Machine.execInputRestored s
  | .rideThroughEnd => Sys2Proof.Machine.execRideThroughEnd s
  | .converterDegraded k => Sys2Proof.Machine.execConverterDegraded k s
  | .busCollapse => Sys2Proof.Machine.execBusCollapse s
  | .insulationCheck plusKohm minusKohm => Sys2Proof.Machine.execInsulationCheck plusKohm minusKohm s
  | .phaseDegraded field phase => Sys2Proof.Machine.execPhaseDegraded field phase s
  | .fallbackActive field => Sys2Proof.Machine.execFallbackActive field s
  | .verticalDegraded field => Sys2Proof.Machine.execVerticalDegraded field s
  | .trimDegraded field bent slice => Sys2Proof.Machine.execTrimDegraded field bent slice s
  | .bentRetired field bent slice => Sys2Proof.Machine.execBentRetired field bent slice s
  | .strutInject x => Sys2Proof.Machine.execStrutInject x s
  | .crackCheck field drops currents => Sys2Proof.Machine.execCrackCheck field drops currents s
  | .fieldShort field => Sys2Proof.Machine.execFieldShort field s
  | .fieldSupplyLost field => Sys2Proof.Machine.execFieldSupplyLost field s
  | .plateLathLost => Sys2Proof.Machine.execPlateLathLost s
  | .trellisControlLoop t => Sys2Proof.Machine.execTrellisControlLoop t s
  | .trellisReload => Sys2Proof.Machine.execTrellisReload s
  | .forecastPublish => Sys2Proof.Machine.execForecastPublish s
  | .phaseLearn parcel => Sys2Proof.Machine.execPhaseLearn parcel s
  | .crushHint parcel phase count => Sys2Proof.Machine.execCrushHint parcel phase count s
  | .leaseExpired => Sys2Proof.Machine.execLeaseExpired s
  | .contractMissed lessee => Sys2Proof.Machine.execContractMissed lessee s

end Sys2Proof.Machine
end

