-- ==== Sys2Proof/Machine/Time.lean ====
section
/-! DEFINITION. What a tick of CD14 does on an empty queue (12 R250, log entry 1): 10 ns pass, and what a bound in time brings with no command of its own. -/

namespace Sys2Proof.Machine
open Sys2Proof

/-- FREF edges that fall in the 10 ns from t: one every 40 ns (12 R246). -/
def frefEdge (t : Nat) : Bool := decide ((t + 10) % 40 < 10)

/-- The master epoch and the epochs of the powered islands count an FREF edge; an island that holds EPOCH_LOAD for the edge takes
the master's value with the SYNC strobe (12 R246, R247). -/
def Island.edge (i : Island) (master : Nat) : Island :=
  match i.epochLoad with
  | some v => if master = v then { i with epoch := v, epochLoad := none } else { i with epoch := (i.epoch + 1) % 2 ^ 48 }
  | none => { i with epoch := (i.epoch + 1) % 2 ^ 48 }

/-- An FREF edge: the epochs count it, and the SEAM groups whose ALIGN names it leave reset (12 R246, R256). -/
def State.fref (s : State) : State :=
  let m := (s.plate.master + 1) % 2 ^ 48
  let s := { s with plate := { s.plate with master := m } }
  let s := (List.range 13).foldl (fun s n =>
    if (s.seam n).alignAt = some m && !(s.seam n).released && s.seamOpen n then s.seamRelease n else s) s
  (List.range 10).foldl (fun s f =>
    if (s.field f).supply.vfab then s.modField f (fun x => { x with island := x.island.edge m }) else s) s

/-- The firmware did not report ready within 100 ms (16 R332, R348): START_CMST fails. -/
def State.cmstDue (s : State) : State :=
  match s.raising.cmd with
  | some c => if c.op = 2 ∧ c.atNs + 100000000 ≤ s.tNs then s.raiseIdle.raiseErr 0x0F08 0 15 2 else s
  | none => s
/-- tap.config is answered at 100 ms though its links are not up (18 R396). -/
def State.tapDue (s : State) : State :=
  s.answerWaits (fun w => (match w.what with
    | .tapLink _ => true
    | _ => false) && decide (w.arrivedNs + 100000000 ≤ s.plate.wall.toNat)) Ans.ok

/-- The wall timebase over one tick: 10 ns, at a rate slewed by slewPpm (12 R250); slewFrac holds millionths of a nanosecond not yet counted. -/
def Plate.wallTick (x : Plate) : Plate :=
  let n := ((10 * (1000000 + x.slewPpm) + x.slewFrac : Int)).toNat
  { x with wall := x.wall + BitVec.ofNat 64 (n / 1000000), slewFrac := n % 1000000 }

/-- The level of a press at a stop cycle (03 R58, 11 R231, R232): tail fill takes 16 sixty-fourths every 16 cycles of the step-down, the
step-up's shims bring 16, 32 and 48 and then the level at the peg. -/
def stopLevel (level c : Nat) (z : Option Nat) : Nat :=
  match z with
  | some z => if z ≤ c then min level (16 * ((c - z) / 16 + 1)) else level - 16 * (c / 16 + 1)
  | none => level - 16 * (c / 16 + 1)
/-- The presses of a parcel that stands stopped. -/
def State.stepPresses (s : State) (p : Nat) : State :=
  match (s.parcel p).inv.bind (fun i => i.stop) with
  | some t =>
    if t.reached then
      t.levels.foldl (fun s e =>
        let b := bayOfIx (e.1 / 4)
        s.modBay b (fun x => x.atLevels (e.1 / 4) [(e.1, stopLevel e.2 (s.stopCycle (fieldOf b) t) t.z)])) s
    else s
  | none => s

/-- The rest ledger over 10 ns, 20 cellar cycles (09 R193, R194): it grows while the parcel's count runs and falls in REST frames, in stops and under
forced refresh, which ends at 0; between invocations it is 0. -/
def Cask.ledgerTick (k : Cask) (runs still rest : Bool) : Cask :=
  if !runs then { k with ledger := 0, ledgerFrac := 0, forced := false, delays := false }
  else
    let f := if still then k.ledgerFrac else k.ledgerFrac + 512 * 20
    let n := k.ledger + f / 7800 - (if rest || still || k.forced then 20 else 0)
    { k with ledger := n, ledgerFrac := f % 7800, forced := k.forced && decide (n ≠ 0), delays := k.delays && decide (n ≠ 0) }
def State.ledgers (s : State) : State :=
  (List.range 20).foldl (fun s c =>
    let k := s.cask c
    let runs := s.fieldRuns (c / 2)
    if !runs && decide (k.ledger = 0) && decide (k.ledgerFrac = 0) && !k.forced then s
    else
      let still := match (s.parcelOfCask c).bind (fun p => (s.parcel p).inv) with
        | some i => i.stoodStill
        | none => false
      s.modCask c (fun k => k.ledgerTick runs still (s.restNow c))) s

/-- One tick: the module's own time advances by 10 ns, and while the plate is up so do the wall timebase (12 R250) and the
epochs; the rest ledgers count (09 R193), the presses of stopped parcels step (03 R58), the gateway serves what waits (09 R196); the reference PLL leaves holdover once it may (12 R248). -/
def State.idle (s : State) : State :=
  let edge := frefEdge s.tNs
  let s := { s with tNs := s.tNs + 10 }
  if s.plate.plateReset then s
  else
    let s := { s with plate := s.plate.wallTick }
    let s := if edge && s.plate.sync then s.fref else s
    let s := (List.range 4).foldl (fun s p => s.stepPresses p) s
    s.ledgers.cmstDue.tapDue.relock.gwServe

end Sys2Proof.Machine
end

