-- ==== Sys2Proof/Machine/Step.lean ====
section
/-! DEFINITION. One step: the command at the front of the queue runs with the queue's rest; an empty queue is one tick of the
wall timebase (log entry 1). -/

namespace Sys2Proof.Machine
open Sys2Proof

/-- The turn of a command that waited is over. -/
def turnOver : Host.Outcome State Fault Refusal → Host.Outcome State Fault Refusal
  | .next t => .next { t with turn := 0 }
  | o => o
/-- A step of the module. On a tick one command that waits is carried out, when its turn has come. -/
def step (s : State) : Host.Outcome State Fault Refusal :=
  match s.pending with
  | [] => match s.idle.takeHeld [] s.idle.held with
    | none => .next s.idle
    | some (i, t) => turnOver (exec i t)
  | i :: rest => exec i { s with pending := rest }

/-- The state with the command that a table word spells put at the front of its queue: the table gives no row any bits, so no
word spells one (log entry 2). -/
def State.withFetchWord (s : State) (nbits w : Nat) : State :=
  match decodeTableWord nbits w with
  | some i => { s with pending := i :: s.pending }
  | none => s

end Sys2Proof.Machine
end

