-- ==== Sys2Proof/Safety.lean ====
section
/-! DEFINITION. What statements are made of: the forms of a state that every command keeps. -/

namespace Sys2Proof.Machine
open Sys2Proof

/-- The stores by number of unit are in the one canonical form: keys rise and no unit at its initial value is listed. -/
def State.Canonical (s : State) : Prop :=
  Sparse.wf Bay.init s.bays = true ∧ Sparse.wf Parcel.init s.parcels = true ∧ Sparse.wf Field.init s.fields = true ∧ Sparse.wf Seam.init s.seams = true ∧
    Sparse.wf Cask.init s.casks = true ∧ Sparse.wf Port.init s.ports = true ∧ Sparse.wf Tap.init s.taps = true

/-- The fault log (15 R324): at most 65,536 entries, in rising SEQ, all below the next one. -/
def FaultLog.Sound (l : FaultLog) : Prop :=
  l.ring.length ≤ 65536 ∧ (l.ring.map (fun e => e.seq)).Pairwise (fun a b => a < b) ∧ ∀ e, e ∈ l.ring → e.seq < l.next

/-- What every step keeps: canonical stores, every cask's memory in canonical form, a sound log, and the seal's eight measurement
registers (21 R450). -/
def State.Sound (s : State) : Prop :=
  s.Canonical ∧ (∀ c, Mem.wf (s.cask c).mem = true) ∧ s.flog.Sound ∧ s.sealU.mr.length = 8

/-- The seal's monotonic counters are nowhere lower (21 R446). -/
def Seal.NotBelow (x y : Seal) : Prop := x.fwFloor ≤ y.fwFloor ∧ x.pkgFloor ≤ y.pkgFloor ∧ x.debugCounter ≤ y.debugCounter ∧ x.storeEpoch ≤ y.storeEpoch

/-- A step's outcome is a next state that has P. -/
def Goes (o : Host.Outcome State Fault Refusal) (P : State → Prop) : Prop := ∃ t, o = .next t ∧ P t

/-- A command that completes from a state: its meaning answers a next state. -/
def Completes (i : Instr) (s : State) : Prop := ∃ t, exec i s = .next t

/-- Does the module have the units that a command names: bays (00 R11), parcels, ports and slots (17 R357), fields, casks, seams, taps and sub-links,
the nodes of the lath, counters? -/
def unitsExist (i : Instr) : Bool := match i with
  | .bundleIssue b _ _ | .loop b _ _ | .peg b _ _ _ _ | .endPlan b _ _ _ _ | .crush b _ _ | .iset b _ _ _ | .iseth b _ _ _ | .istep b _ _ _
  | .ild b _ _ _ _ | .qset b _ _ _ | .qmask b _ _ _ _ | .qiter b _ _ _ _ | .pegOverdue b | .lda b _ _ _ | .ldb b _ _ _ | .setup b _ _ | .kstep b _ _ _
  | .cellAccumulate b _ _ _ | .shim b _ _ _ _ | .drain b _ _ _ | .drainr b _ _ _ | .drainRowCapture b _ _ | .taste b _ _ _ | .tasteRowCompare b
  | .mode b _ _ | .clrf b _ _ | .iadd b _ _ | .isub b _ _ | .imul b _ _ | .iand b _ _ | .ior b _ _ | .ixor b _ _ | .ishl b _ _ | .ishr b _ _
  | .isra b _ _ | .imin b _ _ | .imax b _ _ | .icmpEq b _ _ | .icmpLt b _ _ | .icmpLtu b _ _ | .mov b _ _ | .sel b _ _ | .bcast b _ _ | .movc b _ _
  | .fabs b _ _ | .fneg b _ _ | .fadd b _ _ | .fsub b _ _ | .fmul b _ _ | .ffma b _ _ | .fmin b _ _ | .fmax b _ _ | .fcmpEq b _ _ | .fcmpLt b _ _
  | .fcmpLe b _ _ | .cvtI2f b _ _ | .cvtF2i b _ _ | .cvtUnpack b _ _ | .cvtPack b _ _ | .frcp b _ _ | .fsqrt b _ _ | .frsqrt b _ _ | .fexp b _ _
  | .fexp2 b _ _ | .flog b _ _ | .flog2 b _ _ | .ftanh b _ _ | .fsigm b _ _ | .fsilu b _ _ | .fgelus b _ _ | .fgelut b _ _ | .rsum b _ _ | .rmax b _ _
  | .tclr b _ _ | .tacc b _ _ | .tmac b _ _ | .xsum b _ _ | .tsum b _ _ | .tloadc b _ _ | .tstore b _ _ | .tdrain b _ _ | .cgen b _ _ | .lfrd b _ _
  | .lfclr b _ _ | .vld b _ _ | .vst b _ _ | .latheResultLand b _ | .vfillPattern b _ _ _ | .vfillTun b _ _ _ | .vcopy b _ _ _ | .vmode b _ _ _
  | .vpower b _ _ _ | .bankSleep b | .bankWake b | .crd b _ _ | .cwr b _ _ | .cbw b _ _ _ _ _ _ | .crdDelivery b _ | .gather b _ _ | .scatter b _ _
  | .scatterAdd b _ _ | .dotSweep b _ _ | .softblend b _ _ | .digest b _ _ | .fill b _ _ | .copy b _ _ | .sillOpResult b _ _ | .send b _ _ | .recv b _ _
  | .flitArrive b _ => b.ok
  | .lathMessageReceive node _ _ => lathNodeOk node
  | .pegCheck parcel => decide (parcel < 4)
  | .plan _ | .pegtab _ | .micro _ => true
  | .stopDecision parcel | .parcelStop parcel | .restart parcel _ | .stopResume parcel | .vintageValid parcel => decide (parcel < 4)
  | .park t => (match t with
    | .parcel p => decide (p < 4)
    | .fields _ => true)
  | .invocationStart parcel | .invocationComplete parcel => decide (parcel < 4)
  | .labelSigned => true
  | .rollback parcel _ => decide (parcel < 4)
  | .cmstLockstep pair => decide (pair < 4)
  | .sealLockstep | .entropyHealthFail => true
  | .switch field _ | .cancel field _ => decide (field < 10)
  | .align seam _ => decide (seam < 13)
  | .epochLoad field _ => decide (field < 10)
  | .alignCheck seam _ => decide (seam < 13)
  | .switchUnlocked field | .switchAtCount field | .switched field | .stretchLocal field | .stretchWave field => decide (field < 10)
  | .crossingOverrun link _ => decide (link.line < 12) && decide (link.seam < 13)
  | .refLoss r | .refRestored r => (match r with
    | .pcie p => decide (p < 4)
    | _ => true)
  | .ptmExchange _ | .hvEnAssert | .hvEnDeassert | .plateResetExit | .modResetN _ => true
  | .thermtripN src => (match src with
    | .bay b => b.ok
    | .sill c => decide (c < 20)
    | .external => true)
  | .inputLoss _ | .inputReturned | .inputRestored | .rideThroughEnd => true
  | .converterDegraded k => decide (k < 4)
  | .busCollapse | .insulationCheck _ _ => true
  | .phaseDegraded field phase => decide (field < 10) && decide (phase < 24)
  | .fallbackActive field | .verticalDegraded field => decide (field < 10)
  | .trimDegraded field bent slice | .bentRetired field bent slice => decide (field < 10) && decide (bent < 12) && decide (slice < 14)
  | .strutInject x => x.b.ok
  | .crackCheck field _ _ | .fieldShort field | .fieldSupplyLost field => decide (field < 10)
  | .plateLathLost | .trellisControlLoop _ | .trellisReload | .forecastPublish => true
  | .phaseLearn parcel | .crushHint parcel _ _ => decide (parcel < 4)
  | .leaseExpired | .contractMissed _ => true
  | .claim port | .verifyFw port | .startCmst port => decide (port < 4)
  | .cmstReady => true
  | .verifyConfig port _ _ _ | .raise port _ _ _ | .unpark port _ _ => decide (port < 4)
  | .raiseStepTimeout field => decide (field < 10)
  | .raiseDone port | .perstN port _ | .flr port => decide (port < 4)
  | .give port slot _ => decide (port < 4) && decide (slot < 64)
  | .bar2Write port _ _ | .bar2Read port _ _ | .bar2ReadTimeout port _ _ => decide (port < 4)
  | .segIn port parcel _ | .segOut port parcel _ => decide (port < 4) && decide (parcel < 4)
  | .msg port slot _ => decide (port < 4) && decide (slot < 64)
  | .counterLowRead r c => (match r, c with
    | .port p, _ => decide (p < 4)
    | .cellarmaster, .unit u => counterOk u
    | .cellarmaster, _ => true)
  | .counterSatClear u _ => counterOk u
  | .registerWrite port _ _ | .trlFastCap port _ => decide (port < 4)
  | .fastCapEffect => true
  | .prtFsw port _ | .prtInjGo port _ => decide (port < 4)
  | .injection => true
  | .sysInfo rq | .sysPrincipalMove rq _ _ _ _ _ | .parcelCreate rq _ _ _ _ _ _ _ _ | .parcelDelete rq _ | .parcelAssign rq _ _ | .parcelPark rq _
  | .parcelResume rq _ _ | .parcelStatus rq _ | .imageLoad rq _ _ _ _ | .imageUnload rq _ | .imageInfo rq _ _ | .caskWindowSet rq _ _ _ _
  | .caskWindowClear rq _ _ | .caskTransfer rq _ _ | .caskRegionClose rq _ _ _ => requesterOk rq
  | .regionDigestDone cask _ => decide (cask < 20)
  | .caskStaveFail rq _ _ | .caskStatus rq _ _ => requesterOk rq
  | .staveFailing cask stave _ => decide (cask < 20) && decide (stave < 17)
  | .staveSpared cask | .restStarved cask _ _ => decide (cask < 20)
  | .vatRetentionScrub b _ _ | .planScrub b _ _ => b.ok
  | .patrolScrub cask off _ => decide (cask < 20) && decide (off < 32 * chanSpan)
  | .rackOpen rq _ _ | .rackClose rq _ _ | .rackStatus rq _ _ | .runStart rq _ _ _ | .runAbort rq _ _ | .runResult rq _ _ | .vintageDrawRequest rq _
  | .vintageExport rq _ _ _ _ | .vintageRestore rq _ _ | .vintageStatus rq _ | .powerCapSet rq _ _ | .powerShareSet rq _ _ _ | .powerLeaseSet rq _ _ _
  | .powerContractSet rq _ _ _ | .powerForecast rq | .powerStatus rq | .powerSidebandSet rq _ | .soundRun rq _ _ _ | .faultLog rq _ _ _
  | .faultSummary rq | .faultLogClear rq _ | .faultCounters rq _ _ _ _ _ | .tapConfig rq _ _ | .tapKeySet rq _ _ _ | .tapStatus rq _ _ => requesterOk rq
  | .tapLinkChange tap sub _ => decide (tap < 8) && decide (sub < 4)
  | .frameReceive f => decide (f.tap < 8) && decide (f.sub < 4)
  | .arpRequest tap sub _ _ _ | .neighbourSolicitation tap sub _ _ _ | .echoRequest tap sub _ _ _ _ => decide (tap < 8) && decide (sub < 4)
  | .readReq a _ _ _ _ | .data a _ _ | .sack a _ _ | .credit a _ | .fail a _ => decide (a.tap < 8) && decide (a.sub < 4)
  | .offer parcel _ | .segmentLanded parcel _ _ | .rackCreditTimer parcel _ _ | .rackRerequest parcel _ _ | .rackBusyRetry parcel _
  | .offerResend parcel _ => decide (parcel < 4)
  | .pourStart rq _ _ _ _ | .pourStop rq _ _ | .pourSubmit rq _ _ | .pourCancel rq _ _ | .pourStatus rq _ | .pourLabel rq _ _ => requesterOk rq
  | .request parcel src _ | .append parcel src _ | .cancelFrame parcel src _ | .fetch parcel src _ => decide (parcel < 4) && sourceOk src
  | .pourIncompleteTimeout parcel _ | .pourStepStart parcel | .pourStepEnd parcel => decide (parcel < 4)
  | .sealAttest rq _ | .sealCertGet rq _ | .sealLicenceInstall rq _ | .sealKeysAdd rq _ _ _ | .sealKeysRemove rq _ | .sealKeysList rq
  | .sealDebugUnlock rq _ | .perturbEnable rq _ | .perturbDisable rq _ => requesterOk rq
  | .setEndpointId _ _ => true
  | .linkUp port _ _ _ | .d3hot port _ | .stagingWindowWrite port _ _ => decide (port < 4)
  | .slotWrite port slot _ _ => decide (port < 4) && decide (slot < 64)
  | .pluggablePresence tap _ _ _ => decide (tap < 8)
  | .regExchangeRetry node => lathNodeOk node
  | .summaryWrite | .hvEnHoldEnd | .stretchInjection | .jtagInstruction _ | .setdasa _ _ => true

/-- Is a request heard (17 R357, R362, 18 R401): its port is live and its slot host-owned, or the sideband is up? -/
def State.hears (s : State) : Requester → Bool
  | .slot p n _ => decide (p < 4) && decide (n < 64) && s.portLive p && !(s.port p).own.getLsbD n
  | .entry p n _ _ _ => decide (p < 4) && decide (n < 64) && s.portLive p
  | .sideband _ _ => !s.plate.plateReset
/-- Nothing stands before a request (17 R355, R356, R367): no command waits, no transfer is under way, and its port has no write posted. -/
def State.nothingWaits (s : State) (rq : Requester) : Bool :=
  s.held.isEmpty && !s.waits.any (fun w => w.what.isTransfer) && (requesterPort rq).all (fun p => (s.port p).posted.isEmpty)
/-- A heard request of a module whose raising is done and whose Cellarmaster works, with nothing before it. -/
def State.takes (s : State) (rq : Requester) : Bool := s.hears rq && s.raising.done && !s.plate.cmstFailed && s.nothingWaits rq
/-- The state in which it takes effect: the device owns its slot. -/
def State.received (s : State) : Requester → State
  | .slot p n _ => s.modPort p (fun q => { q with own := q.own ||| BitVec.ofNat 64 (2 ^ n) })
  | .entry _ _ _ _ _ => s
  | .sideband _ _ => s
/-- Does it come from a port that owns a parcel, that is the principal, that is one of the two (18 R375)? -/
def State.fromOwner (s : State) (rq : Requester) (p : Nat) : Bool :=
  s.takes rq && decide (p < 4) && (s.parcel p).live && (requesterPort rq).any (fun k => decide ((s.parcel p).owner = k))
def State.fromPrincipal (s : State) (rq : Requester) : Bool := s.takes rq && (requesterPort rq).any s.isPrincipal
def State.fromEither (s : State) (rq : Requester) (p : Nat) : Bool :=
  s.takes rq && decide (p < 4) && (s.parcel p).live && (requesterPort rq).any (fun k => decide ((s.parcel p).owner = k) || s.isPrincipal k)
def State.fromPort (s : State) (rq : Requester) : Bool := s.takes rq && (requesterPort rq).isSome
/-- t, with the answer of message code to a request that arrived in s. -/
def State.withAnswer (s t : State) (rq : Requester) (code p : Nat) (a : Ans) : Host.Outcome State Fault Refusal :=
  .next (t.answer (some rq) code p s.plate.wall.toNat a)
/-- E_OK with a payload. -/
def State.ok (s t : State) (rq : Requester) (code p : Nat) (bs : Bytes) : Host.Outcome State Fault Refusal := s.withAnswer t rq code p { status := 0, payload := bs }

end Sys2Proof.Machine
end

