-- ==== Sys2Proof/Certificates/Slice0/Obligations.lean ====
section
/-! DEFINITION. The statements about the model: what each command does, completes on and leaves alone; what reset leaves; what every step keeps. -/

namespace Sys2Proof.Machine
open Sys2Proof

/-- A lathe instruction that is on puts its result on the bay's agenda at its issue count plus its latency; one that is off
does nothing (04 R65, 06 R119). -/
def Bay.lands (x : Bay) (p : Pred) (lat : Nat) (d : LDest) : Bay :=
  if x.isOn p then x.due (x.seq.count + (lat : Int)) 2 (.lathe d) else x

/-- One value per lane for VD under the mask, with the flags of the unmasked lanes (04 R65, R79). -/
def Bay.landsLanes (x : Bay) (p : Pred) (f : LatheF) (lat : Nat) (g : Nat → FpOut) : Bay :=
  let mask := x.lathe.mask f.msk.toNat
  x.lands p lat (.vreg f.vd.toNat mask ((List.range 128).map (fun l => (g l).val)) (orFlags mask ((List.range 128).map g)) 0#4)

/-- The value of one register, lane by lane. -/
def Bay.lands1 (x : Bay) (p : Pred) (f : LatheF) (lat : Nat) (g : Word → FpOut) : Bay :=
  x.landsLanes p f lat (fun l => g (x.lathe.lane f.va.toNat l))

/-- The values of two registers, lane by lane. -/
def Bay.lands2 (x : Bay) (p : Pred) (f : LatheF) (lat : Nat) (g : Word → Word → FpOut) : Bay :=
  x.landsLanes p f lat (fun l => g (x.lathe.lane f.va.toNat l) (x.lathe.lane f.vb.toNat l))

/-- A result that raises no flag. -/
def plain (w : Word) : FpOut := { val := w, fl := 0#5 }

/-- A comparison: one bit per lane for the mask register VD[2:0] (04 R66, R70). -/
def Bay.landsMask (x : Bay) (p : Pred) (f : LatheF) (lat : Nat) (g : Word → Word → Bool × BitVec 5) : Bay :=
  let mask := x.lathe.mask f.msk.toNat
  let rs := (List.range 128).map (fun l => g (x.lathe.lane f.va.toNat l) (x.lathe.lane f.vb.toNat l))
  x.lands p lat (.mreg (f.vd.toNat % 8) mask (bitsMask (rs.map (fun r => r.1)))
    ((enumFrom 0 rs).foldl (fun acc q => if mask.getLsbD q.1 then acc ||| q.2.2 else acc) 0#5))

/-- The integer instructions of two sources with their operation on INT32 (04 R66): wrapping arithmetic, shift counts modulo 32, signed IMIN and IMAX. -/
def intOps : List ((BayId → Pred → LatheF → Instr) × (Word → Word → Word)) :=
  [(.iadd, fun a c => a + c), (.isub, fun a c => a - c), (.imul, fun a c => a * c), (.iand, fun a c => a &&& c), (.ior, fun a c => a ||| c),
   (.ixor, fun a c => a ^^^ c), (.ishl, fun a c => a <<< (c.toNat % 32)), (.ishr, fun a c => a >>> (c.toNat % 32)),
   (.isra, fun a c => a.sshiftRight (c.toNat % 32)), (.imin, fun a c => if a.toInt ≤ c.toInt then a else c),
   (.imax, fun a c => if a.toInt ≤ c.toInt then c else a)]

/-- The comparisons with their latency and their bit and flags (04 R66, R70). -/
def cmpOps : List ((BayId → Pred → LatheF → Instr) × Nat × (Word → Word → Bool × BitVec 5)) :=
  [(.icmpEq, 2, fun a c => (a == c, 0#5)), (.icmpLt, 2, fun a c => (decide (a.toInt < c.toInt), 0#5)),
   (.icmpLtu, 2, fun a c => (decide (a.toNat < c.toNat), 0#5)), (.fcmpEq, 4, fpCmp (fun a c => decide (a = c))),
   (.fcmpLt, 4, fpCmp (fun a c => decide (a < c))), (.fcmpLe, 4, fpCmp (fun a c => decide (a ≤ c)))]

/-- The binary32 instructions of two sources, latency 4 (04 R66, R68, R70). -/
def fpOps : List ((BayId → Pred → LatheF → Instr) × (Word → Word → FpOut)) :=
  [(.fadd, fpAdd), (.fsub, fpSub), (.fmul, fpMul), (.fmin, fpMin), (.fmax, fpMax)]

/-- The functions of one source with their latencies (04 R66, R71, R73), the copies and the sign instructions. -/
def unaryOps : List ((BayId → Pred → LatheF → Instr) × Nat × (Word → FpOut)) :=
  [(.mov, 2, plain), (.fabs, 2, fun a => plain (a &&& 0x7FFFFFFF#32)), (.fneg, 2, fun a => plain (a ^^^ 0x80000000#32)), (.cvtI2f, 4, cvtI2F),
   (.frcp, 12, fpRcp), (.fsqrt, 12, fpSqrt), (.frsqrt, 12, fpRsqrt), (.fexp, 14, fpExp), (.fexp2, 14, fpExp2), (.flog, 14, fpLog),
   (.flog2, 14, fpLog2), (.ftanh, 18, fpTanh), (.fsigm, 30, fpSigm), (.fsilu, 34, fpSilu), (.fgelus, 38, fpGelus), (.fgelut, 42, fpGelut)]

/-- The rounding site of the lathe at an issue count (04 R83). -/
def latheRandom (x : Bay) (px py : Nat) (rm : BitVec 2) (l : Nat) : Nat :=
  if rm = 3#2 then
    roundRandom x.lathe.runKey { px := px, py := py, unit := 4, quarter := 0, count := (BitVec.ofInt 64 x.seq.count).toNat } l
  else 0

/-- The sill operations with their numbers (10 R205). -/
def sopOps : List ((BayId → Pred → SopF → Instr) × Nat) :=
  [(.gather, 1), (.scatter, 2), (.scatterAdd, 3), (.dotSweep, 4), (.softblend, 5), (.digest, 6), (.fill, 7), (.copy, 8)]

end Sys2Proof.Machine

open Sys2Proof Sys2Proof.Machine

/-- What the block does with its queue (the model's own form): the command at the front runs with the queue's rest; on an empty queue a step is one tick of CD14 (12 R250; the model's choice, log entry 1), which moves nothing but the
module's own time while the plate is in reset; after it one command that has waited, whose turn has come, is carried out (17 R355, R356, R367, log entry 49). -/
def Obligations.StepTakesTheFrontCommand : Prop :=
  (∀ (s : State) (c : Instr) (rest : List Instr), step { s with pending := c :: rest } = exec c { s with pending := rest }) ∧
    (∀ s : State, s.pending = [] → s.idle.takeHeld [] s.idle.held = none → step s = .next s.idle) ∧
    (∀ (s : State) (i : Instr) (t : State), s.pending = [] → s.idle.takeHeld [] s.idle.held = some (i, t) → step s = turnOver (exec i t)) ∧
    (∀ s : State, s.pending = [] → s.plate.plateReset = true → s.held = [] → step s = .next { s with tNs := s.tNs + 10 })

/-- 06 R114, R118 (with R119): ISET, ISETH and ISTEP write their index register at u + 1, ILD at u + 2; QSET and QITER write their predicate at
u + 1, QMASK at u + 2; an instruction that is off writes nothing. In every case the next state differs from s in one bay's agenda only. -/
def Obligations.IndexAndPredicateWritesFallDue : Prop :=
  ∀ (s : State) (b : BayId) (p : Pred), b.ok = true →
    (∀ (k : BitVec 4) (imm : BitVec 20), exec (.iset b p k imm) s = .next (s.modBay b (fun x =>
      if x.isOn p then x.due (x.seq.count + 1) 0 (.idx k.toNat (imm.signExtend 32)) else x))) ∧
    (∀ (k : BitVec 4) (imm : BitVec 12), exec (.iseth b p k imm) s = .next (s.modBay b (fun x =>
      if x.isOn p then x.due (x.seq.count + 1) 0 (.idx k.toNat (imm ++ (x.idxReg k.toNat).setWidth 20)) else x))) ∧
    (∀ (k : BitVec 4) (imm : BitVec 20), exec (.istep b p k imm) s = .next (s.modBay b (fun x =>
      if x.isOn p then x.due (x.seq.count + 1) 0 (.idx k.toNat (x.idxReg k.toNat + imm.signExtend 32)) else x))) ∧
    (∀ (k : BitVec 4) (vs : BitVec 6) (lane : BitVec 7), exec (.ild b p k vs lane) s = .next (s.modBay b (fun x =>
      if x.isOn p then x.due (x.seq.count + 2) 0 (.idx k.toNat (x.lathe.lane vs.toNat lane.toNat)) else x))) ∧
    (∀ (q : BitVec 3) (v : Bool), exec (.qset b p q v) s = .next (s.modBay b (fun x =>
      if x.isOn p then x.due (x.seq.count + 1) 0 (.pred q.toNat v) else x))) ∧
    (∀ (q mk : BitVec 3) (lane : BitVec 7), exec (.qmask b p q mk lane) s = .next (s.modBay b (fun x =>
      if x.isOn p then x.due (x.seq.count + 2) 0 (.pred q.toNat ((x.lathe.mask mk.toNat).getLsbD lane.toNat)) else x))) ∧
    (∀ (q level : BitVec 3) (last : Bool), exec (.qiter b p q level last) s = .next (s.modBay b (fun x =>
      if x.isOn p then x.due (x.seq.count + 1) 0 (.pred q.toNat (match x.seq.stack[level.toNat]? with
        | some e => if last then decide (e.left = 1) else decide (e.left = e.total)
        | none => false)) else x)))

/-- 06 R114, R118: an index write changes that index register and no other; a predicate write changes that predicate and no other,
Q0 always reads 1 and a write to it has no effect. -/
def Obligations.RegisterWritesLand : Prop :=
  ∀ (m : BayM) (c : Int) (ph : Nat), Sparse.wf 0#32 m.bay.seq.idx = true → Sparse.wf false m.bay.seq.pred = true →
    (∀ (k j : Nat) (v : Word), (runEvent m { at_ := c, phase := ph, ev := .idx k v }).bay.idxReg j = if j = k then v else m.bay.idxReg j) ∧
    (∀ (q j : Nat) (v : Bool), (runEvent m { at_ := c, phase := ph, ev := .pred q v }).bay.predReg j =
      if j = 0 then true else if j = q then v else m.bay.predReg j)

/-- 06 R116, R122, R123, R124, R127: LOOP pushes its entry while fewer than eight stand; CRUSH sets the pending crush and sends its
hint; PEG and END with a clean table entry reset CFD, set LASTPEG, PEGNO and PHASE, give the bay's presses the parcel's shim budget (03 R57) and send the token, a digest that differs falls due as
CONTROL_FLOW, and END stops issue; the overdue check raises PEG_OVERDUE once when LASTPEG + 1,048,577 is reached. -/
def Obligations.LoopsPegsAndHints : Prop :=
  ∀ (s : State) (b : BayId), b.ok = true →
    (∀ (l : BitVec 11) (n : BitVec 12), exec (.loop b l n) s = .next (s.modBay b (fun x =>
      if x.seq.stack.length < 8 then
        { x with seq := { x.seq with stack :=
            { start := (x.seq.pc.toNat + 1) % 2 ^ 14, fin := (x.seq.pc.toNat + l.toNat + 1) % 2 ^ 14, left := n.toNat + 1, total := n.toNat + 1 }
              :: x.seq.stack } }
      else x))) ∧
    (∀ (ph : BitVec 8) (lead : BitVec 16), 0x100 ≤ lead.toNat →
      let c := (s.bay b).seq.count + 16 * (lead.toNat : Int)
      exec (.crush b ph lead) s =
        .next ((s.modBay b (fun x => { x with seq := { x.seq with crush := some (ph, c) } })).hint b ph c)) ∧
    (∀ (idx : BitVec 12) (ph : BitVec 8) (phv ends : Bool),
      let q := (s.bay b).seq
      let ok := decide (q.cfd ^^^ 0xFFFFFFFF#32 = Sparse.get 0#32 (s.bay b).pegtab idx.toNat)
      let n := (q.pegno + 1) % 2 ^ 32
      let phase := if phv then ph else q.phase
      let after := fun (x : Bay) =>
        let y : Bay :=
          { x with
            beta := (s.bctx b).betaTarget
            seq := { x.seq with cfd := 0xFFFFFFFF#32, lastPeg := q.count, pegno := n, phase := phase, overdue := false,
                                crush := q.crush.filter (fun h => decide (q.count < h.2)), issuing := x.seq.issuing && !ends } }
        if ok then y else y.due (q.count + 2) 0 (.fault 0x0204 0 [(2, idx.toNat), (4, n)])
      exec (if ends then .endPlan b idx ph phv .ok else .peg b idx ph phv .ok) s =
        .next ((s.modBay b after).token b n ok phase phv ends)) ∧
    exec (.pegOverdue b) s = .next (
      let q := (s.bay b).seq
      if q.issuing = true ∧ q.overdue = false ∧ q.lastPeg + 1048577 ≤ q.count then
        (s.modBay b (fun x => { x with seq := { x.seq with overdue := true }, vat := { x.vat with proFault := x.vat.proFault || !x.seq.body } })).bayFault b 0x0205 q.count 0
          [(8, (BitVec.ofInt 64 q.lastPeg).toNat)]
      else s.modBay b id)

/-- 06 R109 to R111 (and 11 R231): a bay of the grid that no decided stop holds completes a BUNDLE_ISSUE whatever its bundle holds, and a bay
that issues has its count advanced by exactly one; one that does not issue keeps its count. 11 R231: at a decided stop a bay's body issues nothing. -/
def Obligations.OneBundlePerFc : Prop :=
  (
    ∀ (s : State) (b : BayId) (e : IssueFound) (pe : Ecc), b.ok = true → s.stopsAt b = false → Sparse.wf Bay.init s.bays = true →
      ∃ t, exec (.bundleIssue b e pe) s = .next t ∧
        (t.bay b).seq.count = (s.bay b).seq.count + (if (s.bay b).seq.issuing then 1 else 0)) ∧
  (
    ∀ (s : State) (b : BayId) (e : IssueFound) (pe : Ecc), b.ok = true → s.stopsAt b = true → exec (.bundleIssue b e pe) s = .next s)

/-- 03 R46, R55, 07 R137, R138, R140, R143: LDA and LDB on a press in their mode start a panel load whose half begins at u + 3 and is valid when its last byte has
landed; SETUP arms at u + 1 with its own anchor or the default one; SHIM on free cells starts a shim of L fc; MODE on a press that R51 lets
change falls due at u + 1; CLRF clears at u + 1. Nothing else changes. 03 R54, R55, 07 R135, R143: a load, a set-up, a k-step or a shim whose QE is not the press's mode, a k-step or a shim that finds a cell of its own occupied, and a MODE that 03
R51 forbids, are the schedule breach MODE_CONFLICT (7) at the issue count: the bay that holds no breach yet keeps it and sends its token. What R135 lets the mismatched
instruction occupy is occupied: the load's feed port, the k-step's and the shim's cells. -/
def Obligations.PressInstructionsStartOrBreach : Prop :=
  (
    ∀ (s : State) (b : BayId) (sel : PressSel), b.ok = true →
      let u := (s.bay b).seq.count
      let pr := sel.pr.toNat
      let q := if sel.qe then sel.qt.toNat else 4
      (∀ (p : Pred) (f : LoadF) (opB : Bool), f.ok sel = true → ((s.bay b).press pr).quart = sel.qe →
        let nb := 4 * (fmtP f.fmt).width * (if sel.qe then 16 else 32)
        let ns := if (fmtP f.fmt).isMx then (if sel.qe then 16 else 32) else 0
        let half := if f.half then 1 else 0
        let ctl := (if opB then 8 else 0) + 4 * half + q % 4
        exec (if opB then .ldb b p sel f else .lda b p sel f) s = .next (s.modBay b (fun x =>
          let y : Bay :=
            { x with loads := x.loads ++
                [{ u := u, pr := pr, opB := opB, half := half, qe := sel.qe, q := q, fmt := f.fmt,
                   base := x.vatAddr f.i.toNat (64 * f.off.toNat) 64, b := nb,
                   sbase := x.vatAddr f.i.toNat (16 * f.soff.toNat) 16, s := ns, on := x.isOn p, next := 0 }] }
          let z := y.due (u + 3) 2 (.halfBegin pr ctl f.fmt (x.isOn p))
          if x.isOn p then z.due (u + 3 + ((nb + ns + 63) / 64 : Nat)) 2 (.halfValid pr ctl) else z))) ∧
      (∀ (f : SetupF), f.ok sel = true → ((s.bay b).press pr).quart = sel.qe →
        exec (.setup b sel f) s = .next (s.modBay b (fun x => x.due (u + 1) 0 (.arm pr q
          { fmtA := f.fmtA, fmtB := f.fmtB, anchor := if f.dflt then (defaultAnchor f.fmtA f.fmtB).getD 0 else f.anch.toInt
            panels := f.npM1.toNat + 1, auto := f.auto })))) ∧
      (∀ (l : BitVec 6) (nom min : BitVec 4), sel.ok = true → min.toNat ≤ nom.toNat → ((s.bay b).press pr).quart = sel.qe →
        ((s.bay b).press pr).busy q u = false →
        exec (.shim b sel l nom min) s = .next (s.modBay b (fun x => x.setPress pr ((x.press pr).setQuarter q
          { (x.press pr).quarter q with shim := some { stop := u + (l.toNat : Int) + 1, nom := nom.toNat + 1, min := min.toNat + 1 } })))) ∧
      (∀ (w : BitVec 2) (quart : Bool), modeMay (s.bay b) w.toNat u = true →
        exec (.mode b w quart) s = .next (s.modBay b (fun x => x.due (u + 1) 0 (.mode w.toNat quart)))) ∧
      (∀ (pm : BitVec 4) (vf : Bool), exec (.clrf b pm vf) s = .next (s.modBay b (fun x => x.due (u + 1) 0 (.clrf pm vf))))) ∧
  (
    ∀ (s : State) (b : BayId) (sel : PressSel), b.ok = true → (s.bay b).breach.cause = 0 →
      let u := (s.bay b).seq.count
      let pr := sel.pr.toNat
      let q := if sel.qe then sel.qt.toNat else 4
      let p := (s.bay b).press pr
      let keep := fun (k : Nat) (x : Bay) =>
        ({ x with breach := { cause := 7, count := u, unit := k }, vat := { x.vat with proFault := x.vat.proFault || !x.seq.body } } : Bay)
      (∀ (d : Pred) (f : LoadF) (opB : Bool), f.ok sel = true → p.quart ≠ sel.qe →
        exec (if opB then .ldb b d sel f else .lda b d sel f) s = .next ((s.modBay b (fun x => keep pr
          { x with loads := x.loads ++
              [{ u := u, pr := pr, opB := opB, half := if f.half then 1 else 0, qe := sel.qe, q := q, fmt := f.fmt, base := x.vatAddr f.i.toNat (64 * f.off.toNat) 64
                 b := 4 * (fmtP f.fmt).width * (if sel.qe then 16 else 32), sbase := x.vatAddr f.i.toNat (16 * f.soff.toNat) 16
                 s := if (fmtP f.fmt).isMx then (if sel.qe then 16 else 32) else 0, on := false, next := 0 }] })).bayBreach b 7 u pr)) ∧
      (∀ (f : SetupF), f.ok sel = true → p.quart ≠ sel.qe →
        exec (.setup b sel f) s = .next ((s.modBay b (keep pr)).bayBreach b 7 u pr)) ∧
      (∀ (ha hb : Bool), sel.ok = true →
        (p.busy q u = true → exec (.kstep b sel ha hb) s = .next ((s.modBay b (keep pr)).bayBreach b 7 u pr)) ∧
        (p.busy q u = false → p.quart ≠ sel.qe → exec (.kstep b sel ha hb) s = .next ((s.modBay b (fun x => keep pr (x.setPress pr (p.setQuarter q
          { p.quarter q with run := some { start := u, dur := (p.quarter q).panelFc, ha := if ha then 1 else 0, hb := if hb then 1 else 0, setup := none, first := false,
                                           last := false } })))).bayBreach b 7 u pr))) ∧
      (∀ (l : BitVec 6) (nom min : BitVec 4), sel.ok = true → min.toNat ≤ nom.toNat →
        (p.busy q u = true → exec (.shim b sel l nom min) s = .next ((s.modBay b (keep pr)).bayBreach b 7 u pr)) ∧
        (p.busy q u = false → p.quart ≠ sel.qe → exec (.shim b sel l nom min) s = .next ((s.modBay b (fun x => keep pr (x.setPress pr (p.setQuarter q
          { p.quarter q with shim := some { stop := u + (l.toNat : Int) + 1, nom := 0, min := 0 } })))).bayBreach b 7 u pr))) ∧
      (∀ (w : BitVec 2) (quart : Bool), modeMay (s.bay b) w.toNat u = false →
        exec (.mode b w quart) s = .next ((s.modBay b (keep w.toNat)).bayBreach b 7 u w.toNat)))

/-- 07 R139 with 03 R44, R53: KSTEP on free cells with a set-up armed and no accumulation in progress starts the accumulation's first panel: the panel occupies the cells for
the panel time of the two formats, the set-up stays armed only with AUTO, NP - 1 panels are left, a last panel records its end count; the halves it names are
valid and hold the set-up's formats, so that no breach and no fault falls due. -/
def Obligations.KstepStartsAnAccumulation : Prop :=
  ∀ (s : State) (b : BayId) (sel : PressSel) (ha hb : Bool) (su : Setup), b.ok = true → sel.ok = true →
    let u := (s.bay b).seq.count
    let pr := sel.pr.toNat
    let q := if sel.qe then sel.qt.toNat else 4
    let p := (s.bay b).press pr
    let c := p.quarter q
    let ia := (if ha then 1 else 0 : Nat)
    let ib := (if hb then 1 else 0 : Nat)
    let ready := fun (k : Nat) (fmt : BitVec 4) => let h := Sparse.get HalfCtl.init p.ctl k; h.valid = true ∧ h.fmt = fmt ∧ h.poison = none
    Sparse.wf Press.init (s.bay b).presses = true → p.quart = sel.qe → p.busy q u = false → c.acc = none → c.armed = some su → 2 ≤ su.panels →
    ready (4 * ia + q % 4) su.fmtA → ready (8 + 4 * ib + q % 4) su.fmtB →
    exec (.kstep b sel ha hb) s = .next (s.modBay b (fun x => x.setPress pr (p.setQuarter q
      { c with armed := if su.auto then some su else none, acc := some (su, su.panels - 1)
               run := some { start := u, dur := panelTime su.fmtA su.fmtB, ha := ia, hb := ib, setup := some su, first := true, last := false } })))

/-- 03 R48, R49, R62, 07 R141, R142: on presses in their mode, with the drain unit (the comparator) free and an accumulation whose latches may be drained at u, DRAIN,
DRAINR and TASTE start; the vat addresses, row strides and scale address of a drain are those of R141. -/
def Obligations.DrainsAndTastesStart : Prop :=
  ∀ (s : State) (b : BayId) (sel : PressSel), b.ok = true →
    let u := (s.bay b).seq.count
    let pr := sel.pr.toNat
    let q := if sel.qe then sel.qt.toNat else 4
    let n := if sel.qe then 16 else 32
    let e := ((s.bay b).press pr).ends
    ((s.bay b).press pr).quart = sel.qe →
    (∀ (p : Pred) (f : DrainF), f.ok sel = true → drainUnitBusy (s.bay b) pr u = false → drainLegal u 1 q e = true →
      exec (.drain b p sel f) s = .next (s.modBay b (fun x =>
        let base := x.vatAddr f.i.toNat (64 * f.off.toNat) 64
        { x with drains := x.drains ++ [{ d := u, pr := pr, qe := sel.qe, q := q, recd := false, fmt := f.fmt, rm := f.rm, sat := f.sat,
                                          dsc := f.dsc.toInt, base := base,
                                          rb := if f.str = 0#8 then (fmtP f.fmt).width * n / 8 else 64 * f.str.toNat,
                                          sbase := base + 32 * f.soff.toNat, on := x.isOn p, next := 0, scales := [], body := x.seq.body }] }))) ∧
    (∀ (p : Pred) (f : DrainRF), sel.ok = true → drainUnitBusy (s.bay b) pr u = false → drainLegal u 4 q e = true →
      exec (.drainr b p sel f) s = .next (s.modBay b (fun x =>
        { x with drains := x.drains ++ [{ d := u, pr := pr, qe := sel.qe, q := q, recd := true, fmt := 0#4, rm := 0#2, sat := false, dsc := 0,
                                          base := x.vatAddr f.i.toNat (64 * f.off.toNat) 64,
                                          rb := if f.str = 0#8 then 32 * n else 64 * f.str.toNat,
                                          sbase := 0, on := x.isOn p, next := 0, scales := [], body := x.seq.body }] }))) ∧
    (∀ (prb qb : BitVec 2), sel.ok = true → prb ≠ sel.pr → (sel.qe = true ∨ qb = 0#2) → ((s.bay b).press prb.toNat).quart = sel.qe →
      (s.bay b).taste = none →
      let q2 := if sel.qe then qb.toNat else 4
      drainLegal u 1 q e = true → drainLegal u 1 q2 ((s.bay b).press prb.toNat).ends = true →
      exec (.taste b sel prb qb) s = .next (s.modBay b (fun x =>
        { x with taste := some { d := u, pr := pr, prb := prb.toNat, qe := sel.qe, q := q, qb := q2, next := 0, found := false, on := true } })))

/-- 03 R47, R59: when one k-step that is neither the first nor the last of its accumulation reaches cell (i, j), the cell's tun accumulates the product of the row's and the column's
operands and its residue follows; a product that the limit of R28 admits is no breach. Nothing else in the bay changes but the mark that the cell has been reached. -/
def Obligations.KstepReachesACell : Prop :=
  ∀ (s : State) (b : BayId) (i j : Nat) (w : Wave) (a c : Exact × Nat), b.ok = true → i < 32 → j < 32 →
    (s.bay b).waves = [w] → w.r0 = 0 → w.c0 = 0 → w.n = 32 → w.pr < 4 → w.done = [] → w.first = false → w.last = false →
    (s.bay b).seq.ticked = w.v + 4 + (i : Int) + (j : Int) → w.a[i]? = some a → w.b[j]? = some c →
    let p := (s.bay b).press w.pr
    let key := 32 * i + j
    let t := Sparse.get Tun.empty p.tuns key
    let prod := formProductE a.1 a.2 c.1 c.2
    (t.accumulate prod).2 = false →
    exec (.cellAccumulate b (BitVec.ofNat 2 w.pr) i j) s = .next (s.modBay b (fun x =>
      { x.setPress w.pr { p with tuns := Sparse.set Tun.empty p.tuns key (t.accumulate prod).1,
                                 rho := Sparse.set 0 p.rho key (residueAdd (Sparse.get 0 p.rho key) a.1 c.1 prod t) } with
        waves := [{ w with done := [key] }] }))

/-- 03 R48, R49: while a rounded drain of a whole press in a format without scales stands alone and its row is due, its row is captured when the copies agree and every cell's residue agrees: the row's bytes are written to the vat six
fc later at the drain's base plus the row's stride, its flags fall due with them, and the drain goes on to its next row. 03 R62: when a row of a comparison is due and every residue of the two rows agrees, equal rows only move the comparison to its next row (the last row ends it); the first row that differs puts
TASTE_MISMATCH (0x0202) on the agenda two fc later with the presses, the quarters and the row. -/
def Obligations.DrainAndTasteRows : Prop :=
  (
    ∀ (s : State) (b : BayId) (r : DrainRun), b.ok = true → (s.bay b).drains = [r] → r.pr < 4 → r.recd = false → r.qe = false → r.next < 31 →
      (fmtP r.fmt).isMx = false → r.on = true → (s.bay b).seq.ticked = r.d + (r.next : Int) →
      (latchRow ((s.bay b).press r.pr) false r.q r.next).all (fun x => residueOk x.1 x.2) = true →
      let cx := s.bctx b
      let c := (s.bay b).seq.ticked
      let ts := (latchRow ((s.bay b).press r.pr) false r.q r.next).map (fun x => x.1)
      let row := roundedRow (s.bay b).lathe.runKey { px := cx.px, py := cx.py, unit := r.pr, quarter := 0, count := (BitVec.ofInt 64 r.d).toNat } r r.next 32 ts
      exec (.drainRowCapture b (BitVec.ofNat 2 r.pr) true) s = .next (s.modBay b (fun x =>
        let y : Bay := { x with accs := x.accs ++ [drainAcc r (c + 6) (r.base + r.next * r.rb) row.1] }
        let z := if row.2.1 = 0#4 then y else y.due (c + 6) 2 (.dflags r.pr row.2.1)
        { z with drains := [{ r with next := r.next + 1 }] }))) ∧
  (
    ∀ (s : State) (b : BayId) (t : TasteRun), b.ok = true → (s.bay b).taste = some t → t.on = true → t.next < (if t.qe then 16 else 32) →
      (s.bay b).seq.ticked = t.d + (t.next : Int) →
      let x := latchRow ((s.bay b).press t.pr) t.qe t.q t.next
      let y := latchRow ((s.bay b).press t.prb) t.qe t.qb t.next
      x.all (fun v => residueOk v.1 v.2) = true → y.all (fun v => residueOk v.1 v.2) = true →
      let differ := decide (x.map (fun v => tunRecord v.1) ≠ y.map (fun v => tunRecord v.1))
      let more := decide (t.next + 1 < (if t.qe then 16 else 32))
      exec (.tasteRowCompare b) s = .next (s.modBay b (fun z =>
        let z := if differ && !t.found then z.due ((s.bay b).seq.ticked + 2) 0 (.fault 0x0202 t.pr [(1, t.prb), (1, t.q % 4), (1, t.qb % 4), (1, t.next)]) else z
        { z with taste := if more then some { t with next := t.next + 1, found := t.found || differ } else none })))

/-- 04 R65, R66, R67, R70: an integer instruction or a comparison that is on lands at u + 2 (an FP32 comparison at u + 4), lane by lane under its mask, in V[VD] or in the mask
register VD; one that is off changes nothing; nothing outside the bay's agenda changes. 04 R66, 07 R145: SEL takes VA where its selecting mask is 1 and VB elsewhere; BCAST copies one lane to every lane; MOVC reads the lane number, the bay's coordinates in its
parcel and the two words of the invocation count; all land at u + 2. -/
def Obligations.IntegerCompareAndMoveInstructions : Prop :=
  (
    ∀ (s : State) (b : BayId) (p : Pred) (f : LatheF), b.ok = true →
      (∀ o ∈ intOps, f.fits useDAB = true → exec (o.1 b p f) s = .next (s.modBay b (fun x => x.lands2 p f 2 (fun a c => plain (o.2 a c))))) ∧
      (∀ o ∈ cmpOps, f.fits useCmp = true → exec (o.1 b p f) s = .next (s.modBay b (fun x => x.landsMask p f o.2.1 o.2.2)))) ∧
  (
    ∀ (s : State) (b : BayId) (p : Pred) (f : LatheF), b.ok = true →
      (f.fits { useDAB with c := 3 } = true → exec (.sel b p f) s = .next (s.modBay b (fun x => x.landsLanes p f 2 (fun l =>
        plain (if (x.lathe.mask (f.vc.toNat % 8)).getLsbD l then x.lathe.lane f.va.toNat l else x.lathe.lane f.vb.toNat l))))) ∧
      (f.fits { useDA with ext := 7 } = true → exec (.bcast b p f) s = .next (s.modBay b (fun x => x.landsLanes p f 2 (fun _ =>
        plain (x.lathe.lane f.va.toNat (f.ext.toNat % 128)))))) ∧
      (∀ (g : Nat → Nat), f.fits { useDA with a := 0, ext := 3 } = true → f.ext.toNat ≤ 4 →
        (g 0 = (s.bctx b).px ∧ g 1 = (s.bctx b).py ∧ g 2 = (BitVec.ofInt 64 (s.bay b).seq.count).toNat ∧
          g 3 = (BitVec.ofInt 64 (s.bay b).seq.count).toNat / 2 ^ 32) →
        exec (.movc b p f) s = .next (s.modBay b (fun x => x.landsLanes p f 2 (fun l =>
          plain (BitVec.ofNat 32 (if f.ext.toNat = 0 then l else g (f.ext.toNat - 1))))))))

/-- 04 R66, R68, R70, R71, R73: the binary32 instructions land at u + 4, the functions of one source at the latency of their row of R66; FABS and FNEG clear and flip bit 31 and set
no flag; FFMA takes a third source. -/
def Obligations.FloatingPointInstructions : Prop :=
  ∀ (s : State) (b : BayId) (p : Pred) (f : LatheF), b.ok = true →
    (∀ o ∈ fpOps, f.fits useDAB = true → exec (o.1 b p f) s = .next (s.modBay b (fun x => x.lands2 p f 4 o.2))) ∧
    (∀ o ∈ unaryOps, f.fits useDA = true → exec (o.1 b p f) s = .next (s.modBay b (fun x => x.lands1 p f o.2.1 o.2.2))) ∧
    (f.fits { useDAB with c := 6 } = true → exec (.ffma b p f) s = .next (s.modBay b (fun x => x.landsLanes p f 4
      (fun l => fpFma (x.lathe.lane f.va.toNat l) (x.lathe.lane f.vb.toNat l) (x.lathe.lane f.vc.toNat l)))))

/-- 04 R66, R75, R78, R82, R83, 07 R145: CVT.F2I rounds under RM; CVT.UNPACK decodes packed elements under the scale bytes of lane 127; CVT.PACK drains the selected lanes and writes all of VD; RSUM and RMAX
reduce in the fixed tree, masked lanes taking the identity, and write every lane; CGEN writes four registers; LFRD reads both flag words into every lane; LFCLR clears both at u + 2. -/
def Obligations.ConversionsReductionsAndFlags : Prop :=
  ∀ (s : State) (b : BayId) (p : Pred) (f : LatheF), b.ok = true →
    let cx := s.bctx b
    (f.fits { useDA with b := 2 } = true → exec (.cvtF2i b p f) s = .next (s.modBay b (fun x => x.landsLanes p f 4 (fun l =>
      cvtF2I (x.lathe.lane f.va.toNat l) (BitVec.ofNat 2 f.vb.toNat) (latheRandom x cx.px cx.py (BitVec.ofNat 2 f.vb.toNat) l))))) ∧
    (f.fits { useDA with b := 4 } = true → fmtOk (BitVec.ofNat 4 f.vb.toNat) = true →
      let fmt := BitVec.ofNat 4 f.vb.toNat
      exec (.cvtUnpack b p f) s = .next (s.modBay b (fun x => x.landsLanes p f 4 (fun l =>
        unpackElem (bitsOf (leNat (x.lathe.vbytes f.va.toNat)) ((fmtP fmt).width * l) (fmtP fmt).width) fmt
          (if (fmtP fmt).isMx then bitsOf (x.lathe.lane f.va.toNat 127).toNat (8 * (l / 32)) 8 else 0x7F))))) ∧
    (f.fits { useDA with b := 6, c := 1, ext := 7 } = true → fmtOk (BitVec.ofNat 4 f.vb.toNat) = true →
      exec (.cvtPack b p f) s = .next (s.modBay b (fun x =>
        let r := packLanes (BitVec.ofNat 4 f.vb.toNat) (BitVec.ofNat 2 (f.vb.toNat / 16)) (f.vc.toNat % 2 == 1) (signedOf 7 f.ext.toNat)
          ((List.range 128).map (fun l => if (x.lathe.mask f.msk.toNat).getLsbD l then tunOfFp (x.lathe.lane f.va.toNat l) else Tun.empty))
          ((List.range 128).map (fun l => latheRandom x cx.px cx.py (BitVec.ofNat 2 (f.vb.toNat / 16)) l))
        x.lands p 4 (.vreg f.vd.toNat (BitVec.allOnes 128)
          ((List.range 128).map (fun l => BitVec.ofNat 32 (Bytes.leAt r.1 (4 * l) 4))) 0#5 r.2)))) ∧
    (∀ (o : (BayId → Pred → LatheF → Instr) × (Word → Word → FpOut) × Word), o ∈ [(Instr.rsum, fpAdd, 0x80000000#32), (Instr.rmax, fpMax, 0xFF800000#32)] → f.fits useDA = true →
      exec (o.1 b p f) s = .next (s.modBay b (fun x =>
        let r := treeReduce o.2.1 7 ((List.range 128).map (fun l =>
          if (x.lathe.mask f.msk.toNat).getLsbD l then x.lathe.lane f.va.toNat l else o.2.2)) 0#5
        x.lands p 30 (.vreg f.vd.toNat (BitVec.allOnes 128) (List.replicate 128 r.val) r.fl 0#4)))) ∧
    (f.cgenOk = true → exec (.cgen b p f) s = .next (s.modBay b (fun x =>
      let quad := fun (r l : Nat) => ({ x0 := x.lathe.lane r l, x1 := x.lathe.lane (r + 1) l, x2 := x.lathe.lane (r + 2) l,
                                        x3 := x.lathe.lane (r + 3) l } : CgenX)
      let os := (List.range 128).map (fun l => Sys2Proof.Machine.cgen (quad f.va.toNat l) (quad f.vb.toNat l))
      x.lands p 22 (.vregs4 f.vd.toNat (x.lathe.mask f.msk.toNat)
        [os.map (fun o => o.x0), os.map (fun o => o.x1), os.map (fun o => o.x2), os.map (fun o => o.x3)])))) ∧
    (f.fits useD = true → exec (.lfrd b p f) s = .next (s.modBay b (fun x => x.lands p 2 (.vreg f.vd.toNat (BitVec.allOnes 128)
      (List.replicate 128 (BitVec.ofNat 32 (x.lathe.lflags.toNat + 32 * x.lathe.dflags.toNat))) 0#5 0#4)))) ∧
    (f.fits { useD with d := 0 } = true → exec (.lfclr b p f) s = .next (s.modBay b (fun x =>
      if x.isOn p then x.due (x.seq.count + 2) 0 (.lathe .lfclr) else x)))

/-- 04 R76: TCLR lands at u + 1, TACC and TMAC at u + 4 under their mask, XSUM at u + 6 with the lanes its mask selects, TSUM at u + 8 with LTa as it stands at issue (a lane of another anchor is the COMBINE
breach), TDRAIN at u + 6 without changing LTa. -/
def Obligations.LaneTunInstructions : Prop :=
  ∀ (s : State) (b : BayId) (p : Pred) (f : LatheF), b.ok = true →
    let cx := s.bctx b
    (f.fits { useD with d := 3, ext := 9 } = true → anchorOk (signedOf 9 f.ext.toNat) = true →
      exec (.tclr b p f) s = .next (s.modBay b (fun x => x.lands p 1 (.tclr (f.vd.toNat % 8) (BitVec.allOnes 128) (signedOf 9 f.ext.toNat))))) ∧
    (f.fits { useDA with d := 3 } = true → exec (.tacc b p f) s = .next (s.modBay b (fun x =>
      x.lands p 4 (.tterms (f.vd.toNat % 8) (x.lathe.mask f.msk.toNat) ((x.lathe.vec f.va.toNat).map addendOf))))) ∧
    (f.fits { useDAB with d := 3 } = true → exec (.tmac b p f) s = .next (s.modBay b (fun x =>
      x.lands p 4 (.tterms (f.vd.toNat % 8) (x.lathe.mask f.msk.toNat)
        (((x.lathe.vec f.va.toNat).zip (x.lathe.vec f.vb.toNat)).map (fun v => formProduct v.1.toNat 0#4 0x7F v.2.toNat 0#4 0x7F)))))) ∧
    (f.fits { useDA with d := 3 } = true → exec (.xsum b p f) s = .next (s.modBay b (fun x =>
      x.lands p 6 (.xsum (f.vd.toNat % 8) ((enumFrom 0 (x.lathe.vec f.va.toNat)).filterMap (fun v =>
        if (x.lathe.mask f.msk.toNat).getLsbD v.1 then some (addendOf v.2) else none)))))) ∧
    (f.fits { useD with d := 3, a := 3 } = true → exec (.tsum b p f) s = .next (s.modBay b (fun x =>
      let ts := (List.range 128).map (fun l => x.lathe.ltun (f.va.toNat % 8) l)
      let t := (x.lathe.ltun (f.va.toNat % 8) 0).anchor
      let o := combine ts t
      x.lands p 8 (.tsum (f.vd.toNat % 8) { o with anchorBreach := o.anchorBreach || ts.any (fun v => decide (v.anchor ≠ t)) })))) ∧
    (f.fits { useDA with a := 3, b := 6, c := 1, ext := 7 } = true → fmtOk (BitVec.ofNat 4 f.vb.toNat) = true → mxFmt (BitVec.ofNat 4 f.vb.toNat) = false →
      exec (.tdrain b p f) s = .next (s.modBay b (fun x =>
        let mask := x.lathe.mask f.msk.toNat
        let ts := (List.range 128).map (fun l => x.lathe.ltun (f.va.toNat % 8) l)
        let os := (enumFrom 0 ts).map (fun v => drainTun v.2 (BitVec.ofNat 4 f.vb.toNat) (BitVec.ofNat 2 (f.vb.toNat / 16)) (f.vc.toNat % 2 == 1)
          (signedOf 7 f.ext.toNat) (latheRandom x cx.px cx.py (BitVec.ofNat 2 (f.vb.toNat / 16)) v.1))
        let sel := (enumFrom 0 (os.zip ts)).filterMap (fun v => if mask.getLsbD v.1 then some v.2 else none)
        x.lands p 6 (.vreg f.vd.toNat mask (os.map (fun o => BitVec.ofNat 32 o.code)) 0#5
          (dflagsOf (sel.any (fun v => v.2.tu)) (sel.any (fun v => v.1.dv)) (sel.any (fun v => v.1.dov)) (sel.any (fun v => v.1.dx)))))))

/-- 04 R66, R76, 05 R89, 07 R144: VLD reads 512 bytes of the vat at u + 1 for V[VD] and VST writes V[VA] at u + 3; TLOADC reads and TSTORE writes eight blocks of 512 bytes from u + 1 on, TSTORE the lane tuns
as they stand at issue; each uses the address of its index register and offset, aligned down. -/
def Obligations.LatheVatAccesses : Prop :=
  ∀ (s : State) (b : BayId) (p : Pred) (f : LatheF), b.ok = true →
    let at_ := fun (x : Bay) (align : Nat) => x.vatAddr (f.vb.toNat % 16) (8 * (64 * f.ext.toNat + f.vc.toNat)) align
    let acc := fun (x : Bay) (port : VPort) (c : Int) (a : Nat) (w : Option Chunk) (k : Sink) =>
      ({ at_ := c, port := port, addr := a % 2 ^ 23, len := 512, wr := w, on := x.isOn p, sink := k, body := x.seq.body, banks := [], mode := 0#3 } : Access)
    (f.fits { useD with b := 4, c := 6, ext := 10 } = true → exec (.vld b p f) s = .next (s.modBay b (fun x =>
      { x with accs := x.accs ++ [acc x .latheRead (x.seq.count + 1) (at_ x 8) none (.vreg f.vd.toNat)] }))) ∧
    (f.fits { useD with d := 0, a := 6, b := 4, c := 6, ext := 10 } = true → exec (.vst b p f) s = .next (s.modBay b (fun x =>
      { x with accs := x.accs ++ [acc x .latheWrite (x.seq.count + 3) (at_ x 8) (some { bytes := x.lathe.vbytes f.va.toNat, bad := [] }) .none] }))) ∧
    (f.fits { useD with d := 3, b := 4, c := 6, ext := 10 } = true → exec (.tloadc b p f) s = .next (s.modBay b (fun x =>
      { x with accs := x.accs ++ (List.range 8).map (fun (w : Nat) =>
          acc x .latheRead (x.seq.count + 1 + (w : Int)) (at_ x 32 + 512 * w) none (.tload (f.vd.toNat % 8) w)) }))) ∧
    (f.fits { useD with d := 0, a := 3, b := 4, c := 6, ext := 10 } = true → exec (.tstore b p f) s = .next (s.modBay b (fun x =>
      { x with accs := x.accs ++ (List.range 8).map (fun (w : Nat) => acc x .latheWrite (x.seq.count + 1 + (w : Int)) (at_ x 32 + 512 * w)
          (some { bytes := (List.range 16).flatMap (fun l => tunRecord (x.lathe.ltun (f.va.toNat % 8) (16 * w + l))), bad := [] }) .none) })))

/-- 04 R65, R67, R79: a vector result that lands writes the unmasked lanes of its register and nothing else of V, and its flags are ORed into LFLAGS and DFLAGS; a mask result writes the unmasked bits of its mask register, and M0
reads as all ones whatever is written to it. 04 R65, 15 R307: LATHE_RESULT_LAND lands every lathe result that is due at the bay's count, in order, and takes it off the agenda; copies that disagree while one lands are the fault
LATHE_MISMATCH (0x0208) a count later, noted where it is one of the prologue (05 R103); a bay with nothing due changes only by name. -/
def Obligations.LatheResultsLand : Prop :=
  (
    ∀ (m : BayM) (c : Int), Sparse.wf 0#32 m.bay.lathe.v = true → Sparse.wf 0#128 m.bay.lathe.m = true →
      (∀ (vd : Nat) (mask : BitVec 128) (vals : List Word) (lfl : BitVec 5) (dfl : BitVec 4) (r l : Nat), l < 128 →
        let n := latheLand c m (.vreg vd mask vals lfl dfl)
        n.bay.lathe.lane r l = (if r = vd ∧ mask.getLsbD l = true then vals.getD l 0#32 else m.bay.lathe.lane r l) ∧
        n.bay.lathe.lflags = m.bay.lathe.lflags ||| lfl ∧ n.bay.lathe.dflags = m.bay.lathe.dflags ||| dfl ∧ n.out = m.out ∧
        { n.bay with lathe := m.bay.lathe } = m.bay) ∧
      (∀ (k j : Nat) (mask bits : BitVec 128) (lfl : BitVec 5) (l : Nat),
        ((latheLand c m (.mreg k mask bits lfl)).bay.lathe.mask j).getLsbD l =
          if j = 0 then decide (l < 128) else if j = k ∧ mask.getLsbD l = true then bits.getLsbD l else (m.bay.lathe.mask j).getLsbD l)) ∧
  (
    ∀ (s : State) (b : BayId) (agree : Bool), b.ok = true →
      let c := (s.bay b).seq.count
      let hit := fun (d : Due) => decide (d.at_ ≤ c) && isLatheDue d
      let m := ((s.bay b).agenda.filter hit).foldl runEvent { bay := { s.bay b with agenda := (s.bay b).agenda.filter (fun d => !hit d) }, out := [] }
      let wrong := (s.bay b).agenda.any hit && !agree
      let fault := if wrong then [BOut.fault 0x0208 (c + 1) 4 []] else []
      let x : Bay := if wrong then { m.bay with vat := { m.bay.vat with proFault := m.bay.vat.proFault || !m.bay.seq.body } } else m.bay
      exec (.latheResultLand b agree) s = .next ((m.out ++ fault).foldl (fun t o => t.bout b o) (s.setBay b x)))

/-- 04 R69, R66, R68, R70: sample results with their flags: a NaN operand gives 0x7FC00000 and a signalling one sets NV; infinity minus infinity is NaN with NV; 1 + 1 = 2 exactly; the maximum finite number doubled is infinity with OF and NX; the smallest subnormal
halved is 0 with UF and NX; x + (-x) is +0; 0 times infinity in FFMA sets NV whatever c is; FMIN orders -0 below +0; FCMP.EQ holds of -0 and +0; 1 / 0 sets DZ; the root of -1 sets NV; the exponential of 0 is 1. -/
def Obligations.Binary32CornerResults : Prop :=
  fpAdd 0x7F800001#32 0x3F800000#32 = { val := 0x7FC00000#32, fl := 0x10#5 } ∧
  fpAdd 0xFFC12345#32 0x3F800000#32 = { val := 0x7FC00000#32, fl := 0#5 } ∧
  fpSub 0x7F800000#32 0x7F800000#32 = { val := 0x7FC00000#32, fl := 0x10#5 } ∧
  fpAdd 0x3F800000#32 0x3F800000#32 = { val := 0x40000000#32, fl := 0#5 } ∧
  fpAdd 0x7F7FFFFF#32 0x7F7FFFFF#32 = { val := 0x7F800000#32, fl := 0x05#5 } ∧
  fpMul 0x00000001#32 0x3F000000#32 = { val := 0x00000000#32, fl := 0x03#5 } ∧
  fpAdd 0x40490FDB#32 0xC0490FDB#32 = { val := 0x00000000#32, fl := 0#5 } ∧
  fpFma 0x00000000#32 0x7F800000#32 0x7FC00000#32 = { val := 0x7FC00000#32, fl := 0x10#5 } ∧
  fpMin 0x00000000#32 0x80000000#32 = { val := 0x80000000#32, fl := 0#5 } ∧
  fpCmp (fun a c => decide (a = c)) 0x80000000#32 0x00000000#32 = (true, 0#5) ∧
  fpRcp 0x00000000#32 = { val := 0x7F800000#32, fl := 0x08#5 } ∧
  fpSqrt 0xBF800000#32 = { val := 0x7FC00000#32, fl := 0x10#5 } ∧
  fpExp 0x00000000#32 = { val := 0x3F800000#32, fl := 0#5 }

/-- 05 R91, R92, R95, R98, 07 R147, R149: VFILL and VCOPY start the mover at u on N chunks from their index register's address (the pattern, the clamped anchor and the source from the pair); VMODE occupies the banks it
selects at u + 1 and VPOWER gives each selected bank its pending sleep (four fc of fence) or its pending wake, whose end falls due. 05 R97, R98: a bank whose sleep has come due is in its sleep state at its count and OFF loses its contents; a bank whose wake has come due is ACTIVE again; a bank on which nothing is
pending keeps its state. BANK_SLEEP and BANK_WAKE complete by taking such an event off the bay's agenda. -/
def Obligations.VatInstructionsAndPowerStates : Prop :=
  (
    ∀ (s : State) (b : BayId), b.ok = true →
      let move := fun (p : Pred) (kind : Bay → MoverKind) (d : Nat) (n : BitVec 17) (x : Bay) =>
        ({ x with vat := { x.vat with mover := some { kind := kind x, dst := x.vatAddr d 0 64, n := 64 * (n.toNat + 1), u := x.seq.count, on := x.isOn p, body := x.seq.body } } } : Bay)
      (∀ (p : Pred) (k : BitVec 4) (n : BitVec 17),
        exec (.vfillPattern b p k n) s = .next (s.modBay b (move p (fun x => .pattern (x.idxReg ((k.toNat + 1) % 16))) k.toNat n))) ∧
      (∀ (p : Pred) (k : BitVec 4) (n : BitVec 17),
        exec (.vfillTun b p k n) s = .next (s.modBay b (move p (fun x =>
          let a := signedOf 9 (x.idxReg ((k.toNat + 1) % 16)).toNat
          .tun (if a < -192 then -192 else if 63 < a then 63 else a)) k.toNat n))) ∧
      (∀ (p : Pred) (k : BitVec 4) (n : BitVec 17),
        exec (.vcopy b p k n) s = .next (s.modBay b (move p (fun x => .copy (x.vatAddr k.toNat 0 64)) ((k.toNat + 1) % 16) n))) ∧
      (∀ (sel : BitVec 14) (md : BitVec 3) (reg : Bool), selOk sel reg = true → md.toNat ≤ 4 →
        exec (.vmode b sel md reg) s = .next (s.modBay b (fun x => { x with accs := x.accs ++
          [{ at_ := x.seq.count + 1, port := .bankCtl, addr := 0, len := 0, wr := none, on := true, sink := .none, body := false, banks := x.selBanks sel reg, mode := md }] }))) ∧
      (∀ (sel : BitVec 14) (st : BitVec 2) (reg : Bool), selOk sel reg = true →
        exec (.vpower b sel st reg) s = .next (s.modBay b (fun x => (x.selBanks sel reg).foldl (fun y k =>
          let n := (y.vat.bank k).vpower x.seq.count (if st = 0#2 then .active else if st = 1#2 then .nap else if st = 2#2 then .retain else .off)
          let y : Bay := { y with vat := y.vat.setBank k n }
          let y := match n.sleep with
            | some (_, c) => y.due c 0 (.bankSleep k)
            | none => y
          match n.wakeAt with
          | some c => y.due c 0 (.bankWake k)
          | none => y) x)))) ∧
  (
    ∀ (s : State) (b : BayId) (k : Nat) (c : Int), b.ok = true → c ≤ (s.bay b).seq.count →
      (∀ (pw : BankPower), (s.bay b).agenda = [{ at_ := c, phase := 0, ev := .bankSleep k }] → ((s.bay b).vat.bank k).sleep = some (pw, c) →
        exec (.bankSleep b) s = .next (s.modBay b (fun x =>
          let v := x.vat.setBank k { x.vat.bank k with power := pw, sleep := none }
          { x with agenda := [], vat := if pw = .off then v.clearBank k else v }))) ∧
      ((s.bay b).agenda = [{ at_ := c, phase := 0, ev := .bankWake k }] → ((s.bay b).vat.bank k).wakeAt = some c →
        exec (.bankWake b) s = .next (s.modBay b (fun x =>
          { x with agenda := [], vat := x.vat.setBank k { x.vat.bank k with power := .active, wakeAt := none } }))))

/-- 05 R87, R93, R96: a plain write to an awake bank stores its bytes and leaves every other byte of the vat as it was; a write in mode FP32_ADD adds the two words of a clean granule and sets VFLAGS from the sums; in mode
INT32_ADD it adds them modulo 2^32 and sets no flag. -/
def Obligations.VatWritesByMode : Prop :=
  ∀ (v : Vat) (a : Nat) (bytes : Bytes), Mem.wf v.mem = true → bytes.length = 8 → a % 8 = 0 → a + 8 ≤ 2 ^ 23 →
    let r := v.writeChunk a { bytes := bytes, bad := [] }
    ((v.bank (bankOf a)).mode = 0#3 → r.vat.mem = Mem.writeBytes v.mem a bytes ∧ r.vat.vflags = v.vflags ∧
      ∀ k, (k < a ∨ a + 8 ≤ k) → Mem.read r.vat.mem k = Mem.read v.mem k) ∧
    (v.granCode (granOf a) = 0 →
      let old := fun (i : Nat) => BitVec.ofNat 32 (Mem.readLe v.mem (a + 4 * i) 4)
      let new := fun (i : Nat) => BitVec.ofNat 32 (Bytes.leAt bytes (4 * i) 4)
      ((v.bank (bankOf a)).mode = 2#3 →
        r.vat.mem = Mem.writeBytes v.mem a (natLe 4 (fpAdd (old 0) (new 0)).val.toNat ++ natLe 4 (fpAdd (old 1) (new 1)).val.toNat) ∧
        r.vat.vflags = v.vflags ||| vflagsOf (fpAdd (old 0) (new 0)).fl ||| vflagsOf (fpAdd (old 1) (new 1)).fl) ∧
      ((v.bank (bankOf a)).mode = 3#3 →
        r.vat.mem = Mem.writeBytes v.mem a (natLe 4 (old 0 + new 0).toNat ++ natLe 4 (old 1 + new 1).toNat) ∧ r.vat.vflags = v.vflags))

/-- 09 R181, R182, R184, R190, 07 R150: CRD, CWR and CBW put a transaction on the racking unit with its cellar address, pieces, vat address and the findings of its beats, timed by the region of any cask of the parcel that holds its first piece; one whose region does not hold the access or whose USE forbids it moves nothing and raises
CELLAR_ADDRESS (0x0403) two fc later. 09 R182, R188: CRD_DELIVERY of a read that stands alone with its first piece in the return buffer and due: the piece's 64 bytes are written to the vat at the read's address under the racking write port, and the read goes on to its next piece. -/
def Obligations.RackInstructionsAndDelivery : Prop :=
  (
    ∀ (s : State) (b : BayId) (p : Pred), b.ok = true →
      let cx := s.bctx b
      (∀ (f : RackF) (write : Bool) (beats : List Ecc), f.ci.toNat % 2 = 0 →
        let a := (((s.bay b).idxReg (f.ci.toNat + 1)).toNat * 2 ^ 32 + ((s.bay b).idxReg f.ci.toNat).toNat + 64 * f.coff.toNat) % 2 ^ 42 / 64 * 64
        let reg := if a / 2 ^ 37 / 2 = cx.rel / 2 then regionAt (cx.regions.getD (a / 2 ^ 37 % 2) []) (a % 2 ^ 37) else none
        let n := 64 * (f.lm1.toNat + 1)
        let ok := match reg with
          | some r => r.holds (a % 2 ^ 37) n && (if write then rackWrites r.use_ else rackReads r.use_)
          | none => false
        exec (if write then .cwr b p { f := f, beats := beats } else .crd b p f) s = .next (s.modBay b (fun x =>
          let y : Bay := { x with tag := x.tag + 1, racks := x.racks ++
            [{ tag := x.tag, kind := if write then 2 else 1, u := x.seq.count, cask := 2 * cx.field + a / 2 ^ 37 % 2, off := a % 2 ^ 37, pieces := f.lm1.toNat + 1,
               inter := match regionAt (cx.allRegions.getD (a / 2 ^ 37) []) (a % 2 ^ 37) with
                 | some r => decide (r.kind = .interleaved)
                 | none => false,
               beats := if write then beats else [], grp := 0, vaddr := x.vatAddr f.vin.toNat (64 * f.voff.toNat) 64, on := x.isOn p && ok, next := 0, nextBuf := 0, buf := [], body := x.seq.body }] }
          if x.isOn p && !ok then y.due (x.seq.count + 2) 0 (.fault 0x0403 0 [(8, a), (1, if write then 2 else 1)]) else y))) ∧
      (∀ (ci vin : BitVec 4) (voff : BitVec 16) (l g : BitVec 6) (beats : List Ecc), ci.toNat % 2 = 0 →
        let a := (((s.bay b).idxReg (ci.toNat + 1)).toNat * 2 ^ 32 + ((s.bay b).idxReg ci.toNat).toNat) % 2 ^ 42 / 64 * 64
        let ok := groupOk cx g.toNat (a % 2 ^ 37) (64 * (l.toNat + 1))
        exec (.cbw b p ci vin voff l { grp := g, beats := beats }) s = .next (s.modBay b (fun x =>
          let y : Bay := { x with tag := x.tag + 1, racks := x.racks ++
            [{ tag := x.tag, kind := 3, u := x.seq.count, cask := 2 * cx.field + a / 2 ^ 37 % 2, off := a % 2 ^ 37, pieces := l.toNat + 1, inter := false, grp := g.toNat, beats := beats,
               vaddr := x.vatAddr vin.toNat (64 * voff.toNat) 64, on := x.isOn p && ok, next := 0, nextBuf := 0, buf := [], body := x.seq.body }] }
          if x.isOn p && !ok then y.due (x.seq.count + 2) 0 (.fault 0x0403 0 [(8, a), (1, 3)]) else y)))) ∧
  (
    ∀ (s : State) (b : BayId) (r : RackRun) (ch : Chunk), b.ok = true → (s.bay b).racks = [r] → r.kind = 1 → r.on = true → r.next = 0 → r.pieces = 1 →
      r.u + 160 ≤ (s.bay b).seq.count → r.buf = [(0, ch)] →
      exec (.crdDelivery b []) s = .next (s.modBay b (fun x =>
        { x with free := x.free + 1, racks := [{ r with next := 1 }],
                 accs := x.accs ++ [{ at_ := x.seq.count, port := .rackWrite, addr := r.vaddr % 2 ^ 23, len := 64, wr := some { bytes := ch.bytes, bad := ch.bad },
                                      on := true, sink := .none, body := r.body, banks := [], mode := 0#3 }] })))

/-- 10 R205, R206, R207, 07 R150: each sill instruction puts its operation on the bay with its descriptor, its vat address, its first work frame at or after (u + 32 + IN + 8) / 9 and its end count; an operation whose descriptor names another
OPK, or a bay outside a parcel, moves nothing. -/
def Obligations.SillOperationsStart : Prop :=
  ∀ (s : State) (b : BayId) (p : Pred) (f : SopF), b.ok = true → ∀ o ∈ sopOps,
    let cx := s.bctx b
    let d := Sparse.get SillDesc.none (s.bay b).descs f.dix.toNat
    let period := cx.period.getD (d.cask % 2) 0
    let ws := cx.windows.getD (d.cask % 2) []
    let k0 := firstWork period ws (period + 1) (Int.fdiv ((s.bay b).seq.count + 32 + (d.inl : Int) + 8) 9)
    exec (o.1 b p f) s = .next (s.modBay b (fun x => { x with tag := x.tag + 1, sops := x.sops ++
      [{ tag := x.tag, dix := f.dix.toNat, desc := d, u := x.seq.count, k0 := k0.getD 0,
         e := k0.bind (fun k => (afterWork period ws (d.t - 1) k).map (fun l => 9 * (l + 1))), vaddr := x.vatAddr f.vin.toNat (64 * f.voff.toNat) 64,
         on := x.isOn p && decide (d.opk = o.2) && cx.inParcel, next := 0, operand := [], snap := none, ended := false, nextOut := 0, result := none, late := false, body := x.seq.body }] }))

/-- 10 R207, R219, R222: a sill operation that stands alone and reaches its end count is marked ended and takes its end (its cask writes, its vat result, its flags and its faults); one that is off only counts SOP_DONE. 10 R213: FILL writes its pattern over its range, COPY the bytes of its source range, both with no vat result; DIGEST returns the SHA-384 of its range padded to 128 bytes and writes nothing. -/
def Obligations.SillOperationsEnd : Prop :=
  (
    ∀ (s : State) (b : BayId) (r : SopRun) (e : Int) (agree late : Bool) (found : List (Nat × PieceErr)), b.ok = true → (s.bay b).sops = [r] → r.ended = false → r.e = some e → e ≤ (s.bay b).seq.count →
      let t := s.modBay b (fun x => { x with sops := [{ r with ended := true, late := late }] })
      exec (.sillOpResult b agree { late := late, found := found }) s = .next (t.sopEnd b { r with late := late } agree found) ∧
      (r.on = false → agree = true → exec (.sillOpResult b agree { late := late, found := found }) s = .next (t.caskCount (2 * fieldOf b + r.desc.cask) ckSopDone 1))) ∧
  (
    ∀ (d : SillDesc) (blk : Bytes) (m : SopM) (ra rb : Region), m.cask.region d.a = some ra →
      (d.opk = 7 → d.mode = 0 → sopRun d blk m = (some ([], none), m.write ra d.a ((List.range d.n).map (fun k => (natLe 4 d.pattern.toNat).getD (k % 4) 0#8)))) ∧
      (d.opk = 8 → m.cask.region d.b = some rb → (m.read ra d.a d.n).2 = m → sopRun d blk m = (some ([], none), m.write rb d.b (m.read ra d.a d.n).1)) ∧
      (d.opk = 6 → m.poison = false → (m.read ra d.a d.n).2 = m → sopRun d blk m = (some (sha384 (m.read ra d.a d.n).1 ++ zeroBytes 80, none), m)))

/-- 08 R157, 07 R151: SEND and RECV with a route of their kind start a transfer from or to the vat address of their index register and offset, one flit an fc from u + 1; with no such route nothing moves. 08 R157, R160: a flit that arrives whole stands at the bay's router with its data and the parity it left with; bits that turned on the way are in its data while its parity is the one sent. -/
def Obligations.MeshTransfersAndFlits : Prop :=
  (
    ∀ (s : State) (b : BayId) (p : Pred) (f : RouteF) (send : Bool), b.ok = true →
      let e := Sparse.get RouteEnt.none (s.bay b).routes f.rt.toNat
      exec (if send then .send b p f else .recv b p f) s = .next (s.modBay b (fun x =>
        if e.kind = (if send then 1 else 2) then
          { x with route := x.route ++ [{ send := send, u := x.seq.count, rt := f.rt.toNat, ent := e, base := x.vatAddr f.vin.toNat (128 * f.voff.toNat) 128,
                                          on := x.isOn p, next := 0, body := x.seq.body }] }
        else x))) ∧
  (
    ∀ (s : State) (b : BayId) (d : Due) (id f : Nat) (vd po : Bool) (data : Bytes) (par : Nat) (flips : List Nat), b.ok = true →
      (s.bay b).agenda = [d] → d.ev = .flitIn id f vd po data par → d.at_ ≤ (s.bay b).seq.count →
      exec (.flitArrive b flips) s = .next (s.modBay b (fun x => { x with agenda := [], flits := x.flits ++
        [{ at_ := d.at_, routeId := id, f := f, void := vd, poison := po, data := flipBits data flips, parity := par }] })))

/-- 08 R166, R170, R171, R172: a LOAD message of each kind to one bay whose node is open takes effect there when its CRC holds (its words are stored and, of a PLAN, run into LOAD_CRC), and one whose CRC fails is discarded there, counted as LOAD_NAK and answered with a NAK, upon which the message goes again to that bay alone; a PLAN that is no whole
number of bundles is no PLAN. -/
def Obligations.LoadMessagesWriteTheStores : Prop :=
  ∀ (s : State) (m : LoadMsg), m.group = none →
    let crcOk := decide (crc32c ((m.addr :: m.words).flatMap (fun w => natLe 4 w.toNat)) = m.crc)
    let nak : State := ((s.modBay m.bay (fun x => x.count cntLoadNak 1)).emit (.loadNak m.bay m)).emit (.loadResend { m with group := none, bay := m.bay })
    (m.words.length % 8 = 0 → 8 ≤ m.words.length → m.words.length ≤ 56 → s.loadOpen m.bay false = true → exec (.plan m) s = .next (if crcOk then s.modBay m.bay (fun x =>
        { x with plan := storeItems 0#256 16384 x.plan m.addr.toNat (bundlesOf 7 m.words),
                 lath := { x.lath with loadCrc := crcMore x.lath.loadCrc (m.words.flatMap (fun w => natLe 4 w.toNat)) } })
      else nak)) ∧
    ((m.words.length % 8 ≠ 0 ∨ m.words.length < 8 ∨ 56 < m.words.length) → exec (.plan m) s = .next s) ∧
    (m.words.length ≤ 56 → s.loadOpen m.bay false = true → exec (.pegtab m) s = .next (if crcOk then s.modBay m.bay (fun x => { x with pegtab := storeItems 0#32 4096 x.pegtab m.addr.toNat m.words }) else nak)) ∧
    (m.words.length ≤ 56 → s.loadOpen m.bay true = true → exec (.micro m) s = .next (if crcOk then s.modBay m.bay (fun x => { x with micro := storeItems 0#32 (2 ^ 32) x.micro m.addr.toNat m.words }) else nak))

/-- 08 R165, R166, R172, 12 R254, R260: a node that is up counts the corrected and the uncorrectable words of a message, the header's among them. A TELE message has no other effect. A message with no uncorrectable word takes effect at the node that DKIND and DEST name: a CMD message at a hub is its clock
command; a REG message ends the exchange outstanding with its target. A lost REG message leaves that exchange outstanding; a lost LOAD message goes again to its bay. A node in reset receives nothing. -/
def Obligations.LathMessagesAtANode : Prop :=
  ∀ (s : State) (n : LathNode) (m : LathMsg) (ecc : List Ecc), lathNodeOk n = true →
    let words := ecc.take (m.payload.length + 1)
    let ue := words.count .uncorrectable
    let t := (s.nodeCount n 0 (words.count .corrected)).nodeCount n 1 ue
    (s.nodeUp n = false → exec (.lathMessageReceive n m ecc) s = .next s) ∧
    (s.nodeUp n = true →
      (m.cls = .tele → exec (.lathMessageReceive n m ecc) s = .next t) ∧
      (ue = 0 → t.addressed m n = false → exec (.lathMessageReceive n m ecc) s = .next t) ∧
      (∀ (f : Nat), n = .hub f → ue = 0 → m.dkind = 2#2 → m.dest.toNat % 16 = f → m.cls = .cmd →
        (m.type = 0x20#8 → exec (.lathMessageReceive n m ecc) s = exec (.switch f (clockCmdOf m)) t) ∧
        (m.type = 0x21#8 → exec (.lathMessageReceive n m ecc) s = exec (.cancel f (clockCmdOf m)) t) ∧
        (m.type = 0x23#8 → exec (.lathMessageReceive n m ecc) s = exec (.epochLoad f (clockCmdOf m).count) t)) ∧
      (m.cls = .reg →
        let out := t.plate.regOut.filter (fun e => decide (e.1 ≠ (if n = .plate then m.src else n)))
        (ue = 0 → t.addressed m n = true → exec (.lathMessageReceive n m ecc) s = .next { t with plate := { t.plate with regOut := out } }) ∧
        (0 < ue → exec (.lathMessageReceive n m ecc) s = .next { t with plate := { t.plate with regOut := out ++ [(if n = .plate then m.src else n, m)] } })) ∧
      (∀ (b : BayId), n = .bay b → m.cls = .load → 0 < ue → exec (.lathMessageReceive n m ecc) s =
        .next ((t.emit (.loadNak b (lathLoad m b))).emit (.loadResend { lathLoad m b with group := none, bay := b }))))

/-- 08 R168: PEG_CHECK at a reached peg moves the parcel's checker on by exactly one peg and keeps no token of a checked one; before the tracker reaches the peg nothing happens. A field whose summary never came fails with kind 1, one with fewer than 144 arrivals with kind 2, one whose tokens
disagree with kind 3, one whose digest failed with kind 4; a field that passes reports nothing, a field that fails reports PEG_TOKEN (0x0306) with the field, the peg and the kind. -/
def Obligations.PegCheckAtTheDeadline : Prop :=
  (∀ (s : State) (p : Nat), p < 4 → s.pegReached p = false → exec (.pegCheck p) s = .next s) ∧
  (∀ (s : State) (p : Nat) (i : Inv), p < 4 → s.pegReached p = true → Sparse.wf Parcel.init s.parcels = true → (s.parcel p).inv = some i →
    ∃ t j, exec (.pegCheck p) s = .next t ∧ (t.parcel p).inv = some j ∧ j.checked = i.checked + 1 ∧ ∀ x ∈ j.tokens, i.checked + 1 < x.ord) ∧
  (∀ (s : State) (p ord e f : Nat) (i : Inv), (s.parcel p).inv = some i →
    let k := tokenKind e (i.tokens.find? (fun x => decide (x.field = f ∧ x.ord = ord)))
    s.checkField p ord e f = if k = 0 then s else
      s.report { code := 0x0306, parcel := some p, count := (s.parcelCount p).toNat, unit := 0x04, x := f, detail := [(1, f), (4, e), (1, k)] }) ∧
  (∀ (e : Nat), tokenKind e none = 1) ∧
  (∀ (t : TokenSum) (e : Nat), t.arrived < 144 → tokenKind e (some t) = 2) ∧
  (∀ (t : TokenSum) (e : Nat), 144 ≤ t.arrived → t.agree = false → tokenKind e (some t) = 3) ∧
  (∀ (t : TokenSum) (e : Nat), 144 ≤ t.arrived → t.agree = true → t.pegno = BitVec.ofNat 16 e → t.digestOk = false → tokenKind e (some t) = 4) ∧
  (∀ (t : TokenSum) (e : Nat), 144 ≤ t.arrived → t.agree = true → t.pegno = BitVec.ofNat 16 e → t.digestOk = true → tokenKind e (some t) = 0)

/-- 12 R247, R256, R260, R261, R262, 08 R169: a clock command whose count an island has passed is LATE_COMMAND; otherwise SWITCH of a legal FCODE sets the pending switch and locks the standby PLL to it, CANCEL of the same count withdraws it and counts it, EPOCH_LOAD stands for its epoch, ALIGN of an open
group in reset whose islands run at one frequency stands for its epoch. An FCODE outside R251 and an unpowered field are left alone. -/
def Obligations.ClockCommands : Prop :=
  ∀ (s : State) (f : Nat) (c : ClockCmd), f < 10 →
    let x := s.field f
    (x.supply.vfab = true → 0x18 ≤ c.fcode.toNat → c.fcode.toNat ≤ 0x48 → s.clockLate f c = true → exec (.switch f c) s = .next (s.lateCommand f c.count)) ∧
    (x.supply.vfab = true → 0x18 ≤ c.fcode.toNat → c.fcode.toNat ≤ 0x48 → s.clockLate f c = false → (c.stop = true → s.stopNamed f c = true) →
      exec (.switch f c) s = .next (s.setField f { x with island := { x.island with switch := some c, standby := c.fcode, locked := true, unlocked := false } })) ∧
    ((x.supply.vfab = false ∨ c.fcode.toNat < 0x18 ∨ 0x48 < c.fcode.toNat) → exec (.switch f c) s = .next s) ∧
    (x.supply.vfab = true → s.clockLate f c = true → exec (.cancel f c) s = .next (s.lateCommand f c.count)) ∧
    (∀ (w : ClockCmd), x.supply.vfab = true → s.clockLate f c = false → x.island.switch = some w → w.count = c.count → w.stop = c.stop →
      exec (.cancel f c) s = .next (s.setField f { x with island := { x.island with switch := none, unlocked := false }, cnt := bump x.cnt 3 1 })) ∧
    (∀ (e : Nat), x.supply.vfab = true → s.plate.master ≤ e →
      exec (.epochLoad f e) s = .next (s.setField f { x with island := { x.island with epochLoad := some e } })) ∧
    (∀ (e : Nat), x.supply.vfab = true → e < s.plate.master → exec (.epochLoad f e) s = .next (s.lateCommand f e)) ∧
    (∀ (n e : Nat), n < 13 → s.seamOpen n = true → (s.seam n).released = false → s.plate.master ≤ e →
      (s.field (seamEnds n).1).island.live = (s.field (seamEnds n).2).island.live → exec (.align n e) s = .next (s.modSeam n (fun y => { y with alignAt := some e })))

/-- 12 R254, R256, R257, R258, R259: at the FREF edge of an alignment the group leaves reset with its pointers at 0 and 10, gives the higher field the lower one's ST and clears OVERRUN; 48 epochs later separations all within 1 of the design value 6 stand as sigma0 of their readers, others send the group back to reset for the next of at most three more attempts, which both islands count; a stretch of a powered island that its switch does not hold off counts ST up modulo 16 and its own counter, a wave only when a neighbour's ST is ahead over a
released seam; a separation more than 4 from its reader's sigma0 sets OVERRUN of that link once and reports CROSSING_OVERRUN. -/
def Obligations.AlignmentStretchesAndOverruns : Prop :=
  ∀ (s : State),
    (∀ (n e : Nat) (sigmas : List Int), n < 13 → (s.seam n).alignAt = some e → (s.seam n).released = true → e + 48 ≤ s.plate.master →
      let near := (sigmas.take 24).all (fun v => decide (5 ≤ v) && decide (v ≤ 7))
      (near = true → exec (.alignCheck n sigmas) s = .next (s.modSeam n (fun x =>
        { x with alignAt := none, tries := 0, sigma0 := (enumFrom 0 (sigmas.take 24)).foldl (fun m v => Sparse.set 6 m v.1 v.2) [] }))) ∧
      (near = false → (s.seam n).tries < 3 → exec (.alignCheck n sigmas) s = .next
        ([(seamEnds n).1, (seamEnds n).2].foldl (fun t f => t.modField f (fun y => { y with cnt := bump y.cnt 4 1 }))
          (s.modSeam n (fun x => { x with released := false, alignAt := none, wptr := 0, rptr := 10, sigma0 := [], shifts := [], overrun := [], tries := x.tries + 1 }))))) ∧
    (∀ (n : Nat) (sigmas : List Int), n < 13 → ((s.seam n).alignAt = none ∨ (s.seam n).released = false) → exec (.alignCheck n sigmas) s = .next s) ∧
    (∀ (n : Nat), let t := s.seamRelease n
      t = (s.modField (seamEnds n).2 (fun x => { x with island := { x.island with st := (s.field (seamEnds n).1).island.st } })).modSeam n
        (fun x => { x with released := true, wptr := 0, rptr := 10, sigma0 := [], shifts := [], overrun := [] })) ∧
    (∀ (f : Nat), f < 10 → (s.field f).supply.vfab = true → s.stretchHeld f = false → exec (.stretchLocal f) s =
      .next ((s.modField f (fun x => { x with island := { x.island with st := x.island.st + 1#4 }, cnt := bump x.cnt 0 1 })).emit (.stretch f))) ∧
    (∀ (f : Nat), f < 10 → (s.field f).supply.vfab = true → s.waveAhead f = true → exec (.stretchWave f) s =
      .next ((s.modField f (fun x => { x with island := { x.island with st := x.island.st + 1#4 }, cnt := bump x.cnt 1 1 })).emit (.stretch f))) ∧
    (∀ (f : Nat), f < 10 → s.waveAhead f = false → exec (.stretchWave f) s = .next s) ∧
    (∀ (l : ScarfLink) (sig : Int), l.line < 12 → l.seam < 13 → (s.seam l.seam).released = true → 4 < (sig - Sparse.get 6 (s.seam l.seam).sigma0 (linkReader l)).natAbs → l ∉ (s.seam l.seam).overrun →
      let f := (seamEnds l.seam).1
      let c := (s.islandCount f).toNat
      exec (.crossingOverrun l sig) s = .next ((s.modSeam l.seam (fun x => { x with overrun := x.overrun ++ [l] })).report
        { code := 0x0308, parcel := s.parcelOfField f, count := c, unit := 0x03, x := l.seam, idx := l.line,
          detail := [(1, l.seam), (1, l.line), (1, if l.up then 0 else 1), (4, (BitVec.ofInt 32 sig).toNat), (4, (BitVec.ofInt 32 (Sparse.get 6 (s.seam l.seam).sigma0 (linkReader l))).toNat), (8, c)] })) ∧
    (∀ (l : ScarfLink) (sig : Int), l.line < 12 → l.seam < 13 → (sig - Sparse.get 6 (s.seam l.seam).sigma0 (linkReader l)).natAbs ≤ 4 → exec (.crossingOverrun l sig) s = .next s)

/-- 12 R261: an island that has reached the count of its SWITCH with its standby PLL locked makes it the live one, keeps the old FCODE on standby and counts the switch; an unlocked one stays; 1,024 counts later SWITCHED reports in the TELE class and releases the old PLL, and when every island of the parcel has reported VFAB follows the highest frequency that one of them runs at; from 2,048 counts before its switch on SWITCH_UNLOCKED withdraws the switch from every island that runs with it. -/
def Obligations.SwitchTakesPlace : Prop :=
  ∀ (s : State) (f : Nat), f < 10 →
    let x := s.field f
    (∀ (c : ClockCmd), x.island.switch = some c → c.stop = false → s.switchDue f c = true → x.island.locked = true → exec (.switchAtCount f) s = .next (s.setField f
      { x with island := { x.island with live := c.fcode, standby := x.island.live, switch := none, switchedDue := some c }, cnt := bump x.cnt 2 1 })) ∧
    (x.island.locked = false → exec (.switchAtCount f) s = .next s) ∧
    (x.island.switchedDue = none → exec (.switched f) s = .next s) ∧
    (∀ (c : ClockCmd), x.island.switchedDue = some c → s.clockReached f c 1024 = true →
      let t := (s.modField f (fun y => { y with island := { y.island with switchedDue := none, locked := false } })).emit (.switched f)
      let fs := t.together f
      exec (.switched f) s = .next (if fs.all (fun g => (t.field g).island.switchedDue.isNone && (t.field g).island.switch.isNone) then t.settleVolts fs else t)) ∧
    (∀ (c : ClockCmd), x.island.switchedDue = some c → c.stop = false → s.clockReached f c 1024 = false → exec (.switched f) s = .next s) ∧
    (∀ (c : ClockCmd), x.island.switch = some c → s.clockReached f c (-2048) = true →
      let u := (s.modField f (fun y => { y with island := { y.island with locked := false, unlocked := true } })).report
        { code := 0x0802, parcel := s.parcelOfField f, count := c.count, unit := 0x0A, x := f, detail := [(1, f), (8, c.count)] }
      exec (.switchUnlocked f) s = .next ((u.together f).foldl (fun t g => t.clockCancel g c) u))

/-- 12 R248, R249, R250: the loss of REF25 enters holdover, is counted and reported, and asks every running parcel to park; REF156 takes every tap link down; a port's PCIe reference takes that port down; the oscillator is reported and takes down the ports that select it; each loss is declared once; REF25 restored clears the loss and leaves holdover when no parcel
runs. PTM steps the wall timebase only forward, and only for an offset above 1 ms on the principal port's live link, otherwise it sets a slew toward the host of at most 200 ppm; the port's responder reports the timebase. -/
def Obligations.ReferencesAndPtm : Prop :=
  ∀ (s : State),
    (s.plate.ref25Lost = false → exec (.refLoss .ref25) s = .next (
      let t := ({ s with plate := { s.plate with ref25Lost := true, holdover := true, refCnt := bump s.plate.refCnt 0 1 } } : State).refEvent 0
      (List.range 4).foldl (fun s p => if (s.parcel p).running then s.askPark p .refLoss else s) t)) ∧
    (s.plate.ref25Lost = true → exec (.refLoss .ref25) s = .next s) ∧
    (s.plate.ref156Lost = false → exec (.refLoss .ref156) s = .next (
      (List.range 8).foldl (fun s t => s.tapDown t) (({ s with plate := { s.plate with ref156Lost := true, refCnt := bump s.plate.refCnt 1 1 } } : State).refEvent 1))) ∧
    (∀ p, p < 4 → (s.port p).refLost = false → exec (.refLoss (.pcie p)) s = .next (((({ s with plate := { s.plate with refCnt := bump s.plate.refCnt (2 + p) 1 } } : State).portDown p).modPort p
      (fun q => { q with refLost := true })).refEvent (2 + p))) ∧
    (s.plate.oscLost = false → (∀ p, p < 4 → (s.port p).refmode ≠ 1) → exec (.refLoss .oscillator) s = .next (({ s with plate := { s.plate with oscLost := true } } : State).refEvent 6)) ∧
    (s.plate.ref25Lost = true → s.plate.holdover = true → (∀ p, p < 4 → (s.parcel p).running = false) →
      exec (.refRestored .ref25) s = .next (({ s with plate := { s.plate with ref25Lost := false, holdover := false } } : State).eventAll 6)) ∧
    (∀ (p : Nat) (o : Int), s.raising.owner = some p → (s.port p).linkUp = true → 1000000 < o →
      exec (.ptmExchange o) s =
      .next (({ s with plate := { s.plate with wall := s.plate.wall + BitVec.ofInt 64 o, slewPpm := 0 } } : State).emit (.ptm p (s.plate.wall + BitVec.ofInt 64 o)))) ∧
    (∀ (p : Nat) (o : Int), s.raising.owner = some p → (s.port p).linkUp = true → o ≤ 1000000 →
      ∃ (ppm : Int), ppm.natAbs ≤ 200 ∧ (0 < o → 0 ≤ ppm) ∧ (o < 0 → ppm ≤ 0) ∧ (o = 0 → ppm = 0) ∧
        exec (.ptmExchange o) s = .next (({ s with plate := { s.plate with slewPpm := ppm }, freeCtr := s.freeCtr + 1 } : State).emit (.ptm p s.plate.wall))) ∧
    (s.raising.owner = none → ∀ o, exec (.ptmExchange o) s = .next s)

/-- 13 R264, R266, R269, 23 R484, R488: HV_EN asserted, not within a hold, with the input in range and PWR_OK low brings up the bus and the plate-side rails, asserts PWR_OK, keeps the plate in reset, releases THERMTRIP_N and samples SB_ADDR; without input, or with HV_EN already asserted, no rail changes. Within 1 s of its deassertion
the assertion waits for the end of that hold, which then takes effect. -/
def Obligations.HvEnBringsThePlateUp : Prop :=
  ∀ (s : State),
    let up := fun (u : State) => ({ u with plate := { u.plate with bus := true, plateRails := true, plateReset := true },
                                           pins := { u.pins with pwrOk := true, hvEnWait := false, therm := none, sbAddr := u.pins.sbStrap } } : State)
    (s.pins.hvEn = false → s.pins.hvOffNs = none → s.inputOk = true → s.pins.pwrOk = false →
      exec .hvEnAssert s = .next (up { s with pins := { s.pins with hvEn := true, hvEnWait := false } })) ∧
    (s.pins.hvEn = false → s.pins.hvOffNs = none → s.inputOk = false → exec .hvEnAssert s = .next { s with pins := { s.pins with hvEn := true, hvEnWait := false } }) ∧
    (∀ t, s.pins.hvEn = false → s.pins.hvOffNs = some t → s.tNs < t + 1000000000 → exec .hvEnAssert s = .next { s with pins := { s.pins with hvEn := true, hvEnWait := true } }) ∧
    (s.pins.hvEn = true → exec .hvEnAssert s = .next s) ∧
    (∀ t, s.pins.hvOffNs = some t → s.pins.hvEn = true → s.pins.hvEnWait = true → s.inputOk = true → s.pins.pwrOk = false →
      exec .hvEnHoldEnd s = .next (up { s with pins := { s.pins with hvOffNs := none, therm := none, hvEnWait := false } })) ∧
    (s.pins.hvOffNs = none → exec .hvEnHoldEnd s = .next s)

/-- 13 R269, 17 R368, 21 R446, 23 R484, R485, R486: HV_EN deasserted, a collapse of a live bus, the end of the ride-through, THERMTRIP_N and a MOD_RESET_N of 10 us or more lose every bay, parcel, field, seam, cask, port, tap, the raising engine, the trellis, the log's ring and the
seal's volatile state, and keep what the module record flash holds; MOD_RESET_N below 1 us is ignored and keeps the rails when it acts; THERMTRIP_N records its source. -/
def Obligations.LogicSideStateIsLost : Prop :=
  ∀ (s t : State), ((exec .hvEnDeassert s = .next t ∧ s.pins.hvEn = true) ∨ (exec .busCollapse s = .next t ∧ s.plate.bus = true) ∨
      (exec .rideThroughEnd s = .next t ∧ s.plate.inputLoss.isSome = true ∧ s.plate.returned = false) ∨
      (∃ src, exec (.thermtripN src) s = .next t) ∨ (∃ w, 10000 ≤ w ∧ exec (.modResetN w) s = .next t ∧ s.pins.pwrOk = true)) →
    t.bays = [] ∧ t.parcels = [] ∧ t.fields = [] ∧ t.seams = [] ∧ t.hops = [] ∧ t.casks = [] ∧ t.ports = [] ∧ t.taps = [] ∧ t.waits = [] ∧ t.baySus = [] ∧
    t.raising = Raising.init ∧ t.trellis = Trellis.init ∧ t.prt = Prt.init ∧ t.gw = Gateway.init ∧ t.flog.ring = [] ∧ t.flog.recs = s.flog.recs ∧ t.flog.esc = s.flog.esc ∧
    t.sealU.keys = [] ∧ t.sealU.licence = none ∧ t.sealU.nonce = none ∧ t.sealU.scope = 0 ∧ t.sealU.keysFlash = s.sealU.keysFlash ∧ t.sealU.licFlash = s.sealU.licFlash ∧
    t.sealU.fwFloor = s.sealU.fwFloor ∧ t.sealU.pkgFloor = s.sealU.pkgFloor ∧ t.sealU.debugCounter = s.sealU.debugCounter ∧ t.sealU.storeEpoch = s.sealU.storeEpoch ∧
    t.plate.wall = 0#64 ∧ t.plate.plateReset = true ∧ t.pending = s.pending ∧ t.tNs = s.tNs

/-- 13 R264, R266, R267, R269, 16 R329, 23 R484 to R486: each of these commands completes: deasserting HV_EN, a collapse, the ride-through's end and THERMTRIP_N leave PWR_OK and every rail down (THERMTRIP_N leaves its latch set and its source recorded); a MOD_RESET_N that acts keeps PWR_OK and the plate-side rails; a short one changes nothing;
the plate leaves reset only with PWR_OK high and MOD_RESET_N high, with the wall timebase and the master epoch at 0 and the SYNC strobe issued. -/
def Obligations.ResetsAndTheirEnds : Prop :=
  ∀ (s : State),
    (s.pins.hvEn = true → ∃ t, exec .hvEnDeassert s = .next t ∧ t.pins.hvEn = false ∧ t.pins.pwrOk = false ∧ t.plate.bus = false ∧ t.plate.plateRails = false ∧ t.pins.hvOffNs = some s.tNs) ∧
    (s.pins.hvEn = false → exec .hvEnDeassert s = .next s) ∧
    (s.plate.bus = true → ∃ t, exec .busCollapse s = .next t ∧ t.pins.pwrOk = false ∧ t.plate.bus = false ∧ t.pins.hvEn = s.pins.hvEn) ∧
    (s.plate.inputLoss.isSome = true → s.plate.returned = false → ∃ t, exec .rideThroughEnd s = .next t ∧ t.pins.pwrOk = false ∧ t.plate.bus = false) ∧
    (s.plate.returned = true → exec .rideThroughEnd s = .next s) ∧
    (∃ t, exec (.thermtripN .external) s = .next t ∧ t.pins.therm = some .external ∧ t.pins.tripRec = s.pins.tripRec ++ [.external] ∧ t.pins.pwrOk = false ∧ t.out = s.out ++ [.thermtrip]) ∧
    (∀ w, 10000 ≤ w → s.pins.pwrOk = true → ∃ t, exec (.modResetN w) s = .next t ∧ t.pins.pwrOk = true ∧ t.plate.bus = s.plate.bus ∧ t.plate.plateRails = s.plate.plateRails ∧ t.pins.alert = false ∧
      t.pins.eidI3c = s.pins.eidI3c) ∧
    (∀ w, w < 1000 → exec (.modResetN w) s = .next s) ∧
    (s.pins.pwrOk = true → s.plate.plateReset = true → s.pins.modResetLow = false → exec .plateResetExit s =
      .next { s with plate := { s.plate with plateReset := false, holdover := s.plate.ref25Lost, sync := true, master := 0, wall := 0#64 } }) ∧
    ((s.pins.pwrOk = false ∨ s.plate.plateReset = false) → exec .plateResetExit s = .next s)

/-- 13 R264, R265, R266, 14 R297: a first input loss records its moment and, with the Cellarmaster up, is logged and asks every running parcel to park; INPUT_RETURNED and then INPUT_RESTORED clear it; a converter that stops is logged while another works and powers the module down when it was the last; insulation below 1 Mohm is recorded and
logged with its pole. -/
def Obligations.InputLossAndConverters : Prop :=
  ∀ (s : State),
    (∀ (q : Bool), s.plate.inputLoss = none → s.plate.cmstRunning = false → exec (.inputLoss q) s =
      .next { s with plate := { s.plate with inputLoss := some s.tNs, returned := false, disconnect := s.plate.disconnect || q } }) ∧
    (∀ (q : Bool), s.plate.inputLoss = none → s.plate.cmstRunning = true → (∀ p, p < 4 → (s.parcel p).running = false ∧ (s.parcel p).st ≠ .idle) →
      ∃ t, exec (.inputLoss q) s = .next t ∧ t.plate.inputLoss = some s.tNs ∧ t.plate.returned = false ∧ t.flog.next = s.flog.next + 1) ∧
    (s.plate.inputLoss.isSome = true → exec .inputReturned s = .next { s with plate := { s.plate with returned := true } }) ∧
    (s.plate.inputLoss = none → exec .inputReturned s = .next s) ∧
    (s.plate.inputLoss.isSome = true → s.plate.returned = true → s.plate.cmstRunning = false → s.pins.hvEn = false →
      exec .inputRestored s = .next { s with plate := { s.plate with inputLoss := none, returned := true, disconnect := false } }) ∧
    (∀ k, k < 4 → s.plate.conv.getLsbD k = true → s.plate.conv ≠ BitVec.ofNat 4 (2 ^ k) → s.plate.cmstRunning = true →
      exec (.converterDegraded k) s = .next (({ s with plate := { s.plate with conv := s.plate.conv &&& ~~~(BitVec.ofNat 4 (2 ^ k)) } } : State).report
        { code := 0x0603, parcel := none, unit := 0x0B, x := 0, y := 0, idx := k })) ∧
    (∀ k, k < 4 → s.plate.conv = BitVec.ofNat 4 (2 ^ k) → ∃ t, exec (.converterDegraded k) s = .next t ∧ t.plate.conv = 0#4 ∧ t.plate.bus = false ∧ t.pins.pwrOk = false) ∧
    (∀ a b : Nat, 1000 ≤ min a b → exec (.insulationCheck a b) s = .next { s with plate := { s.plate with insulation := min a b } }) ∧
    (∀ a b : Nat, min a b < 1000 → s.plate.cmstRunning = true → exec (.insulationCheck a b) s =
      .next (({ s with plate := { s.plate with insulation := min a b } } : State).report { code := 0x0605, unit := 0x0B, idx := if a < 1000 then 0 else 1 }))

/-- 13 R270, R271, R273, R274, R275: on a powered field a first failed phase or a first trim slice is recorded and logged as masked; a lateral failure caps the field at 280 A; a vertical one sets no cap; the comparisons of the bump groups are averaged over 100 ms, and a group whose excess is above 25 % then caps the field at 490 A, one above 60 % or without current at 350 A; a bay's struts inject when its voltage lies 15 mV below VBENT and recharge in 200 ns; a slice that has failed fails no more; a bay, bent or slice the die lacks is refused. -/
def Obligations.FieldSupplyDegrades : Prop :=
  ∀ (s : State) (f : Nat), f < 10 → (s.field f).supply.vfab = true → Sparse.wf Field.init s.fields = true → s.plate.cmstRunning = true →
    let log := fun (t : State) (k idx : Nat) (masked : Bool) => t.report { code := 0x0600 + k, parcel := t.parcelOfField f, unit := 0x0A, x := f, y := 0, idx := idx, masked := masked }
    (∀ k, k < 24 → (s.field f).supply.badPhases = [] → exec (.phaseDegraded f k) s = .next (log (s.modField f (fun x => { x with supply := { x.supply with badPhases := [k] } })) 6 k true)) ∧
    ((s.field f).supply.latFailed = false → (s.field f).supply.verFailed = false → ∃ t, exec (.fallbackActive f) s = .next t ∧ (t.field f).supply.latFailed = true ∧
      (t.field f).supply.capA = min (s.field f).supply.capA 280 ∧ t.flog.next = s.flog.next + 1) ∧
    ((s.field f).supply.verFailed = false → (s.field f).supply.latFailed = false → s.plate.bus = true → ∃ t, exec (.verticalDegraded f) s = .next t ∧ (t.field f).supply.verFailed = true ∧
      (t.field f).supply.capA = (s.field f).supply.capA) ∧
    (∀ b sl, b < 12 → sl < 14 → (s.bent f b).slices = [] → exec (.trimDegraded f b sl) s = .next (log (s.modBent f b (fun t => { t with slices := [sl] })) 8 b true)) ∧
    (∀ b sl, b < 12 → sl < 14 → sl ∈ (s.bent f b).slices → exec (.trimDegraded f b sl) s = .next s) ∧
    (let since := (s.field f).supply.crackNs.getD s.tNs
     let taken := fun (drops currents : List (Nat × Nat)) => s.modField f (fun x => { x with supply := { x.supply with
       crackNs := some since
       crack := (drops.filter (fun e => decide (e.1 < 48))).foldl (fun m e =>
         let o := Sparse.get (0, 0, 0) m e.1
         let ma := Sparse.get 0 currents e.1
         Sparse.set (0, 0, 0) m e.1 (o.1 + crackExcess (x.supply.models.getD e.1 0) e.2 ma, o.2.1 + 1, o.2.2 + ma)) x.supply.crack } })
     (∀ (drops currents : List (Nat × Nat)), s.tNs + 10000 < since + 100000000 → exec (.crackCheck f drops currents) s = .next (taken drops currents)) ∧
     (∀ (g : Nat) (sum : Int) (n ma : Nat), since + 100000000 ≤ s.tNs + 10000 → (s.field f).supply.crack = [(g, sum, n, ma)] →
       let over_ := (taken [] []).modField f (fun x => { x with supply := { x.supply with crackNs := none, crack := [] } })
       (ma ≠ 0 → 250000 * (n : Int) < sum → sum ≤ 600000 * (n : Int) → g ∉ (s.field f).supply.suspectGroups → exec (.crackCheck f [] []) s =
         .next (log (over_.modField f (fun x => { x with supply := { x.supply with capA := min x.supply.capA 490, suspectGroups := x.supply.suspectGroups ++ [g] } })) 10 g false)) ∧
       ((ma = 0 ∨ 600000 * (n : Int) < sum) → g ∉ (s.field f).supply.openGroups → exec (.crackCheck f [] []) s =
         .next (log (over_.modField f (fun x => { x with supply := { x.supply with capA := min x.supply.capA 350, openGroups := x.supply.openGroups ++ [g],
                                                                                     suspectGroups := x.supply.suspectGroups ++ [g] } })) 10 g false)) ∧
       (ma ≠ 0 → sum ≤ 250000 * (n : Int) → exec (.crackCheck f [] []) s = .next over_))) ∧
    (∀ (b : BayId) (mv : Nat), b.ok = true → fieldOf b = f →
      (s.vbent f (bentOf b) < mv + 15 → exec (.strutInject { b := b, localMv := mv }) s = .next s) ∧
      (mv + 15 ≤ s.vbent f (bentOf b) → ∃ left, left ≤ s.strutMv b ∧ (900 ≤ s.strutMv b → 900 ≤ left) ∧ exec (.strutInject { b := b, localMv := mv }) s =
        .next ((({ s with freeCtr := s.freeCtr + 1 } : State).modField f (fun x => { x with supply := { x.supply with
          strutLow := Sparse.set (0, 0) x.supply.strutLow (bayIx b) (left, s.tNs + 200) } })).emit (.strut b)))) ∧
    (∀ b sl, (12 ≤ b ∨ 14 ≤ sl) → exec (.trimDegraded f b sl) s = .refused .noSuchUnit)

/-- 13 R271, R273, R276, R278: a short, the loss of both supply paths and a second failed slice cut the field off: it completes with the field's unpowered VFAB, its hub dark, the fault logged and the escalation state naming it; PLATE_LATH_LOST acts only while the hubs of F0 and F5 are dark and the Cellarmaster runs. -/
def Obligations.FieldsGoDark : Prop :=
  ∀ (s : State) (f : Nat), f < 10 → (s.field f).supply.vfab = true → Sparse.wf Field.init s.fields = true →
    ((s.field f).supply.shorted = false → ∃ t, exec (.fieldShort f) s = .next t ∧ (t.field f).hub = false ∧ (t.field f).supply.vfab = false ∧ f ∈ t.flog.esc.shorted) ∧
    ((s.field f).supply.lost = false → ∃ t, exec (.fieldSupplyLost f) s = .next t ∧ (t.field f).hub = false ∧ (t.field f).supply.vfab = false ∧ f ∈ t.flog.esc.shorted) ∧
    (∀ b sl, b < 12 → sl < 14 → (s.bent f b).retired = false → (s.bent f b).slices ≠ [] → sl ∉ (s.bent f b).slices → ∃ t, exec (.bentRetired f b sl) s = .next t ∧ (t.field f).hub = false ∧ (t.field f).supply.vfab = false ∧ 12 * f + b ∈ t.flog.esc.bents) ∧
    ((s.field f).supply.shorted = true → exec (.fieldShort f) s = .next s) ∧
    ((s.field 0).hub = true → exec .plateLathLost s = .next s) ∧
    ((s.field 0).hub = false → (s.field 5).hub = false → s.plate.cmstRunning = true → (∀ p, p < 4 → (s.parcel p).running = false) → (∀ g, g < 10 → (s.field g).st ≠ .raised) →
      exec .plateLathLost s = .next s)

/-- 23 R482, R487, R488, 12 R254, 17 R350, R351, R353, 08 R166, 15 R324, R328, 21 R456: the sideband takes its first dynamic address and a legal endpoint ID while it is up; a port's link that trains at a legal speed and width is up; D3hot stops a live port; a cage's presence is recorded; an outstanding REG exchange is retried; the
summary is written at most once a minute; IDCODE and BYPASS always answer, a scan only under its scope; nothing is injected while PRT_STRETCH is off. -/
def Obligations.ModulePinsAndLinks : Prop :=
  ∀ (s : State),
    (∀ (a : BitVec 7) (e : Bool), s.pins.pwrOk = true → s.plate.plateReset = false → exec (.setdasa a e) s =
      .next (if s.pins.i3cDyn = none then { s with pins := { s.pins with i3cDyn := some a } } else s)) ∧
    (∀ (e : BitVec 8), s.pins.pwrOk = true → s.plate.plateReset = false → e ≠ 0#8 → e ≠ 0xFF#8 →
      exec (.setEndpointId .i3c e) s = .next (({ s with pins := { s.pins with eidI3c := e } } : State).emit (.mctpReply .i3c [0#8, 0#8, e, 0#8])) ∧
      exec (.setEndpointId .smbus e) s = .next (({ s with pins := { s.pins with eidSmb := e } } : State).emit (.mctpReply .smbus [0#8, 0#8, e, 0#8]))) ∧
    (∀ (p : Nat) (sp w : BitVec 4) (r : Bool), p < 4 → s.plate.plateReset = false → 1 ≤ sp.toNat → sp.toNat ≤ 6 → (w = 1#4 ∨ w = 2#4 ∨ w = 4#4 ∨ w = 8#4) → (s.port p).perst = true →
      exec (.linkUp p sp w r) s = .next ((s.modPort p (fun q => { q with linkUp := true, perst := false, refLost := false, speed := sp.toNat, width := w.toNat, refmode := s.refChoice r })).flushVectors p)) ∧
    (∀ (p : Nat), p < 4 → (s.port p).linkUp = true → exec (.d3hot p true) s = .next (s.modPort p (fun q => { q with d3hot := true }))) ∧
    (∀ (p : Nat), p < 4 → (s.port p).linkUp = true → (s.port p).d3hot = true → exec (.d3hot p false) s =
      .next (((s.port p).held.foldl (fun (u : State) o => u.emit o) (s.modPort p (fun q => { q with d3hot := false, held := [] }))).flushVectors p)) ∧
    (∀ (t : Nat) (a b c : Bool), t < 8 → s.plate.plateReset = false → (a = false ∨ b = true ∨ c = true) →
      exec (.pluggablePresence t a b c) s = .next (s.modTap t (fun x => { x with present := a, copper := b, identified := c }))) ∧
    (∀ (n : LathNode) (m : LathMsg), lathNodeOk n = true → s.plate.regOut.find? (fun e => decide (e.1 = n)) = some (n, m) → exec (.regExchangeRetry n) s = .next (s.emit (.lathNode n m))) ∧
    (s.plate.cmstRunning = true → s.plate.cmstFailed = false → (∀ t, s.flog.lastWrite = some t → t + 60000000000 ≤ s.plate.wall.toNat) →
      exec .summaryWrite s = .next { s with flog := s.flog.writeSummary s.plate.wall.toNat }) ∧
    (∀ t, s.flog.lastWrite = some t → s.plate.wall.toNat < t + 60000000000 → exec .summaryWrite s = .next s) ∧
    (∀ (op : JtagOp), s.plate.plateRails = true → (op = .idcode ∨ op = .bypass ∨ (s.sealU.scope ≠ 0 ∧ (op = .extest ∨ op = .samplePreload)) ∨ 2 ≤ s.sealU.scope) →
      exec (.jtagInstruction op) s = .next (s.emit (.jtag op))) ∧
    (s.plate.plateRails = true → s.sealU.scope = 0 → exec (.jtagInstruction .internalScan) s = .next s ∧ exec (.jtagInstruction .extest) s = .next s) ∧
    (∀ (f : Nat), s.prtFor s.prt.parcel = true → s.prt.stretch.getLsbD 31 = true → 16 ≤ fieldBits s.prt.stretch 19 0 → fieldBits s.prt.stretch 23 20 = 0 → fieldBits s.prt.stretch 27 24 = f →
      (s.parcel s.prt.parcel).holds f = true → (s.field f).supply.vfab = true → s.stretchHeld f = false →
      exec .stretchInjection s = .next ((s.modField f (fun x => { x with island := { x.island with st := x.island.st + 1#4 } })).emit (.stretch f))) ∧
    (s.prt.stretch.getLsbD 31 = false → exec .stretchInjection s = .next s)

/-- 17 R356, R357, R363, R367, 18 R373 to R375, R401, R402 (the sender checks 1 and 4 to 6): a request that names no port or slot is refused; one given while its slot is device-owned is dropped and counted; one with earlier writes or requests before it waits; one that passes its checks takes effect and is answered at once or later; the others are answered with the
first check that fails and change nothing but the slot. -/
def Obligations.RequestsAreCheckedAndAnswered : Prop :=
  ∀ (s : State) (rq : Requester) (m : MsgInfo) (p : Nat) (h : Handler) (i : Instr),
    let t := s.received rq
    let away := fun (c : Nat) => s.withAnswer t rq m.code p (Ans.err c)
    (requesterOk rq = false → s.request rq m p h i = .refused .noSuchUnit) ∧
    (∀ k n g, rq = .slot k n g → k < 4 → n < 64 → s.portLive k = true → s.writeHeld k = false → (s.raising.done = false ∨ (s.port k).own.getLsbD n = true) →
      s.request rq m p h i = .next (s.modPort k (fun q => { q with dropped := q.dropped.add 1, err := q.err ||| 0x10#5 }))) ∧
    (∀ k n g, rq = .slot k n g → k < 4 → n < 64 → s.hears rq = true → s.writeHeld k = false → s.raising.done = true → s.mustQueue (some k) (s.reqKeys rq m p) (msgNow m.code) = true →
      s.request rq m p h i = .next (t.holdReq (some k) (some n) (s.reqKeys rq m p) (msgNow m.code) i)) ∧
    (s.takes rq = true →
      (isSideband rq = true → m.side = false → s.request rq m p h i = away 0x0002) ∧
      (isSideband rq = false → m.sideOnly = true → s.request rq m p h i = away 0x0002) ∧
      (isSideband rq = false → m.sideOnly = false → (p < 4 ∨ p = 0xFF) →
        (m.parcel = true → (4 ≤ p ∨ (s.parcel p).live = false) → s.request rq m p h i = away 0x0004) ∧
        ((m.parcel = true → p < 4 ∧ (s.parcel p).live = true) →
          (m.scope = .principal → s.fromPrincipal rq = false → s.request rq m p h i = away 0x0E01) ∧
          (m.scope = .owner → (requesterPort rq).any (fun k => decide ((s.parcel p).owner = k)) = false → s.request rq m p h i = away 0x0E02) ∧
          (t.inScope rq m p = 0 → (∃ k, m.feature = some k ∧ s.hasFeature k = false) → s.request rq m p h i = away 0x0003) ∧
          (t.inScope rq m p = 0 → (∀ k, m.feature = some k → s.hasFeature k = true) →
            s.request rq m p h i = match (h t).2 with
              | some a => s.withAnswer (h t).1 rq m.code p a
              | none => .next (h t).1))))

/-- 17 R364 to R366, 18 R376 to R381: the sys, parcel and image messages complete with their effect: information and status are returned; the principal role moves under a fresh nonce and a valid signature (the nonce is used up); a parcel is created of a free rectangle, deleted, given to another owner (its BAR2 pages cleared),
asked to park, resumed; an image that every stage of its validation accepts is loaded, any other is answered with what that stage found and changes nothing; an image is unloaded. -/
def Obligations.SysParcelAndImageMessages : Prop :=
  ∀ (s : State) (rq : Requester) (p : Nat),
    let t := s.received rq
    (s.takes rq = true → exec (.sysInfo rq) s = s.ok t rq 0x0101 0xFF t.infoBytes) ∧
    (∀ (np : Nat) (nonce : Bytes) (id r g : Nat), s.takes rq = true → isSideband rq = true → (∃ at_, s.sealU.nonce = some ((nonce ++ zeroBytes 48).take 48, at_) ∧ s.tNs < at_ + 60000000000) →
      s.sealU.halted = false → np < 4 → (s.port np).linkUp = true →
      ∀ k, s.sealU.keys.find? (fun k => decide (k.id = id) && decide (k.use_ / 2 % 2 = 1)) = some k →
        exec (.sysPrincipalMove rq np nonce id r g) s =
          let u : State := { s with sealU := { s.sealU with nonce := none } }
          if ecdsaVerify (bytesPoint k.pub) (sha384 (moveBody np nonce id)) r g then s.ok (u.movePrincipal np) rq 0x0102 0xFF [] else s.withAnswer u rq 0x0102 0xFF (Ans.err 0x0101)) ∧
    (∀ (o c0 r0 w h : Nat) (taps : BitVec 8) (fnd : List FieldFindings), s.fromPrincipal rq = true → p < 4 → o < 4 → t.createRefusal p c0 r0 w h taps = 0 →
      let u := ((t.setParcel p { Parcel.init with owner := o, c0 := c0, r0 := r0, w := w, h := h, taps := taps }).setPState p .resuming).bringUpAll (rectFields c0 r0 w h) fnd
      u.firstDown (rectFields c0 r0 w h) = none → exec (.parcelCreate rq p o c0 r0 w h taps fnd) s = s.ok (u.setPState p .idle) rq 0x0201 p []) ∧
    (s.fromPrincipal rq = true → p < 4 → (s.parcel p).live = true → (s.parcel p).busy = false → (s.parcel p).pour.serving = false →
      ∃ u : State, exec (.parcelDelete rq p) s = s.ok (u.setParcel p Parcel.init) rq 0x0202 p []) ∧
    (∀ o, s.fromPrincipal rq = true → p < 4 → (s.parcel p).live = true → o < 4 →
      exec (.parcelAssign rq p o) s = s.ok ((t.dropPages p).modParcel p (fun q => { q with owner := o })) rq 0x0203 p []) ∧
    (s.fromEither rq p = true → ((s.parcel p).st = .idle ∨ (s.parcel p).st = .running) → exec (.parcelPark rq p) s = .next ((t.await rq 0x0204 p .parked).askPark p .host)) ∧
    (∀ fnd, s.fromEither rq p = true → (s.parcel p).st = .parked → t.stillHot p = false → t.raisedCount + (s.parcel p).fields.length ≤ s.licFields →
      exec (.parcelResume rq p fnd) s = s.withAnswer (t.resumeParcel p fnd).1 rq 0x0205 p { status := (t.resumeParcel p fnd).2 }) ∧
    (s.fromEither rq p = true → exec (.parcelStatus rq p) s = s.ok t rq 0x0206 p (t.parcelBytes p)) ∧
    (∀ (n : Nat) (bs : Bytes), s.fromOwner rq p = true → (s.parcel p).busy = false → (s.parcel p).pour.serving = false → exec (.imageLoad rq p n bs []) s = match t.loadRefusal p bs n with
      | none => s.ok (t.installImage p (imgBytes bs n)) rq 0x0301 p (digestBytes (imgDigest (imgBytes bs n)))
      | some a => s.withAnswer t rq 0x0301 p a) ∧
    (s.fromOwner rq p = true → (s.parcel p).busy = false → (s.parcel p).pour.serving = false → (s.parcel p).image.isSome = true →
      exec (.imageUnload rq p) s = s.ok ((s.parcel p).casks.foldl (fun u c => u.modCask c (fun k => { k with regions := [], windows := [], period := 0 }))
        ((t.clearResident p).modParcel p (fun q => { q with image := none, awaits := [], tr := { q.tr with learned := [], hint := none } }))) rq 0x0302 p []) ∧
    (s.fromOwner rq p = true → (s.parcel p).image.isSome = true → (t.parcelRegions p).length ≤ 165 →
      exec (.imageInfo rq p none) s = s.ok t rq 0x0303 p (imageDigestBytes (s.parcel p) ++ natLe 4 (t.parcelRegions p).length ++ (t.parcelRegions p).flatMap (t.regionEntry p))) ∧
    (∀ e, s.fromOwner rq p = true → (s.parcel p).image.isSome = true → ∃ u a, exec (.imageInfo rq p (some e)) s = s.withAnswer u rq 0x0303 p a)

/-- 05 R103, 06 R106, 09 R193, R197 to R199, 17 R354, R355, R362, 18 R382: the owner maps and clears BAR2 pages, moves data by a cut list's entries in order, closes a WEIGHT region, whose digest is the SHA-384 of its bytes and is void after a write; a stave is marked failing and
spared by the reserve in a REST frame; a transfer whose cask is closed to the gateway waits; a ledger above 4,096 forces refresh, counted, and is reported once until it is back at 0; the scrubbers count what they find. -/
def Obligations.CaskMessagesAndEvents : Prop :=
  ∀ (s : State) (rq : Requester) (p : Nat),
    let t := s.received rq
    let own := (s.parcel p).owner
    (∀ page rc gib, s.fromOwner rq p = true → page ≤ 255 → gib ≤ 127 → ((s.parcel p).absCask rc).isSome = true →
      exec (.caskWindowSet rq p page rc gib) s = s.ok (t.modPort own (fun q => { q with win := Sparse.set 0#32 q.win page (winWord p rc gib) })) rq 0x0401 p []) ∧
    (∀ page, s.fromPort rq = true → page ≤ 255 → (p = 0xFF ∨ (p < 4 ∧ (s.parcel p).live = true)) →
      exec (.caskWindowClear rq p page) s = s.ok (t.modPort ((requesterPort rq).getD 0) (fun q => { q with win := clearWin p page q.win })) rq 0x0402 p []) ∧
    (∀ e, s.fromOwner rq p = true → e.kind = 1#8 → t.entryHeld p e = true →
      exec (.caskTransfer rq p [e]) s = .next (t.await rq 0x0403 p (.transfer 0 0xFFFF [e]))) ∧
    (∀ e, s.fromOwner rq p = true → e.kind = 1#8 → t.entryHeld p e = false →
      let y := t.segIn p e
      exec (.caskTransfer rq p [e]) s = s.withAnswer (y.1.emitPort own (.dmaWrite own (e.addr + 32) (writeBack y.2.1 y.2.2))) rq 0x0403 p
        { status := if e.eflag.getLsbD 0 then 0 else y.2.1, cutDone := 1, cutFail := if y.2.1 = 0 then 0xFFFF else 0 }) ∧
    (∀ rc base c r, s.fromOwner rq p = true → (s.parcel p).absCask rc = some c → (s.cask c).weightAt base = some r →
      exec (.caskRegionClose rq p rc base) s = .next ((t.closeRegion c r).await rq 0x0404 p (.digest c base))) ∧
    (∀ c base r, c < 20 → (s.cask c).weightAt base = some r → r.closing = true → s.waits = [] →
      let r' := if r.written then { r with closing := false, written := false, digestValid := false } else { r with closing := false, digest := sha384Val ((s.cask c).regionBytes r).1, digestValid := true }
      exec (.regionDigestDone c base) s = .next (s.modCask c (fun k => { k with regions := setRegion k.regions r' }))) ∧
    (∀ c st, s.fromPrincipal rq = true → c < 20 → st < 17 → ((t.staveFails c st).cask c).copying = some st →
      exec (.caskStaveFail rq c st) s = s.ok (t.staveFails c st) rq 0x0405 0xFF []) ∧
    (∀ c, s.fromEither rq p = true → (s.parcel p).casks.contains c = true → exec (.caskStatus rq p c) s = s.ok t rq 0x0406 p (s.cask c).statusBytes) ∧
    (∀ c, s.fromPrincipal rq = true → c < 20 → exec (.caskStatus rq 0xFF c) s = s.ok t rq 0x0406 0xFF (s.cask c).statusBytes) ∧
    (∀ c st why, c < 20 → st < 17 → exec (.staveFailing c st why) s = .next (
        let old := (s.cask c).failing.contains st
        let u := if old then s else (s.modCask c (fun x => { x with failing := x.failing ++ [st] })).modEsc (fun e => { e with staves := e.staves ++ [(c, st)] })
        if (s.cask c).canCopy st then u.modCask c (fun x => { x with copying := some st })
        else if old then s
        else u.report { code := 0x0409, parcel := u.parcelOfCask c, unit := 0x05, idx := c, stave := some st })) ∧
    (∀ c, c < 20 → s.restNow c = false → exec (.staveSpared c) s = .next s) ∧
    (∀ c st, c < 20 → s.restNow c = true → (s.cask c).copying = some st → exec (.staveSpared c) s =
      .next ((s.modCask c (fun x => { x with copying := none, reserve := none, failing := x.failing.filter (fun y => y ≠ st) })).caskCount c ckSpared 1)) ∧
    (∀ c (n : Nat) (late : Bool), c < 20 →
      let k := s.cask c
      let u := (s.modCask c (fun k => { k with forced := true, delays := late })).caskCount c ckForced n
      let at_ := (u.islandCount (c / 2)).toNat
      ((s.fieldRuns (c / 2) = false ∨ (k.forced = false ∧ k.ledger ≤ 4096)) → exec (.restStarved c n late) s = .next s) ∧
      (s.fieldRuns (c / 2) = true → k.forced = true → exec (.restStarved c n late) s = .next u) ∧
      (s.fieldRuns (c / 2) = true → k.forced = false → 4096 < k.ledger → exec (.restStarved c n late) s = .next (u.report
        { code := 0x0404, parcel := u.parcelOfCask c, count := at_, unit := 0x05, idx := c, cask := some c, detail := [(1, c), (4, k.ledger), (8, at_)] }))) ∧
    (∀ b ce ue, b.ok = true → (s.field (fieldOf b)).supply.vfab = true → s.fieldRuns (fieldOf b) = false →
      exec (.vatRetentionScrub b ce ue) s = .next (s.modBay b (fun x => x.retentionScrub ce ue)) ∧
      ∀ n k, exec (.planScrub b n k) s = .next s) ∧
    (∀ c off, c < 20 → off < 32 * chanSpan → (s.cask c).rails = true → s.restNow c = true →
      exec (.patrolScrub c off .beatCorrected) s = .next (s.caskCount c ckBeatCe 1) ∧
      exec (.patrolScrub c off (.uncorrectable none)) s = .next (s.caskCount c ckSymUe 1) ∧
      ∀ st, exec (.patrolScrub c off (.symbolCorrected st)) s = .next ((s.symbolCorrected c st).caskCount c ckScrubFixed 1))

/-- 11 R238 to R241, 18 R384 to R392: a run starts under the image's digest with the next serial (a wait for its first count, or WAITING 1 where the trellis has parked the parcel); an aborted one that is at rest ends as ABORTED; a signed record, a vintage draw, an export, a restore and the slots' states are answered. -/
def Obligations.RunAndVintageMessages : Prop :=
  ∀ (s : State) (rq : Requester) (p : Nat), s.fromOwner rq p = true →
    let t := s.received rq
    (∀ key m, (s.parcel p).image = some m → (s.parcel p).busy = false → (s.parcel p).pour.serving = false →
      ((s.parcel p).st = .idle → exec (.runStart rq p key m.digest) s =
        .next ((t.modParcel p (fun q => { q with serial := q.serial + 1, inv := some (Inv.new q.serial key false) })).await rq 0x0601 p (.runStart (s.parcel p).serial))) ∧
      ((s.parcel p).st = .parked → (s.parcel p).parkedBy = some .trellis → exec (.runStart rq p key m.digest) s =
        s.ok (t.modParcel p (fun q => { q with serial := q.serial + 1, inv := some (Inv.new q.serial key true) })) rq 0x0601 p (natLe 8 (s.parcel p).serial ++ natLe 8 1))) ∧
    (∀ i, (s.parcel p).inv = some i → i.ofPour = false → exec (.runAbort rq p i.serial) s =
      s.ok (if i.atRest then (t.modInv p (fun i => { i with ledger := .aborted, abortReq := true })).endAndPark p 0x0607 0 else t.modInv p (fun i => { i with ledger := .aborted, abortReq := true })) rq 0x0602 p []) ∧
    (∀ n r, (s.parcel p).records.find? (fun r => decide (r.serial = n) && r.signed) = some r → exec (.runResult rq p n) s = s.ok t rq 0x0603 p r.bytes) ∧
    (∀ n, (s.parcel p).records.find? (fun r => decide (r.serial = n) && r.signed) = none → exec (.runResult rq p n) s = s.withAnswer t rq 0x0603 p (Ans.err 0x0605)) ∧
    ((s.parcel p).running = true → exec (.vintageDrawRequest rq p) s = .next ((t.await rq 0x0701 p (.vintage none)).modInv p (fun i => { i with vintageReq := true }))) ∧
    (exec (.vintageExport rq p 0#8 0 []) s = s.withAnswer t rq 0x0702 p (Ans.err 0x0E04)) ∧
    (∀ v cut, cut ≠ [] → cut.length ≤ 4096 → (s.parcel p).running = false → (s.parcel p).newest = some v → exec (.vintageExport rq p 0#8 0 cut) s =
      s.withAnswer (t.exportCut (some rq) cut (t.exportBytes p v)).1 rq 0x0702 p (t.exportCut (some rq) cut (t.exportBytes p v)).2) ∧
    ((s.parcel p).running = true → (s.parcel p).st ≠ .parked → ∀ cut, cut ≠ [] → cut.length ≤ 4096 → exec (.vintageExport rq p 0#8 0 cut) s =
      .next ((t.modInv p (fun i => { i with vintageReq := true })).await rq 0x0702 p (.exportEnd cut false))) ∧
    (∀ bs, (s.parcel p).busy = false → (s.parcel p).pour.serving = false → (s.parcel p).st = .idle → exec (.vintageRestore rq p bs) s = match (s.parcel p).image, t.importOf p bs with
      | some m, some i => if t.importRefusal p bs = 0 then s.ok (t.importRun p m i) rq 0x0703 p (natLe 8 (s.parcel p).serial) else s.withAnswer t rq 0x0703 p (Ans.err (t.importRefusal p bs))
      | _, _ => s.withAnswer t rq 0x0703 p (Ans.err (t.importRefusal p bs))) ∧
    exec (.vintageStatus rq p) s = s.ok t rq 0x0704 p (((s.parcel p).vint.getD 0 Vintage.none).statusBytes ++ ((s.parcel p).vint.getD 1 Vintage.none).statusBytes)

/-- 14 R285 to R295, R302, 15 R322 to R325, 18 R393 to R395: the principal sets the cap, a parcel's share and the energy controller's endpoint; that endpoint sets a lease; an accepted contract answers T_min; forecast, telemetry, log, summary and counters are returned; the log is cleared; a sounding on an idle target runs. -/
def Obligations.PowerSoundAndFaultMessages : Prop :=
  ∀ (s : State) (rq : Requester) (p : Nat),
    let t := s.received rq
    (∀ w (f : Word), s.fromPrincipal rq = true → f.toNat < 2 → (w = 0 ∨ (900 ≤ w ∧ w ≤ s.licPower)) →
      let u := t.modTrellis (fun x => { x with hostCap := some w, leaseCap := if f.getLsbD 0 = true ∧ x.lease.isNone = true then none else x.leaseCap })
      exec (.powerCapSet rq w f) s = s.ok u rq 0x0801 0xFF (natLe 4 u.effCap)) ∧
    (∀ w fl, s.fromPrincipal rq = true → p < 4 → (s.parcel p).live = true → 1 ≤ w → w ≤ 255 → fl ≤ 5000 →
      exec (.powerShareSet rq p w fl) s = s.ok (t.modTr p (fun x => { x with weight := w, floor := fl })) rq 0x0802 p []) ∧
    (∀ eid g c d e, rq = .sideband eid g → s.takes rq = true → s.trellis.sideEid = eid → eid ≠ 0 → s.capOk c = true → s.capOk e = true → 1 ≤ d → d ≤ 86400 →
      exec (.powerLeaseSet rq c d e) s = s.ok (t.modTrellis (fun x => { x with lease := some (c, s.tNs + d * 1000000000, e), leaseCap := some c })) rq 0x0803 0xFF []) ∧
    (∀ w r d, s.fromPrincipal rq = true → t.contractRefusal w r d = 0 →
      exec (.powerContractSet rq w r d) s = s.ok (t.newContract false w r d) rq 0x0804 0xFF (natLe 8 (t.tMin w r))) ∧
    (s.takes rq = true → exec (.powerForecast rq) s = s.ok t rq 0x0805 0xFF s.trellis.forecastBytes) ∧
    (s.takes rq = true → exec (.powerStatus rq) s = s.ok t rq 0x0806 0xFF t.telBytes) ∧
    (∀ e, s.fromPrincipal rq = true → e < 256 → exec (.powerSidebandSet rq e) s = s.ok (t.modTrellis (fun x => { x with sideEid := e })) rq 0x0807 0xFF []) ∧
    (∀ (f : SoundF) (fnd : SoundFinding) (g : SoundTarget), s.fromPrincipal rq = true → p < 4 → (s.parcel p).live = true → soundWell f = true → t.soundTarget p f = some g → t.soundHeld g = false →
      (∀ u, g ≠ .stress u) → t.destructiveOk f g = true → (t.targetParcel p g).any (fun k => (t.parcel k).running) = false →
      exec (.soundRun rq p f fnd) s = s.withAnswer (t.soundRun f fnd g) rq 0x0901 p (soundAns f.pass s.flog.next (t.soundRun f fnd g).flog.next)) ∧
    (∀ n k, s.takes rq = true → 1 ≤ k → k ≤ 62 →
      let es := (s.flog.ring.filter (fun e => decide (n ≤ e.seq) && t.seesEntry rq e)).take k
      let next := match es.getLast? with
        | some e => e.seq + 1
        | none => max n s.flog.next
      exec (.faultLog rq n k none) s = s.ok t rq 0x0A01 0xFF (logHead next s.flog.lost.word es.length ++ es.flatMap (fun e => e.bytes))) ∧
    (s.fromPort rq = true → exec (.faultSummary rq) s = s.ok t rq 0x0A02 0xFF (natLe 4 (s.flog.recs.take 125).length ++ zeroBytes 4 ++ (s.flog.recs.take 125).flatMap (fun r => r.bytes))) ∧
    (∀ (f : Word), s.fromPrincipal rq = true → f.toNat < 2 → exec (.faultLogClear rq f) s =
      s.ok { t with flog := { s.flog with ring := [], esc := if f.getLsbD 0 then Esc.init else s.flog.esc } } rq 0x0A03 0xFF []) ∧
    (∀ (u : BitVec 8) x y i bs, s.fromEither rq p = true → s.unitCounters p u.toNat x y i = some bs → exec (.faultCounters rq p u x y i) s = s.ok t rq 0x0A04 p bs)

/-- 18 R383, R396, R397, 19 R411, R412, R416, 20 R421, R422, R434, R435, R437, R440: a rack stream opens (READ_REQ, then CREDIT), is closed and reported; a tap is configured (its links go down, the answer waits unless the mode is off), keyed and reported; the Pour service starts with an empty page map, takes frames from host
memory, cancels, counts, returns labels, and stops at once while no step is in progress. -/
def Obligations.RackTapAndPourMessages : Prop :=
  ∀ (s : State) (rq : Requester) (p : Nat), s.fromOwner rq p = true →
    let t := s.received rq
    let q := s.parcel p
    (∀ (f : RackOpenF) tp u, tapOf f.tap = some (tp, u) → (f.key = 0xFF ∨ (f.key ≤ 15 ∧ (q.keyOf f.key).isSome = true)) → s.rack p f.stream = none → t.rackTapOk p tp u = true → t.rackRegionOk p f = true →
      let r : Rack :=
        { f := f, state := 1, session := BitVec.ofNat 64 t.fresh.1, landed := [], arrived := [], retry := [], credit := 0, sentCredit := 0, unsacked := []
          busy := false, retries := EvCnt.init, crcErrors := EvCnt.init }
      exec (.rackOpen rq p f) s = s.ok (((t.fresh.2.modParcel p (fun q => { q with racks := q.racks ++ [(f.stream, r)] })).sendReadReq r 0 (segCount f.len)).sendCredit p f.stream) rq 0x0501 p []) ∧
    (∀ n r, s.rack p n = some r →
      exec (.rackClose rq p n) s = s.ok (t.modParcel p (fun q => { q with racks := q.racks.filter (fun e => decide (e.1 ≠ n)) })) rq 0x0502 p (natLe 8 r.landedBytes ++ natLe 8 r.retries.word) ∧
      exec (.rackStatus rq p n) s = s.ok t rq 0x0503 p (natLe 1 r.state ++ zeroBytes 7 ++ natLe 8 r.landedBytes ++ natLe 8 r.retries.word ++ natLe 8 r.crcErrors.word)) ∧
    (∀ (f : TapConfigF), f.tap.toNat < 8 → q.taps.getLsbD f.tap.toNat = true → f.mode.toNat ≤ 3 → 1500 ≤ f.mtu → f.mtu ≤ 9216 →
      let u := (t.tapDown f.tap.toNat).modTap f.tap.toNat (fun x => { x with mode := f.mode.toNat, mtu := f.mtu, mac := f.mac, ipv6 := f.ipv6, ipv4 := f.ipv4, subs := [] })
      exec (.tapConfig rq p f) s = if f.mode = 0#8 then s.ok u rq 0x0B01 p [] else .next (u.await rq 0x0B01 p (.tapLink f.tap.toNat))) ∧
    (∀ k bs, k ≤ 15 → s.sealU.halted = false → exec (.tapKeySet rq p k bs) s =
      s.ok (t.modParcel p (fun q => { q with keys := (k, (bs ++ zeroBytes 32).take 32) :: q.keys.filter (fun e => decide (e.1 ≠ k)) })) rq 0x0B02 p []) ∧
    (∀ b tp u, tapOf b = some (tp, u) → q.taps.getLsbD tp = true → exec (.tapStatus rq p b) s =
      s.ok t rq 0x0B03 p (natLe 1 (b1 (s.subLink tp u).link) ++ natLe 1 (s.tap tp).mode ++ zeroBytes 6 ++ (s.subLink tp u).counterBytes 4)) ∧
    (s.hasFeature 0 = true →
      (∀ port n taps, q.pourRefusal n taps = 0 → exec (.pourStart rq p port n taps) s =
        s.ok ((t.modParcel p (fun q => { q with pour := { Pour.init with serving := true, udpPort := port, maxSeq := n, taps := taps, kept := q.pour.kept } })).clearMap p) rq 0x0C01 p []) ∧
      (q.pour.serving = true → exec (.pourStop rq p 0#8) s =
        .next (((t.await rq 0x0C02 p .pourStop).modParcel p (fun q => { q with pour := { q.pour with stopping := true } })).pourSettle p)) ∧
      (∀ bs, ∃ u a r, a + r = (splitFrames bs.length bs).length ∧ exec (.pourSubmit rq p bs) s = s.ok u rq 0x0C03 p (natLe 4 a ++ natLe 4 r)) ∧
      (∀ ids, ids ≠ [] → ids.length ≤ 500 → q.stepping = false → (∀ y, y ∈ q.pour.seqs → ids.contains y.id = false) → exec (.pourCancel rq p ids) s = s.ok t rq 0x0C04 p (natLe 4 0)) ∧
      (∀ y, q.pour.seqs.filter (fun z => [y.id].contains z.id) = [y] → q.stepping = false → exec (.pourCancel rq p [y.id]) s = s.ok ((t.pourEnd p y 3 none).pourSettle p) rq 0x0C04 p (natLe 4 1)) ∧
      exec (.pourStatus rq p) s = s.ok t rq 0x0C05 p (natLe 4 (q.pour.seqs.filter PourSeq.active).length ++ natLe 4 ((q.decl.map (fun d => q.pour.pagesFree d)).getD 0) ++
        natLe 8 q.pour.steps ++ natLe 8 q.pour.tokens) ∧
      (∀ id y l, q.pour.kept.reverse.find? (fun z => decide (z.id = id)) = some y → y.waits = false → y.label = some l → exec (.pourLabel rq p id) s = s.ok t rq 0x0C06 p l))

/-- 18 R398 to R400, 21 R446, R450 to R456: a report of a seal that runs is signed and over the sideband leaves its nonce; the chain is returned; a sound licence bound to this module is installed, measured and answered; keys are registered, removed and listed, the flash and the store epoch with them; a valid debug token
opens its scope and is counted; an idle parcel enters and leaves test mode. -/
def Obligations.SealAndPerturbMessages : Prop :=
  ∀ (s : State) (rq : Requester) (p : Nat),
    let t := s.received rq
    (∀ n, s.takes rq = true → s.sealU.halted = false →
      let dev := natLe 48 t.fresh.1
      let b := t.attestBody ((n ++ zeroBytes 48).take 48) dev (isSideband rq)
      let g := Config.signature t.cdiName (sha384Val b).toNat
      exec (.sealAttest rq n) s = s.ok (if isSideband rq then { t.fresh.2 with sealU := { t.fresh.2.sealU with nonce := some (dev, s.tNs) } } else t.fresh.2) rq 0x0D01 0xFF (b ++ natLe 48 g.1 ++ natLe 48 g.2)) ∧
    (s.fromPort rq = true →
      let chain := Config.certChain t.cdiName
      exec (.sealCertGet rq none) s = if 4024 < chain.length then s.withAnswer t rq 0x0D02 0xFF (Ans.err 0x0E03) else s.ok t rq 0x0D02 0xFF (natLe 4 chain.length ++ zeroBytes 4 ++ chain)) ∧
    (∀ e, s.fromPort rq = true → ∃ u a, exec (.sealCertGet rq (some e)) s = s.withAnswer u rq 0x0D02 0xFF a) ∧
    (∀ l, s.fromPrincipal rq = true → s.sealU.halted = false →
      let x := s.sealU.extend 5 (sha384Val l)
      let u : State := { t with sealU := { x with licence := some (licOf l), licFlash := l, storeEpoch := x.storeEpoch + 1 }, raising := { t.raising with licOk := true } }
      exec (.sealLicenceInstall rq l) s = if !licSound l then s.withAnswer t rq 0x0D03 0xFF (Ans.err 0x0D01) else if !licBound s.sealU.identity l then s.withAnswer t rq 0x0D03 0xFF (Ans.err 0x0D02)
        else s.ok u.featuresLost rq 0x0D03 0xFF (natLe 1 u.featuresLost.bundle ++ natLe 1 (licOf l).fields ++ natLe 1 (licOf l).parcels ++ natLe 1 (licOf l).tapLanes ++ natLe 4 (licOf l).powerMax)) ∧
    (∀ id (u : Word) pub, s.fromPrincipal rq = true → s.sealU.halted = false → u.toNat < 4 → s.sealU.keys.length < 16 → s.sealU.keys.any (fun k => decide (k.id = id)) = false → keyPointOk pub = true →
      exec (.sealKeysAdd rq id u pub) s = s.ok (t.setKeys (s.sealU.keys ++ [{ id := id, use_ := u.toNat, pub := pub }])) rq 0x0D04 0xFF []) ∧
    (∀ id, s.fromPrincipal rq = true → s.sealU.halted = false → s.sealU.keys.any (fun k => decide (k.id = id)) = true →
      exec (.sealKeysRemove rq id) s = s.ok (t.setKeys (s.sealU.keys.filter (fun k => decide (k.id ≠ id)))) rq 0x0D05 0xFF []) ∧
    (s.fromPort rq = true → exec (.sealKeysList rq) s = s.ok t rq 0x0D06 0xFF (natLe 4 s.sealU.keys.length ++ zeroBytes 4 ++
      s.sealU.keys.flatMap (fun k => natLe 4 k.id ++ natLe 4 k.use_ ++ digestBytes (keyHash k.pub)))) ∧
    (∀ tok, s.fromPrincipal rq = true → s.sealU.halted = false →
      let k := tok.leAt 6 1
      let x := s.sealU.extend 7 (sha384Val (natLe 1 k))
      let u : State := { t with sealU := { x with debugCounter := x.debugCounter + 1, scope := x.scope ||| k } }
      exec (.sealDebugUnlock rq tok) s = if !s.tokenOk tok then s.withAnswer t rq 0x0D07 0xFF (Ans.err 0x0D05) else s.ok (if k = 2 then u.unsignLabels else u) rq 0x0D07 0xFF []) ∧
    (s.fromEither rq p = true → s.hasFeature 2 = true → (s.parcel p).busy = false → (s.parcel p).test = false →
      exec (.perturbEnable rq p) s = s.ok (t.modParcel p (fun q => { q with test := true })) rq 0x1001 p []) ∧
    (s.fromEither rq p = true → (s.parcel p).test = true → fieldBits s.prt.ctrl 2 1 ≠ p → exec (.perturbDisable rq p) s = s.ok (t.modParcel p (fun q => { q with test := false })) rq 0x1002 p []) ∧
    (s.fromEither rq p = true → (s.parcel p).test = true → fieldBits s.prt.ctrl 2 1 = p → exec (.perturbDisable rq p) s =
      s.ok ((t.modParcel p (fun q => { q with test := false })).modPrt (fun x => { x with ctrl := x.ctrl &&& ~~~1#32, armed := none })) rq 0x1002 p [])

/-- 19 R404, R406 to R418: a sub-link comes up when its port may link and goes down; the MAC counts frames in and discarded ones; ARP, NDP and echo requests for the sub-link's own addresses are answered and a requester is learned; a rack datagram whose header holds reaches its stream or export by SESSION and address, any other is counted
as discarded. -/
def Obligations.TapLinksAndFrames : Prop :=
  ∀ (s : State) (t u : Nat), t < 8 → u < 4 →
    ((s.subLink t u).link = false → s.mayLink t u = true → exec (.tapLinkChange t u true) s = .next (s.subUp t u)) ∧
    ((s.subLink t u).link = true → exec (.tapLinkChange t u true) s = .next s) ∧
    exec (.tapLinkChange t u false) s = .next (s.subDown t u) ∧
    (∀ (f : Frame), f.tap = t → f.sub = u → (s.subLink t u).link = true → f.fcsOk = true →
      let c := ((s.subCount t u skFecCorrected f.fecCorrected).subCount t u skFecUncorrected f.fecUncorrected).subCount t u skFramesIn 1
      ((f.vlan = true ∨ f.etherType = 0x8100#16) → exec (.frameReceive f) s = .next (c.rxDiscard t u)) ∧
      (c.macDiscards f = false → (c.tap t).accepts f.len = false → exec (.frameReceive f) s = .next c) ∧
      (c.macDiscards f = false → (c.tap t).accepts f.len = true → f.etherType = 0x0806#16 → exec (.frameReceive f) s = .next (c.arpFrame f))) ∧
    (∀ (mac : BitVec 48) (ip dst : BitVec 32), (s.subLink t u).link = true → (s.tap t).ipv4 ≠ 0#32 → dst = (s.tap t).subIpv4 u →
      exec (.arpRequest t u mac ip dst) s = .next ((s.modSub t u (fun l => l.learn (mapped4 ip) mac)).sendOut t u (.arpReply t u mac ip ((s.tap t).subMac u)))) ∧
    (∀ (mac : BitVec 48) (ip dst : BitVec 128), (s.subLink t u).link = true → (s.tap t).ipv6 ≠ 0#128 → dst = (s.tap t).subIpv6 u →
      exec (.neighbourSolicitation t u mac ip dst) s = .next ((s.modSub t u (fun l => l.learn ip mac)).sendOut t u (.ndpAdvert t u mac ip ((s.tap t).subMac u)))) ∧
    (∀ (ip : BitVec 128) (bs : Bytes), (s.subLink t u).link = true → (s.tap t).ipv6 ≠ 0#128 →
      exec (.echoRequest t u true ip ((s.tap t).subIpv6 u) bs) s = .next ((s.emit (.echoReply t u true ip bs)).subCount t u skFramesOut 1)) ∧
    (∀ (a : PeerAddr) (h : RackHdr), a.tap = t → a.sub = u → (s.subLink t u).link = true → hdrCrcOk h = true →
      ((hdrFormOk h = false ∨ h.type ≠ 4#8) → exec (.credit a h) s = .next (s.rxDiscard t u)) ∧
      (hdrFormOk h = true → h.type = 4#8 → s.sessions h.session = [] → exec (.credit a h) s = .next (s.rxDiscard t u)))

/-- 19 R409 to R417: for a datagram whose header holds and whose SESSION and address name a stream or an export: DATA that is acceptable is buffered, one whose tag or DCRC fails is counted; BUSY marks the stream and any other FAIL ends it; READ_REQ starts the sender, CREDIT raises its limit, and a SACK that covers the last segment ends the export.
A buffered segment is written, the timers and the busy retry send, the 17th re-request fails the stream, and OFFER is sent and resent at most 100 times. 19 R412 to R417: what a stream and an export do of their own accord, without a datagram. -/
def Obligations.RackTransport : Prop :=
  (
    ∀ (s : State) (a : PeerAddr) (h : RackHdr) (d : RackTo) (o : RackOpenF), a.tap < 8 → a.sub < 4 → (s.subLink a.tap a.sub).link = true → hdrCrcOk h = true → hdrFormOk h = true →
      (s.sessions h.session).find? (fun x => addrMatches x.2 a) = some (d, o) →
      (∀ p n r body, d = .stream p n → h.type = 2#8 → s.rack p n = some r → r.accepts h body = true →
        (∀ b, (s.parcel p).segData r h body = some b → exec (.data a h body) s = .next (s.modRack p n (fun r => { r with arrived := r.arrived ++ [(h.seq, b)] }))) ∧
        ((s.parcel p).segData r h body = none → exec (.data a h body) s = .next (s.modRack p n (fun r => { r with crcErrors := r.crcErrors.add 1 })))) ∧
      (∀ p n r, d = .stream p n → h.type = 5#8 → s.rack p n = some r → r.state = 1 →
        exec (.fail a h) s = .next (if h.arg = 4 then s.modRack p n (fun r => { r with busy := true }) else s.modRack p n (fun r => { r with state := 3, arrived := [], busy := false }))) ∧
      (∀ p, d = .export_ p → h.rflag.getLsbD 2 = true → ∀ e, (s.parcel p).exp = some e →
        (h.type = 4#8 → exec (.credit a h) s = .next ((s.modExport p (fun e => { e with credit := max e.credit h.arg })).exportPump p)) ∧
        (h.type = 3#8 → ∀ bm, e.started = true → segCount e.bytes.length ≤ h.arg → exec (.sack a h bm) s = .next (s.exportOver p { status := 0, payload := natLe 8 e.bytes.length })) ∧
        (h.type = 1#8 → ∀ ob n, e.offers ≠ 0 → h.arg + n ≤ segCount e.bytes.length → exec (.readReq a h ob e.bytes.length n) s =
          .next ((s.modExport p (fun x => { x with started := true, requested := x.requested ++ ((List.range n).map (fun i => h.arg + i)).filter (fun k => !e.requested.contains k) })).exportPump p)))) ∧
  (
    ∀ (s : State) (p n : Nat) (r : Rack), p < 4 → s.rack p n = some r →
      (∀ k b c beats, r.arrived.find? (fun e => e.1 = k) = some (k, b) → (s.parcel p).absCask r.f.rcask = some c →
        (s.gwOpen c = true → exec (.segmentLanded p n { seq := k, beats := beats }) s = .next (s.segmentLands p n k r c b beats)) ∧
        (s.gwOpen c = false → exec (.segmentLanded p n { seq := k, beats := beats }) s = .next s)) ∧
      (r.state = 1 → s.rackUp r.f = true → exec (.rackCreditTimer p n true) s = .next (s.sendSack p n) ∧ exec (.rackCreditTimer p n false) s = .next (s.sendCredit p n)) ∧
      (∀ k, r.state = 1 → s.rackUp r.f = true → r.hasLanded k = false → k < segCount r.f.len →
        (Sparse.get 0 r.retry k < 16 → exec (.rackRerequest p n k) s =
          .next ((s.modRack p n (fun r => { r with retry := Sparse.modify 0 r.retry k (fun x => x + 1), retries := r.retries.add 1 })).sendReadReq r k 1)) ∧
        (16 ≤ Sparse.get 0 r.retry k → exec (.rackRerequest p n k) s = .next (s.modRack p n (fun r => { r with state := 3, arrived := [], busy := false })))) ∧
      (r.state = 1 → r.busy = true → exec (.rackBusyRetry p n) s = .next ((s.modRack p n (fun r => { r with busy := false })).sendReadReq r 0 (segCount r.f.len))) ∧
      (∀ e, (s.parcel p).exp = some e → e.started = false → e.bytes ≠ [] →
        let sent := (s.modExport p (fun e => { e with offers := e.offers + 1 })).rackSend e.f 6 rfExport e.session 0 (natLe 8 e.bytes.length ++ zeroBytes 8)
        (e.offers = 0 → exec (.offer p e.stream) s = .next sent) ∧
        (1 ≤ e.offers → e.offers < 100 → exec (.offerResend p e.stream) s = .next sent) ∧
        (100 ≤ e.offers → exec (.offerResend p e.stream) s = .next (s.exportOver p (Ans.err 0x0502)))))

/-- 20 R421 to R437, 21 R457: a frame that the service hears and whose header and CRC hold is a request (queued once its prompt is complete), tokens of one, a cancel or a fetch (answered with RESULT); one that does not hold is discarded; an incomplete request times out; a step starts on an idle raised parcel and its end reads the
tokens; a label that waits is signed. -/
def Obligations.PourFramesStepsAndLabels : Prop :=
  ∀ (s : State) (p : Nat) (src : PourSource) (b : Bytes) (d : PourDecl), p < 4 → sourceOk src = true → (s.parcel p).decl = some d →
    (∀ f, s.pourHears p src = true → pourParse b (srcMaxLen src) = some f →
      (f.type = 1 → (s.parcel p).pour.requestReason d src f = (0, 0) →
        exec (.request p src b) s = .next ((s.setPour p { (s.parcel p).pour with seqs := (s.parcel p).pour.seqs ++ [seqOf src f] }).pourQueue p f.id)) ∧
      (f.type = 1 → ∀ w v, 0 < w → (s.parcel p).pour.requestReason d src f = (w, v) → exec (.request p src b) s = .next (s.pourRefuse p src f.id w v)) ∧
      (f.type = 2 → (s.parcel p).pour.appendReason d src f = (0, 0) →
        let add := fun (y : PourSeq) => if y.st = .incomplete then
            let m := setTokens y.prompt (f.body.leAt 0 4) ((List.range (f.body.leAt 4 4)).map (frameToken (f.body.drop 8)))
            { y with prompt := m, got := m.length }
          else y
        exec (.append p src b) s = .next ((s.modParcel p (fun q => { q with pour := (s.parcel p).pour.modSeq f.id add })).pourQueue p f.id)) ∧
      (∀ y, f.type = 3 → f.body = [] → f.id ≠ 0 → (s.parcel p).pour.named f.id src = some y → y.st ≠ .ended → exec (.cancelFrame p src b) s = .next (s.pourCancelSeq p y)) ∧
      (∀ y, f.type = 4 → f.body.length = 8 → allZero (f.body.drop 4) = true → (s.parcel p).pour.named f.id src = some y → y.st ≠ .ended → f.body.leAt 0 4 ≤ y.tokens.length →
        let n := min (min 2045 (y.tokens.length - f.body.leAt 0 4)) (s.resultRoom (s.parcel p).pour y)
        exec (.fetch p src b) s = .next (s.pourSend p y 0x15 (natLe 4 (f.body.leAt 0 4) ++ natLe 4 n ++ natLe 1 0 ++ zeroBytes 3 ++ ((y.tokens.drop (f.body.leAt 0 4)).take n).flatMap (natLe 4))))) ∧
    (s.pourHears p src = true → pourParse b (srcMaxLen src) = none → exec (.request p src b) s = .next (s.pourDiscard src)) ∧
    (s.pourHears p src = false → exec (.request p src b) s = .next s) ∧
    (∀ y, (s.parcel p).pour.find y.id = some y → y.st = .incomplete → exec (.pourIncompleteTimeout p y.id) s =
      .next ((s.pourRefuse p y.src y.id 7 y.got).setPour p { (s.parcel p).pour with seqs := (s.parcel p).pour.seqs.filter (fun z => decide (z.id ≠ y.id)) })) ∧
    (∀ m, (s.parcel p).image = some m → (s.parcel p).pour.serving = true → (s.parcel p).pour.stopping = false → (s.parcel p).inv = none → (s.parcel p).st = .idle →
      (s.parcel p).fields.all (fun f => decide ((s.field f).st = .raised)) = true → exec (.pourStepStart p) s = .next (s.pourStep p d m)) ∧
    (∀ i m, (s.parcel p).inv = some i → (s.parcel p).image = some m → (i.started && i.endSeen && i.fault.isNone && i.ofPour) = true →
      let u := ((s.settleBays p).settleData i).1
      let t := (u.parcel p).casks.foldl (fun (u : State) c => u.modCask c (fun k => k.commit none)) u
      ∀ j, (t.parcel p).inv = some j → j.fault = none → j.parkReq = false →
        exec (.pourStepEnd p) s = .next ((t.endRun p 0 0).pourBoundary p d m j.holdCount (j.digestsHeld && t.weightsValid p))) ∧
    (s.sealU.halted = true → exec .labelSigned s = .next s) ∧
    (∀ w id, s.sealU.halted = false → s.waitingLabels = [(w, p, true, id)] → exec .labelSigned s = .next (s.signSeq p id)) ∧
    (∀ w n, s.sealU.halted = false → s.waitingLabels = [(w, p, false, n)] → exec .labelSigned s = .next ((s.modParcel p (fun q =>
      { q with records := q.records.map (fun r => if r.serial = n then { r with label := labelSign r.label, signed := true } else r) })).eventOwner p 3))

/-- 16 R330 to R346, 21 R446 to R450: the first live port's CLAIM takes the role and starts the measurements; the staging window takes the principal's bytes while STAGE is CLAIMED; each command moves STAGE on as R336 orders, with LASTOP and RAISE_ERR; RAISE and UNPARK take the named fields up; a step that overruns fails its field; RAISE_DONE opens the
mailboxes. A command that R336 refuses changes RAISE_ERR and CMDREJ only. -/
def Obligations.RaisingCommands : Prop :=
  ∀ (s : State) (port : Nat), port < 4 → s.portLive port = true → s.writeHeld port = false →
    let after := fun (op : Nat) (m : BitVec 10) (mt : Bool) => s.raiseAccept port op m mt
    (s.raising.owner = none → exec (.claim port) s =
      .next { s with raising := { s.raising with owner := some port, stage := 1 }
                     sealU := { s.sealU with ready := true, identity := Config.pufReads s.freeCtr, mr := [extendMr 0 Config.sealRomDigest, 0, 0, 0, 0, 0, 0, 0] }
                     freeCtr := s.freeCtr + 1 }) ∧
    (∀ k, s.raising.owner = some k → exec (.claim port) s = .next s) ∧
    (s.raising.owner ≠ some port → (∀ off bs, exec (.stagingWindowWrite port off bs) s = .next s) ∧ exec (.verifyFw port) s = .next s ∧ exec (.raiseDone port) s = .next s) ∧
    (s.raising.owner = some port →
      (∀ off bs, s.raising.stage = 1 → s.raising.locked = false → exec (.stagingWindowWrite port off bs) s =
        .next { s with raising := { s.raising with staging := s.raising.staging.writeBytes off (bs.take (2 ^ 24 - off)) } }) ∧
      (s.raising.cmd = none →
        (∀ why, s.raiseRefusal 1 0#10 = why → why ≠ 0 →
          exec (.verifyFw port) s = .next { s with raising := { s.raising with errCode := why, errStep := 0, errField := 15, errOp := 1, cmdRej := true } }) ∧
        (s.raiseRefusal 1 0#10 = 0 → ∃ t, exec (.verifyFw port) s = .next t ∧ t.raising.cmd = none ∧ t.raising.lastOp = 1 ∧ t.raising.errCode = fwCheck s.raising.staging s.raising.fwLen s.sealU.fwFloor ∧
          t.raising.stage = (if fwCheck s.raising.staging s.raising.fwLen s.sealU.fwFloor = 0 then 2 else s.raising.stage) ∧ t.sealU.fwFloor = s.sealU.fwFloor) ∧
        (s.raiseRefusal 2 0#10 = 0 → exec (.startCmst port) s = .next (after 2 0#10 false) ∧ (after 2 0#10 false).raising.lastOp = 2) ∧
        (∀ g (body : GrainBody) sh, s.raiseRefusal 3 0#10 = 0 → ∃ t, exec (.verifyConfig port g body sh) s = .next t ∧ t.raising.cmd = none ∧ t.raising.stage = 4 ∧ t.raising.grainOk = grainOk s.sealU.identity g ∧
          t.trellis.started = true ∧ t.pins.tripRec = []) ∧
        (∀ m mt fnd, s.raiseRefusal 4 m = 0 → exec (.raise port m mt fnd) s = .next ((raiseGo fnd mt (decide (s.raising.stage = 5)) 10
          (columnOrder ((maskFields m).filter (fun f => decide (((after 4 m mt).field f).st = .raising)))) (after 4 m mt)).raiseIdle)) ∧
        (∀ m fnd, s.raiseRefusal 6 m = 0 → exec (.unpark port m fnd) s = .next (((columnOrder ((maskFields m).filter (fun f => decide (((after 6 m false).field f).st = .unparking)))).foldl
          (fun (u : State) f => (u.fastField f (findingOf fnd f)).1.noteRaise f 6 (u.fastField f (findingOf fnd f)).2) (after 6 m false)).raiseIdle)) ∧
        (s.raising.stage = 4 → ∃ t, exec (.raiseDone port) s = .next t ∧ t.raising.done = true ∧ t.raising.stage = 5 ∧ t.raising.owner = some port))) ∧
    (∀ c, s.raising.cmd = some c → c.op = 2 → ∃ t, exec .cmstReady s = .next t ∧ t.raising.stage = 3 ∧ t.raising.cmd = none ∧ t.plate.cmstRunning = true ∧
      t.sealU.fwFloor = max s.sealU.fwFloor (s.raising.staging.readLe 12 4)) ∧
    (∀ f, f < 10 → (s.field f).st = .raising → (s.field f).fast = false → s.raising.errCode = 0 → Sparse.wf Field.init s.fields = true →
      ∃ t, exec (.raiseStepTimeout f) s = .next t ∧ (t.field f).st = .failed ∧ (t.field f).code = 0x0F18 ∧ t.raising.errCode = 0x0F18 ∧ t.raising.errField = f ∧ t.raising.errStep = (s.field f).step)

/-- 00 R5 to R10, 14 R285, R303, 15 R326 to R328, 17 R351 to R362, R368: PERST_N and FLR reset a port; slot bytes, BAR2 accesses and the entries of a list move data by the gateway's rules and give their errors; a GIVE takes the slot; a low read latches the high word; a SAT clear of MBX_DROPPED clears it; registers are written by their
fields; the fast cap enters 100 us later; the perturbation block acts for an armed parcel in test mode only. -/
def Obligations.HostPortCommands : Prop :=
  ∀ (s : State) (port : Nat), port < 4 →
    (∀ k, exec (.perstN port k) s = .next (if k = .perst then (s.portDown port).modPort port (fun q => { q with perst := true }) else s.portDown port)) ∧
    (s.portLive port = false → exec (.flr port) s = .next s ∧ ∀ off v, exec (.registerWrite port off v) s = .next s) ∧
    (s.portLive port = true → s.writeHeld port = true →
      (∀ n off bs, n < 64 → exec (.slotWrite port n off bs) s = .next (s.holdWrite port (.slotWrite port n off bs))) ∧
      (∀ n hm, n < 64 → exec (.give port n hm) s = .next (s.holdWrite port (.give port n hm))) ∧
      (∀ off d, off + d.data.length ≤ 256 * gib → exec (.bar2Write port off d) s = .next (s.holdWrite port (.bar2Write port off d))) ∧
      (∀ off v, exec (.registerWrite port off v) s = .next (s.holdWrite port (.registerWrite port off v)))) ∧
    (s.portLive port = true → s.writeHeld port = false →
      exec (.flr port) s = .next (s.portClear port) ∧
      (∀ n off bs, n < 64 → off < 4096 → (s.port port).own.getLsbD n = false → exec (.slotWrite port n off bs) s =
        .next (s.modPort port (fun q => { q with slots := q.slots.writeBytes (slotAt n + off) (bs.take (4096 - off)) }))) ∧
      (∀ n off bs, n < 64 → off < 4096 → (s.port port).own.getLsbD n = true → exec (.slotWrite port n off bs) s =
        .next (s.modPort port (fun q => { q with dropped := q.dropped.add 1, err := q.err ||| 0x10#5 }))) ∧
      (∀ n hm, n < 64 → s.raising.done = true → (s.port port).own.getLsbD n = false →
        let t := s.modPort port (fun q => { q with own := q.own ||| BitVec.ofNat 64 (2 ^ n) })
        let r := reqOf ((s.port port).slots.readBytes (slotAt n) 4096)
        let rq := Requester.slot port n r.tag
        let m := s.reqInfo rq r
        (s.mustQueue (some port) (s.reqKeys rq m r.parcel) (msgNow m.code) = true →
          exec (.give port n hm) s = .next (t.holdReq (some port) (some n) (s.reqKeys rq m r.parcel) (msgNow m.code) (.give port n hm))) ∧
        (s.mustQueue (some port) (s.reqKeys rq m r.parcel) (msgNow m.code) = false → exec (.give port n hm) s = .next (match (t.runReq rq r false (listHandler rq r hm)).2 with
          | some a => (t.runReq rq r false (listHandler rq r hm)).1.answer (some rq) r.code r.parcel s.plate.wall.toNat a
          | none => (t.runReq rq r false (listHandler rq r hm)).1))) ∧
      (∀ n e, n < 64 → s.raising.done = true → exec (.msg port n e) s = .next (s.runEntry port n e).1) ∧
      (∀ p e, p < 4 → s.raising.done = true → (s.parcel p).live = true → (s.parcel p).owner = port → s.entryHeld p e = false →
        (∀ c t, cutOk e false = true → e.dmaOk = true → (s.parcel p).absCask (daddrCask e.daddr) = some c →
          (e.kind = 1#8 → s.gwWrite c (daddrOff e.daddr) ((e.data ++ zeroBytes e.len).take e.len) true e.beats = some t →
            exec (.segIn port p e) s = .next (t.emitPort port (.dmaWrite port (e.addr + 32) (writeBack 0 e.len)))) ∧
          (∀ bs, e.kind = 2#8 → s.gwRead c (daddrOff e.daddr) e.len = some (bs, false) →
            exec (.segOut port p e) s = .next ((s.emitPort port (.dmaWrite port e.haddr bs)).emitPort port (.dmaWrite port (e.addr + 32) (writeBack 0 e.len))))) ∧
        (e.rsvZero = false → exec (.segIn port p e) s = .next (s.emitPort port (.dmaWrite port (e.addr + 32) (writeBack 0x0E06 0))))) ∧
      (∀ off d, off + d.data.length ≤ 256 * gib → s.postedFull port d.data.length = true → exec (.bar2Write port off d) s = .next (s.holdWrite port (.bar2Write port off d))) ∧
      (Sparse.wf Port.init s.ports = true → (s.port port).posted = [] → (s.port port).reads = [] → s.gwOrder = [] → s.noCredits port = false →
        (∀ off bs beats c o, bs ≠ [] → off % gib + bs.length ≤ gib → off + bs.length ≤ 256 * gib → s.bar2At port off = some (some c, o) →
          let u := s.modPort port (fun q => { q with posted := [(off, bs, beats)] })
          (s.gwOpen c = true → ∀ t, (u.modPort port (fun q => { q with posted := [] })).gwWrite c o bs true beats = some t →
            exec (.bar2Write port off { data := bs, beats := beats }) s = .next t) ∧
          (s.gwOpen c = false → exec (.bar2Write port off { data := bs, beats := beats }) s = .next { u with gwOrder := [port] })) ∧
        (∀ off n c o, 0 < n → off % gib + n ≤ gib → off + n ≤ 256 * gib → s.bar2At port off = some (some c, o) →
          (∀ bs, s.gwOpen c = true → s.gwRead c o n = some (bs, false) → exec (.bar2Read port off n) s = .next (s.emit (.readData port bs false))) ∧
          (s.gwOpen c = false → exec (.bar2Read port off n) s = .next (s.modPort port (fun q => { q with reads := [(off, n)] })))) ∧
        (∀ off n, 0 < n → off % gib + n ≤ gib → off + n ≤ 256 * gib → s.bar2At port off = none →
          exec (.bar2Read port off n) s = .next ((s.modPort port (fun q => { q with err := q.err ||| 1#5 })).emit (.unsupported port)))) ∧
      (∀ off n, (s.port port).reads.contains (off, n) = true → exec (.bar2ReadTimeout port off n) s =
        .next (((s.modPort port (fun q => { q with reads := q.reads.erase (off, n) })).modPort port (fun q => { q with err := q.err ||| 4#5 })).emit (.completerAbort port))) ∧
      (∀ off n, (s.port port).reads.contains (off, n) = false → exec (.bar2ReadTimeout port off n) s = .next s) ∧
      (exec (.counterLowRead (.port port) .telEnergy) s =
        .next { s with plate := { s.plate with latches := Sparse.set 0#32 s.plate.latches (latchKey port 0) (BitVec.ofNat 32 (s.energyMj / 2 ^ 32)) } }) ∧
      (∀ off v, off % 4 = 0 → exec (.registerWrite port off v) s = .next (s.writeReg port off v)) ∧
      (∀ v : Word, exec (.registerWrite port 8 v) s = .next (s.modPort port (fun q => { q with err := q.err &&& ~~~(v.setWidth 5) }))) ∧
      (∀ v : Word, s.raising.owner = some port → v.getLsbD 31 = true → ∃ t, exec (.trlFastCap port v) s = .next t ∧ t.trellis.fastDue = some (s.tNs + 100000) ∧
        t.trellis.fastActive = s.trellis.fastActive) ∧
      (∀ v : Word, s.prtWriter port s.prt.parcel = true →
        exec (.prtFsw port v) s = .next (s.writeFsw v) ∧
        (v.getLsbD 31 = true → s.prtFor s.prt.parcel = true → ∃ t, exec (.prtInjGo port v) s = .next t ∧ t.prt.armed = some { pegSeen := false })) ∧
      (∀ v : Word, s.prtWriter port s.prt.parcel = false → exec (.prtFsw port v) s = .next s ∧ exec (.prtInjGo port v) s = .next s)) ∧
    (∀ n, s.trellis.fastDue = some n → exec .fastCapEffect s = .next { s with trellis := { s.trellis with fastActive := s.trellis.fastCap, fastDue := none } }) ∧
    (∀ e, exec (.counterSatClear (.mbxDropped port) e) s = .next (s.modPort port (fun q => { q with dropped := if e then { n := 1, sat := false } else { n := 0, sat := false } }))) ∧
    (s.prt.armed = none → exec .injection s = .next s) ∧
    (∀ a (b : BayId), s.prt.armed = some a → a.pegSeen = true → s.prtFor s.prt.parcel = true → (s.parcel s.prt.parcel).running = true →
      b = (s.parcel s.prt.parcel).bayAt (fieldBits s.prt.injTgt 27 22) (fieldBits s.prt.injTgt 21 17) → b.ok = true → (s.parcel s.prt.parcel).holds (fieldOf b) = true →
      fieldBits s.prt.injTgt 31 28 = 0 → fieldBits s.prt.injCtrl 29 28 = 1 → s.prt.injCtrl.getLsbD 30 = false →
      exec .injection s = .next ((s.modPrt (fun t => { t.flag 6 with armed := none })).modBay b (fun x => { x with vat := { x.vat with inject := some (fieldBits s.prt.injTgt 16 11, 2) } })))

/-- 11 R230 to R240, 15 R319, 18 R385 to R388, 21 R442: a peg's decision records a stop only for a reason; the parcel stops, restarts 1,024 or more stop cycles on, and resumes; a vintage becomes valid; a drawn park parks; an accepted run starts on raised fields and completes after END; a stopped fault rolls back; failed pairs, seal cores
and entropy sources end their units' service. -/
def Obligations.InvocationsStopsAndVintages : Prop :=
  ∀ (s : State) (p : Nat) (i : Machine.Inv) (m : Image), p < 4 → (s.parcel p).inv = some i → (s.parcel p).image = some m →
    (∀ c, i.started = true → m.pegCount (i.decided + 1) = some c → (c : Int) ≤ s.parcelCount p + 1024 →
      ((s.stopWhy p (i.decided + 1) i m).any = false → exec (.stopDecision p) s = .next (s.modInv p (fun j => { j with decided := i.decided + 1 }))) ∧
      ((s.stopWhy p (i.decided + 1) i m).any = true →
        let u := (s.modInv p (fun j => { j with decided := i.decided + 1 })).emit (.stopCmd p c (s.stopWhy p (i.decided + 1) i m))
        let late := (u.parcel p).fields.filter (fun f => countPast (u.islandCount f) c)
        (late ≠ [] → exec (.stopDecision p) s = .next (late.foldl (fun (v : State) f => v.lateCommand f c) u)) ∧
        (late = [] → i.stop = none → Sparse.wf Parcel.init s.parcels = true → ∃ v j, exec (.stopDecision p) s = .next v ∧ (v.parcel p).inv = some j ∧ j.decided = i.decided + 1 ∧ j.vintageReq = false ∧
          j.stop = some { peg := i.decided + 1, count := c, why := s.stopWhy p (i.decided + 1) i m, reached := false, drawn := false, z := none, atNs := 0, since := [], levels := [] }))) ∧
    (∀ c, m.pegCount (i.decided + 1) = some c → s.parcelCount p + 1024 < (c : Int) → exec (.stopDecision p) s = .next s) ∧
    (∀ t, i.stop = some t →
      (t.reached = false → s.atStop p t = true → t.why.abort = false → i.abortReq = false →
        let u := s.modInv p (fun i => { i with holdCount := i.holdCount + 1, stop := some { t with reached := true, atNs := s.tNs, levels := s.pressLevels p } })
        exec (.parcelStop p) s = .next (((u.parcel p).bays.foldl State.readsComplete u).xphase p)) ∧
      (s.atStop p t = false → exec (.parcelStop p) s = .next s) ∧
      (∀ lead, s.mayRestart p i t = true → t.why.forced = false → exec (.restart p lead) s =
        .next ((s.modInv p (fun i => { i with stop := some { t with z := some (s.stopCycle ((s.parcel p).fields.headD 0) t + max lead 1024) } })).emit
          (.restartCmd p (s.stopCycle ((s.parcel p).fields.headD 0) t + max lead 1024)))) ∧
      (∀ lead, s.mayRestart p i t = false → exec (.restart p lead) s = .next s) ∧
      (s.stopOver p t = false → exec (.stopResume p) s = .next s) ∧
      (t.reached = true → s.stopOver p t = true → i.fault = none → t.why.forced = false → exec (.stopResume p) s =
        .next (((t.levels.foldl (fun (u : State) e => u.modBay (bayOfIx (e.1 / 4)) (fun b => b.atLevels (e.1 / 4) [e])) s).modInv p (fun i => { i with stop := i.later.head?, later := i.later.drop 1 })).setPState p .running)) ∧
      (t.reached = true → t.why.vintage = true → t.drawn = false → i.fault = none → i.abortReq = false →
        let u := (s.settleData i).1
        exec (.vintageValid p) s = .next ((u.vintageDrawn p t { ((u.parcel p).inv.getD i) with dfault := none } m).exportsDue p)) ∧
      (t.reached = true → t.why.park = true → t.drawn = true → i.fault = none → (s.parcel p).exp = none →
        exec (.park (.parcel p)) s = .next ((s.modInv p (fun i => { i with parkReq := false, stop := some { t with why := { t.why with park := false } } })).parkNow p ((s.parcel p).parkedBy.getD .trellis))) ∧
      (∀ r fnd, i.fault = some r → i.started = true → t.reached = true → exec (.rollback p fnd) s = .next (s.rollback p i m r fnd))) ∧
    (i.started = false → (s.parcel p).firstLanded = true → (s.parcel p).st = .idle → (s.parcel p).fields.all (fun f => decide ((s.field f).st = .raised)) = true →
      exec (.invocationStart p) s = .next (s.startInv p i m)) ∧
    (i.started = true → i.endSeen = true → i.fault = none → i.ofPour = false →
      let u := ((s.settleBays p).settleData i).1
      let t := (u.parcel p).casks.foldl (fun (u : State) c => u.modCask c (fun k => k.commit none)) u
      ∀ j, (t.parcel p).inv = some j → j.fault = none →
        exec (.invocationComplete p) s = .next (if i.ledger = .aborted then t.endAndPark p 0x0607 0 else (t.modInv p (fun i => { i with ledger := .complete })).endAndPark p 0 0)) ∧
    (∀ k mask, s.raising.owner = some k → s.portLive k = true → s.raising.cmd = none → s.raiseRefusal 5 mask = 0 →
      exec (.park (.fields mask)) s = .next (((s.raiseAccept k 5 mask false).parkFields mask).raiseIdle)) ∧
    (∀ k, k < 4 → s.plate.cmstRunning = true → s.plate.cmstPairs = [] → exec (.cmstLockstep k) s =
      .next ((({ s with plate := { s.plate with cmstPairs := [k] } } : State).report { code := 0x0501, unit := 0x07, idx := k, action := 11, detail := [(1, k)] }).failAll 0x0501 0x07 k)) ∧
    (s.sealU.halted = false → s.plate.plateReset = false →
      exec .sealLockstep s = .next ((({ s with sealU := { s.sealU with halted := true } } : State).report { code := 0x0503, unit := 0x08 }).unsignLabels) ∧
      (s.sealU.entropyFails < 2 → exec .entropyHealthFail s = .next { s with sealU := { s.sealU with entropyFails := s.sealU.entropyFails + 1 } }) ∧
      (2 ≤ s.sealU.entropyFails → ∃ t, exec .entropyHealthFail s = .next t ∧ t.sealU.halted = true)) ∧
    (s.sealU.halted = true → exec .sealLockstep s = .next s ∧ exec .entropyHealthFail s = .next s)

/-- 14 R281 to R296, R299 to R303, 15 R320: the control loop measures, cools, samples the contracts, parks, moves the levers and resumes, in that order, while the copies agree; a disagreement reloads them and a third within 1 s fails the trellis; the forecast and the mirror are published; a phase is learned with weight 1/8; a hint is
kept and boosts; a lease and a contract end with their caps. -/
def Obligations.TrellisCommands : Prop :=
  ∀ (s : State),
    (∀ (t : TrellisInputs), (s.trellis.started = false ∨ s.trellis.failed = true ∨ s.trellis.reloading = true) → exec (.trellisControlLoop t) s = .next s) ∧
    (∀ (t : TrellisInputs), s.trellis.started = true → s.trellis.failed = false → s.trellis.reloading = false →
      (t.copiesAgree = false → exec (.trellisControlLoop t) s =
        .next ((s.modTrellis (fun x => { x with mismatches := x.mismatches ++ [s.tNs], reloading := true })).trellisEvent 9 none [])) ∧
      (t.copiesAgree = true →
        let a := ((List.range 4).foldl (fun (u : State) p => (u.thermal p).occSample p) (s.measure t).staleEvents).warm.sampleContract t.powerW false
        let b := a.1.sampleContract t.powerW true
        let up := decide (b.1.upContracts ≠ [])
        let edge := (a.2 && b.1.governs false) || (b.2 && b.1.governs true)
        let cap := b.1.effCap
        let next := if up then b.1.upContracts.foldl (fun m c => min m (min c.target (c.sum / max 1 c.cnt + c.rateUp * 20))) (cap + 100000) else cap
        let c := b.1.parkToFit.divide.2.foldl (fun (u : State) l => u.lever up edge next cap l) b.1.parkToFit
        exec (.trellisControlLoop t) s = .next (((if up && !edge then c else c.resumeFitting).closeContract false).closeContract true)) ∧
      ((s.measure t).trellis.wins = addSample s.trellis.wins (s.plate.wall.toNat / 1000000) t.powerW ((s.takeReadings t).railMw (fun _ => true)) ∧
        (s.measure t).trellis.power = (s.measure t).trellis.lastWin.mean ∧ (s.measure t).trellis.energyUj = s.trellis.energyUj + 10 * t.powerW)) ∧
    (s.trellis.reloading = false → exec .trellisReload s = .next s) ∧
    (s.trellis.reloading = true → (s.trellis.mismatches.filter (fun a => decide (s.tNs < a + 1000000000))).length < 3 → exec .trellisReload s =
      .next { s with trellis := { s.trellis with reloading := false, mismatches := s.trellis.mismatches.filter (fun a => decide (s.tNs < a + 1000000000)) } }) ∧
    (s.trellis.reloading = true → 3 ≤ (s.trellis.mismatches.filter (fun a => decide (s.tNs < a + 1000000000))).length →
      exec .trellisReload s = .next (State.trellisFails { s with trellis := { s.trellis with reloading := false, mismatches := s.trellis.mismatches.filter (fun a => decide (s.tNs < a + 1000000000)) } })) ∧
    ((s.trellis.started = false ∨ s.trellis.failed = true) → exec .forecastPublish s = .next s) ∧
    (s.trellis.started = true → s.trellis.failed = false → (s.trellis.wins.length < 2 ∨ s.trellis.power ≤ s.effCap + max (s.effCap / 50) 25) →
      ∃ u, exec .forecastPublish s = .next u ∧ u.parcels = s.parcels ∧ u.fields = s.fields ∧ u.flog = s.flog ∧ u.trellis.overs = 0 ∧ (s.trellis.bins = [] → u.trellis.bins.length = 10 ∧ u.trellis.binsNs = s.plate.wall.toNat)) ∧
    (∀ p, p < 4 → (s.parcel p).tr.occEnd = none → exec (.phaseLearn p) s = .next s) ∧
    (∀ p (o : Occurrence), p < 4 → (s.parcel p).live = true → (s.parcel p).image.isSome = true → s.trellis.started = true → (s.parcel p).tr.occEnd = some o → 0 < o.n →
      let u := s.modTr p (fun r => { r with occEnd := none })
      (o.untilNs < o.sinceNs + 100000 → exec (.phaseLearn p) s = .next u) ∧
      (o.sinceNs + 100000 ≤ o.untilNs → exec (.phaseLearn p) s = .next (u.modTr p (fun r =>
        { r with learned := Sparse.set PhaseEnt.none r.learned o.phase.toNat { ((s.parcel p).phaseEnt o.phase.toNat (o.temp / o.n : Nat)).learn o with phase := o.phase.toNat } })))) ∧
    (∀ (e : PhaseEnt) (o : Occurrence), 0 < o.n →
      (e.learn o).pdyn = (if e.occ = 0 then o.dyn / (1000 * o.n) else (7 * e.pdyn + o.dyn / (1000 * o.n)) / 8) ∧
      (e.learn o).pcask = (if e.occ = 0 then o.cask / (1000 * o.n) else (7 * e.pcask + o.cask / (1000 * o.n)) / 8) ∧
      (e.learn o).tref = ((o.temp / o.n : Nat) : Int) ∧ (e.learn o).occ = e.occ + 1 ∧ (o.before = none → (e.learn o).irise = e.irise)) ∧
    (∀ p (ph : BitVec 8) (n : Nat), p < 4 → (s.parcel p).running = true → s.trellis.started = true → s.trellis.failed = false →
      let q := s.parcel p
      let e := q.phaseEnt ph.toNat (s.parcelTemp q)
      e.forecastMw (s.fcode q) q.tr.beta (s.parcelTemp q) ≤ 1000 * q.tr.share →
      exec (.crushHint p ph n) s = .next (q.fields.foldl (fun (u : State) k => (u.modField k (fun x => { x with supply := { x.supply with boostMv := e.boostMv } })).retarget k)
        (s.modTr p (fun r => { r with hint := some (ph, n) })))) ∧
    (∀ cap ns ex, s.trellis.lease = some (cap, ns, ex) → exec .leaseExpired s =
      .next ((s.modTrellis (fun x => { x with lease := none, leaseCap := if ex = 0 then none else some ex })).trellisEvent 6 none [])) ∧
    (∀ c, s.trellis.contractP = some c → c.lessee = false → exec (.contractMissed false) s =
      .next ((s.modTrellis (fun x => { x with latest := some { c with state := 3, reason := s.missReason c }, contractP := none, hostCap := some c.target })).trellisEvent 5 none [(1, s.missReason c)])) ∧
    (∀ c, s.trellis.contractL = some c → c.lessee = true → exec (.contractMissed true) s =
      .next ((s.modTrellis (fun x => { x with latest := some { c with state := 3, reason := s.missReason c }, contractL := none, leaseCap := some c.target })).trellisEvent 5 none [(1, s.missReason c)]))

/-- 00 R7: each reader, a host port or the Cellarmaster, has a latch of its own for the 64-bit TEL_ENERGY, and a port one for the 48-bit MBX_DROPPED: the read of a low word stores the high word there and changes nothing else, so that no reader's
read disturbs another's latch; the read of a high word returns the reader's own latch, which is 0 before any low-word read since module reset. -/
def Obligations.CountersAreReadThroughLatches : Prop :=
  ∀ (s : State), Sparse.wf 0#32 s.plate.latches = true →
    (∀ (p : Nat), p < 4 → s.portLive p = true →
      (∃ t, exec (.counterLowRead (.port p) .telEnergy) s = .next t ∧ t = { s with plate := { s.plate with latches := t.plate.latches } } ∧
        t.readTel p 0x14 = BitVec.ofNat 32 (s.energyMj / 2 ^ 32) ∧
        (∀ r c, (r < 5 ∧ c < 2) → (r, c) ≠ (p, 0) → t.latch (latchKey r c) = s.latch (latchKey r c))) ∧
      (∃ t, exec (.counterLowRead (.port p) .mbxDropped) s = .next t ∧ t = { s with plate := { s.plate with latches := t.plate.latches } } ∧
        t.readMailbox p 0x24 = (s.port p).dropped.high ∧
        (∀ r c, (r < 5 ∧ c < 2) → (r, c) ≠ (p, 1) → t.latch (latchKey r c) = s.latch (latchKey r c)))) ∧
    (s.plate.cmstRunning = true → ∃ t, exec (.counterLowRead .cellarmaster .telEnergy) s = .next t ∧ t = { s with plate := { s.plate with latches := t.plate.latches } } ∧
      t.latch (latchKey 4 0) = BitVec.ofNat 32 (s.energyMj / 2 ^ 32) ∧
      (∀ r c, (r < 5 ∧ c < 2) → (r, c) ≠ (4, 0) → t.latch (latchKey r c) = s.latch (latchKey r c))) ∧
    (s.plate.cmstRunning = true → ∀ u : CounterUnit, counterOk u = true → ∃ t, exec (.counterLowRead .cellarmaster (.unit u)) s = .next t ∧ t = { s with plate := { s.plate with latches := t.plate.latches } } ∧
      t.latch (unitKey u) = (s.unitCounter u).high ∧ (∀ k, k ≠ unitKey u → t.latch k = s.latch k)) ∧
    (∀ p, s.readTel p 0x14 = s.latch (latchKey p 0) ∧ s.readMailbox p 0x24 = s.latch (latchKey p 1)) ∧
    (∀ k, State.reset.latch k = 0#32)

/-- 00 R9, R10 (its first paragraph): a counter never passes 2^48 - 1, its SAT bit is sticky and says that it has saturated; its words hold COUNT[31:0], and SAT, 15 reserved zeros and COUNT[47:32]; a write of 1 to the SAT of MBX_DROPPED, the one counter whose words a port can write (17 R359), clears SAT and the whole counter, whatever SAT is, and
an event of the same cycle is counted after it. The counters that no register shows change by no such write (05 R101, 09 R201: module reset alone clears them). -/
def Obligations.EventCounters : Prop :=
  (∀ (x : EvCnt) (k : Nat), x.n < 2 ^ 48 → 0 < k →
    (x.add k).n = min (x.n + k) 0xFFFFFFFFFFFF ∧ ((x.add k).sat = true ↔ x.sat = true ∨ 0xFFFFFFFFFFFF ≤ x.n + k)) ∧
  (∀ (x : EvCnt), x.n < 2 ^ 48 → x.low.toNat = x.n % 2 ^ 32 ∧ x.high.getLsbD 31 = x.sat ∧
    (∀ i, 16 ≤ i → i < 31 → x.high.getLsbD i = false) ∧ x.high.toNat % 2 ^ 16 = x.n / 2 ^ 32) ∧
  (∀ (s : State) (p : Nat) (ev : Bool), p < 4 → exec (.counterSatClear (.mbxDropped p) ev) s = .next (s.modPort p (fun q => { q with dropped := { n := if ev then 1 else 0, sat := false } }))) ∧
  (∀ (s : State) (u : CounterUnit) (ev : Bool), counterOk u = true → (∀ p, u ≠ .mbxDropped p) → exec (.counterSatClear u ev) s = .next s) ∧
  (∀ (s : State) (u : CounterUnit) (ev : Bool), counterOk u = false → exec (.counterSatClear u ev) s = .refused .noSuchUnit)

/-- 02 R37 (with R33): a tun with V = 0 and no special flag drains to +0 in every format and mode; a non-zero tun whose rounded result is zero drains to zero with the tun's sign in the formats with a signed zero, and to 0 in the integer formats. The clauses on mxElem say the same of an element of an MX block. -/
def Obligations.ZeroDrains : Prop :=
  ∀ (t : Tun) (fmt : BitVec 4) (rm : BitVec 2) (sat : Bool) (dsc : Int) (r16 : Nat), fmtOk fmt = true →
    (t.tn = false → t.tr = false → t.tp = false → t.tm = false →
      let n := t.v.toInt
      let e := t.anchor + dsc
      let p := fmtP fmt
      let q := max ((Nat.log2 n.natAbs : Int) + e) (1 - p.bias) - p.mbits
      (t.v = 0#128 → (drainTun t fmt rm sat dsc r16).code = 0) ∧
      (t.v ≠ 0#128 → p.isInt = false → roundInt n (e - q) rm r16 = 0 → (drainTun t fmt rm sat dsc r16).code = if n < 0 then 2 ^ (p.width - 1) else 0) ∧
      (t.v ≠ 0#128 → p.isInt = true → roundInt n e rm r16 = 0 → (drainTun t fmt rm sat dsc r16).code = 0)) ∧
    (∀ (n e : Int), (fmtP fmt).isMx = true →
      let p := fmtP fmt
      let q := max ((Nat.log2 n.natAbs : Int) + e) (1 - p.bias) - p.mbits
      (n = 0 → (mxElem fmt n e rm r16).1 = 0) ∧
      (n ≠ 0 → p.isInt = false → roundInt n (e - q) rm r16 = 0 → (mxElem fmt n e rm r16).1 = if n < 0 then 2 ^ (p.width - 1) else 0) ∧
      (n ≠ 0 → p.isInt = true → roundInt n (e + 6) rm r16 = 0 → (mxElem fmt n e rm r16).1 = 0))

/-- 02 R36: the special results of a drain to a format without scales: NaN, +infinity and -infinity in each output format, with a positive sign on NaN, under SAT in E4M3, with DV where the table marks it. -/
def Obligations.SpecialDrains : Prop :=
  ∀ (t : Tun) (rm : BitVec 2) (sat : Bool) (dsc : Int) (r16 : Nat),
    let nan := t.tn = true ∨ t.tr = true ∨ (t.tp = true ∧ t.tm = true)
    let pos := t.tn = false ∧ t.tr = false ∧ t.tp = true ∧ t.tm = false
    let neg := t.tn = false ∧ t.tr = false ∧ t.tp = false ∧ t.tm = true
    let gives := fun (fmt : BitVec 4) (code : Nat) (dv : Bool) => (drainTun t fmt rm sat dsc r16).code = code ∧ (drainTun t fmt rm sat dsc r16).dv = dv
    (nan → gives 0x0#4 0x7FC00000 false ∧ gives 0x1#4 0x7FC0 false ∧ gives 0x2#4 0x7E00 false ∧ gives 0x4#4 0x7F false ∧ gives 0x3#4 0x7F false ∧
      gives 0xD#4 0 true ∧ gives 0xA#4 0 true ∧ gives 0xB#4 0 true) ∧
    (pos → gives 0x0#4 0x7F800000 false ∧ gives 0x1#4 0x7F80 false ∧ gives 0x2#4 0x7C00 false ∧ gives 0x4#4 0x7C false ∧
      gives 0x3#4 (if sat then 0x7E else 0x7F) true ∧ gives 0xD#4 0x7 true ∧ gives 0xA#4 0x7F true ∧ gives 0xB#4 0x7 true) ∧
    (neg → gives 0x0#4 0xFF800000 false ∧ gives 0x1#4 0xFF80 false ∧ gives 0x2#4 0xFC00 false ∧ gives 0x4#4 0xFC false ∧
      gives 0x3#4 (if sat then 0xFE else 0x7F) true ∧ gives 0xD#4 0xF true ∧ gives 0xA#4 0x80 true ∧ gives 0xB#4 0x8 true)

/-- What State.reset holds, module power having just been applied (13 R264, R269, 16 R329, R335, 17 R359, R361, 12 R250): nothing is powered, the plate is in reset, every field is dark, every parcel free, every port down with its slots host-owned and no event pending, the epoch and the wall timebase at 0, the queue and the log empty.
The state right after reset is this power-on state: log entries 3 and 9 name the values that are the model's. -/
def Obligations.ResetState : Prop :=
  let s := State.reset
  s.pins.hvEn = false ∧ s.plate.bus = false ∧ s.pins.pwrOk = false ∧ s.plate.plateReset = true ∧ s.plate.wall = 0#64 ∧ s.plate.master = 0 ∧ s.plate.cmstRunning = false ∧
    (∀ f, (s.field f).st = .dark ∧ (s.field f).supply.vfab = false ∧ (s.field f).hub = false) ∧
    (∀ p, (s.parcel p).live = false) ∧
    (∀ p, (s.port p).linkUp = false ∧ (s.port p).own = 0#64 ∧ (s.port p).done = 0#64 ∧ (s.port p).evtPend = 0#16 ∧ (s.port p).dropped = { n := 0, sat := false }) ∧
    (∀ b, (s.bay b).seq.issuing = false ∧ (s.bay b).breach.cause = 0 ∧ (s.bay b).agenda = []) ∧
    (∀ c a, Mem.read (s.cask c).mem a = 0#8) ∧ s.raising.stage = 0 ∧ s.raising.owner = none ∧ s.flog.ring = [] ∧ s.pending = [] ∧ s.out = []

/-- The invariant of StepKeepsSoundness holds after reset. -/
def Obligations.ResetIsSound : Prop :=
 State.reset.Sound

/-- Every step keeps the model's forms: the stores of bays, parcels, fields, seams, casks, ports and taps and every cask's memory stay canonical (keys rising, nothing listed at the value an unlisted one reads as), the fault log holds at most 65,536 entries in rising SEQ below the next one (15 R324), and the seal
holds its eight measurement registers (21 R450). -/
def Obligations.StepKeepsSoundness : Prop :=
  ∀ s t : State, s.Sound → step s = .next t → t.Sound

/-- No step lowers a monotonic counter of the seal (21 R446): the two floors, the debug counter and the store epoch; and no command changes the queue of those that wait. -/
def Obligations.StepLowersNoSealCounter : Prop :=
  (∀ s t : State, step s = .next t → s.sealU.NotBelow t.sealU) ∧ (∀ (c : Instr) (s t : State), exec c s = .next t → t.pending = s.pending)

/-- 00 R11, 03 R42 to R56, 05 R91, R92, R95, 06 R106, 08 R166, 09 R182, 17 R357, 18 R373: each of the 296 commands completes: one that names units the module has (bays of the grid, parcels 0 to 3, ports 0 to 3 and slots 0 to 63, fields 0 to 9, casks 0 to 19, seams 0 to 12,
taps 0 to 7) answers a next state from every state, with every value of its other operands, so that neither a value nor a mode nor a fault of the hardware ends a run. Where the spec gives it an effect there, the family's statement says what the next state holds. One that names a unit the module does not have is refused. -/
def Obligations.EveryCommandCompletes : Prop :=
  ∀ (i : Instr) (s : State), (unitsExist i = true → ∃ t, exec i s = .next t) ∧ (unitsExist i = false → exec i s = .refused .noSuchUnit)
end

