-- ==== Sys2Proof/Laws/Sparse.lean ====
section
/-! SUPPORT. What reading and writing a sparse map do: a read after a write, the canonical form kept by every operation, and equal
readings make equal maps. -/

namespace Sys2Proof
variable {α : Type}

/-- Below the lower bound of its keys a canonical map reads as unlisted. -/
theorem Sparse.get_below [DecidableEq α] (d : α) : ∀ (m : Sparse α) (lo k : Nat), Sparse.wfFrom d lo m = true → k < lo → Sparse.get d m k = d
  | [], _, _, _, _ => rfl
  | (a, v) :: r, lo, k, h, hk => by
    simp only [Sparse.wfFrom, Bool.and_eq_true, decide_eq_true_eq] at h
    have : k < a := by omega
    simp [Sparse.get, this]

/-- A lower bound may be lowered. -/
theorem Sparse.wfFrom_mono [DecidableEq α] (d : α) (m : Sparse α) {lo hi : Nat} (h : Sparse.wfFrom d hi m = true) (hl : lo ≤ hi) :
    Sparse.wfFrom d lo m = true := by
  cases m with
  | nil => rfl
  | cons e r =>
    obtain ⟨a, v⟩ := e
    simp only [Sparse.wfFrom, Bool.and_eq_true, decide_eq_true_eq] at h ⊢
    exact ⟨⟨by omega, h.1.2⟩, h.2⟩

/-- A write keeps the canonical form above a bound that its key respects. -/
theorem Sparse.wfFrom_set [DecidableEq α] (d : α) : ∀ (m : Sparse α) (lo k : Nat) (v : α), Sparse.wfFrom d lo m = true → lo ≤ k →
    Sparse.wfFrom d lo (Sparse.set d m k v) = true
  | [], lo, k, v, _, hk => by
    by_cases hv : v = d <;> simp [Sparse.set, hv, Sparse.wfFrom, hk]
  | (a, w) :: r, lo, k, v, h, hk => by
    simp only [Sparse.wfFrom, Bool.and_eq_true, decide_eq_true_eq] at h
    obtain ⟨⟨hlo, hw⟩, hr⟩ := h
    unfold Sparse.set
    split
    · split
      · simp_all [Sparse.wfFrom]
      · simp only [Sparse.wfFrom, Bool.and_eq_true, decide_eq_true_eq]
        refine ⟨⟨hk, by simpa using ‹¬v = d›⟩, ⟨by omega, hw⟩, hr⟩
    · split
      · split
        · exact Sparse.wfFrom_mono d r hr (by omega)
        · subst_vars
          simp only [Sparse.wfFrom, Bool.and_eq_true, decide_eq_true_eq]
          exact ⟨⟨hk, by simpa using ‹¬v = d›⟩, hr⟩
      · simp only [Sparse.wfFrom, Bool.and_eq_true, decide_eq_true_eq]
        exact ⟨⟨hlo, hw⟩, Sparse.wfFrom_set d r (a + 1) k v hr (by omega)⟩

/-- A write keeps the canonical form. -/
theorem Sparse.wf_set [DecidableEq α] (d : α) (m : Sparse α) (k : Nat) (v : α) (h : Sparse.wf d m = true) :
    Sparse.wf d (Sparse.set d m k v) = true := Sparse.wfFrom_set d m 0 k v h (Nat.zero_le k)

/-- A change of one value keeps the canonical form. -/
theorem Sparse.wf_modify [DecidableEq α] (d : α) (m : Sparse α) (k : Nat) (f : α → α) (h : Sparse.wf d m = true) :
    Sparse.wf d (Sparse.modify d m k f) = true := Sparse.wf_set d m k _ h

/-- The map with nothing listed is canonical. -/
@[simp] theorem Sparse.wf_nil [DecidableEq α] (d : α) : Sparse.wf d ([] : Sparse α) = true := rfl

/-- A read after a write, above a bound: the written key gives the value, every other key what it gave. -/
theorem Sparse.get_setFrom [DecidableEq α] (d : α) : ∀ (m : Sparse α) (lo k j : Nat) (v : α), Sparse.wfFrom d lo m = true →
    Sparse.get d (Sparse.set d m k v) j = if j = k then v else Sparse.get d m j
  | [], lo, k, j, v, _ => by
    unfold Sparse.set
    split
    · subst_vars; simp [Sparse.get]
    · by_cases h : j = k
      · simp [Sparse.get, h]
      · by_cases h2 : j < k <;> simp [Sparse.get, h]
  | (a, w) :: r, lo, k, j, v, h => by
    simp only [Sparse.wfFrom, Bool.and_eq_true, decide_eq_true_eq] at h
    obtain ⟨⟨hlo, hw⟩, hr⟩ := h
    have ih := Sparse.get_setFrom d r (a + 1) k j v hr
    have below := fun (i : Nat) (hi : i ≤ a) => Sparse.get_below d r (a + 1) i hr (by omega)
    unfold Sparse.set
    by_cases hka : k < a
    · by_cases hv : v = d
      · by_cases hj : j = k
        · subst_vars; simp [Sparse.get, hka]
        · simp [hka, hv, hj]
      · by_cases hj : j = k
        · simp [hka, hv, hj, Sparse.get]
        · by_cases hjk : j < k
          · have : j < a := by omega
            simp [hka, hv, hj, hjk, this, Sparse.get]
          · simp [hka, hv, hj, hjk, Sparse.get]
    · by_cases hkeq : k = a
      · subst hkeq
        by_cases hv : v = d
        · by_cases hj : j = k
          · subst hj; subst hv; simp [below j (Nat.le_refl j)]
          · by_cases hjk : j < k
            · simp [hv, hj, hjk, Sparse.get, below j (Nat.le_of_lt hjk)]
            · simp [hv, hj, hjk, Sparse.get]
        · by_cases hj : j = k
          · subst hj; simp [hv, Sparse.get]
          · by_cases hjk : j < k <;> simp [hv, hj, hjk, Sparse.get]
      · simp only [hka, hkeq, if_false, Sparse.get]
        by_cases hja : j < a
        · have : j ≠ k := by omega
          simp [hja, this]
        · by_cases hjeq : j = a
          · subst hjeq
            have : j ≠ k := fun e => hkeq e.symm
            simp [this]
          · simp [hja, hjeq, ih]

/-- A read after a write. -/
theorem Sparse.get_set [DecidableEq α] (d : α) (m : Sparse α) (k j : Nat) (v : α) (h : Sparse.wf d m = true) :
    Sparse.get d (Sparse.set d m k v) j = if j = k then v else Sparse.get d m j := Sparse.get_setFrom d m 0 k j v h

/-- A read of the written key. -/
theorem Sparse.get_set_same [DecidableEq α] (d : α) (m : Sparse α) (k : Nat) (v : α) (h : Sparse.wf d m = true) :
    Sparse.get d (Sparse.set d m k v) k = v := by simp [Sparse.get_set d m k k v h]

/-- A read of another key. -/
theorem Sparse.get_set_ne [DecidableEq α] (d : α) (m : Sparse α) {k j : Nat} (v : α) (h : Sparse.wf d m = true) (hj : j ≠ k) :
    Sparse.get d (Sparse.set d m k v) j = Sparse.get d m j := by simp [Sparse.get_set d m k j v h, hj]

/-- What is left of a canonical map by a filter is canonical. -/
theorem Sparse.wfFrom_filter [DecidableEq α] (d : α) (f : Nat × α → Bool) : ∀ (m : Sparse α) (lo : Nat), Sparse.wfFrom d lo m = true →
    Sparse.wfFrom d lo (m.filter f) = true
  | [], _, _ => rfl
  | (a, v) :: r, lo, h => by
    simp only [Sparse.wfFrom, Bool.and_eq_true, decide_eq_true_eq] at h
    have ih := Sparse.wfFrom_filter d f r (a + 1) h.2
    by_cases hf : f (a, v) = true
    · simp only [List.filter_cons, hf, if_true, Sparse.wfFrom, Bool.and_eq_true, decide_eq_true_eq]
      exact ⟨h.1, ih⟩
    · simp only [List.filter_cons, hf]
      exact Sparse.wfFrom_mono d _ ih (by omega)

theorem Sparse.wf_filter [DecidableEq α] (d : α) (f : Nat × α → Bool) (m : Sparse α) (h : Sparse.wf d m = true) :
    Sparse.wf d (m.filter f) = true := Sparse.wfFrom_filter d f m 0 h

/-- Every memory operation keeps the canonical form. -/
theorem Mem.wf_write (m : Mem) (a : Nat) (v : Byte) (h : Mem.wf m = true) : Mem.wf (Mem.write m a v) = true := Sparse.wf_set 0#8 m a v h
theorem Mem.wf_writeBytes : ∀ (bs : Bytes) (m : Mem) (a : Nat), Mem.wf m = true → Mem.wf (Mem.writeBytes m a bs) = true
  | [], _, _, h => h
  | b :: bs, m, a, h => Mem.wf_writeBytes bs (Mem.write m a b) (a + 1) (Mem.wf_write m a b h)
theorem Mem.wf_clearRange (m : Mem) (a n : Nat) (h : Mem.wf m = true) : Mem.wf (Mem.clearRange m a n) = true := Sparse.wf_filter 0#8 _ m h

/-- A byte read after a byte written. -/
theorem Mem.read_write (m : Mem) (a k : Nat) (v : Byte) (h : Mem.wf m = true) :
    Mem.read (Mem.write m a v) k = if k = a then v else Mem.read m k := Sparse.get_set 0#8 m a k v h

/-- A byte outside the bytes written reads as before. -/
theorem Mem.read_writeBytes_ne : ∀ (bs : Bytes) (m : Mem) (a k : Nat), Mem.wf m = true → (k < a ∨ a + bs.length ≤ k) →
    Mem.read (Mem.writeBytes m a bs) k = Mem.read m k
  | [], _, _, _, _, _ => rfl
  | b :: bs, m, a, k, h, hk => by
    simp only [List.length_cons] at hk
    have hne : k ≠ a := by omega
    rw [Mem.writeBytes, Mem.read_writeBytes_ne bs _ (a + 1) k (Mem.wf_write m a b h) (by omega), Mem.read_write m a k b h]
    simp [hne]

end Sys2Proof
end

