-- ==== Sys2Proof/Laws/Keeps.lean ====
section
/-! SUPPORT. What one change of the state keeps: the form of State.Sound, the seal's monotonic counters and the queue; how it composes,
and what the accessors keep. -/

namespace Sys2Proof.Machine
open Sys2Proof

/-- t keeps what s has: soundness, counters at least as high, the same queue. -/
structure Keeps (s t : State) : Prop where
  sound : s.Sound → t.Sound
  floors : s.sealU.NotBelow t.sealU
  queue : t.pending = s.pending

/-- Every next state that an outcome gives keeps what s has. -/
def KeepsOut (s : State) (o : Host.Outcome State Fault Refusal) : Prop := ∀ t, o = .next t → Keeps s t

theorem Keeps.refl (s : State) : Keeps s s := ⟨id, ⟨Nat.le_refl _, Nat.le_refl _, Nat.le_refl _, Nat.le_refl _⟩, rfl⟩
theorem Keeps.trans {s t u : State} (h : Keeps s t) (k : Keeps t u) : Keeps s u :=
  ⟨fun x => k.sound (h.sound x), ⟨h.floors.1.trans k.floors.1, h.floors.2.1.trans k.floors.2.1, h.floors.2.2.1.trans k.floors.2.2.1,
    h.floors.2.2.2.trans k.floors.2.2.2⟩, k.queue.trans h.queue⟩
theorem KeepsOut.next {s t : State} (h : Keeps s t) : KeepsOut s (.next t) := fun u hu => by cases hu; exact h
theorem KeepsOut.refused {s : State} {r : Refusal} : KeepsOut s (.refused r) := fun u hu => by cases hu
theorem KeepsOut.fault {s : State} {r : Fault} : KeepsOut s (.fault r) := fun u hu => by cases hu

/-- A change that leaves the stores, the log, the seal and the queue alone. -/
theorem Keeps.same {s t : State} (h1 : t.bays = s.bays) (h2 : t.parcels = s.parcels) (h3 : t.fields = s.fields) (h4 : t.seams = s.seams) (h5 : t.casks = s.casks)
    (h6 : t.ports = s.ports) (h7 : t.taps = s.taps) (h8 : t.flog = s.flog) (h9 : t.sealU = s.sealU) (h10 : t.pending = s.pending) : Keeps s t := by
  refine ⟨fun h => ?_, ?_, h10⟩
  · simp only [State.Sound, State.Canonical, State.cask, h1, h2, h3, h4, h5, h6, h7, h8, h9] at h ⊢; exact h
  · simp only [Seal.NotBelow, h9]; exact ⟨Nat.le_refl _, Nat.le_refl _, Nat.le_refl _, Nat.le_refl _⟩

/-- A fold of changes. -/
theorem Keeps.foldl {α : Type} {s t : State} (f : State → α → State) (l : List α) (h : Keeps s t) (hf : ∀ u a, Keeps u (f u a)) : Keeps s (l.foldl f t) := by
  induction l generalizing t with
  | nil => exact h
  | cons a l ih => exact ih (h.trans (hf t a))
/-- A fold that carries a value beside the state. -/
theorem Keeps.foldl_fst {α β : Type} {s : State} (f : State × β → α → State × β) (l : List α) (x : State × β) (h : Keeps s x.1)
    (hf : ∀ u a, Keeps u.1 (f u a).1) : Keeps s (l.foldl f x).1 := by
  induction l generalizing x with
  | nil => exact h
  | cons a l ih => exact ih _ (h.trans (hf x a))

/- The accessors. -/
theorem State.setBay_keeps (s : State) (b : BayId) (x : Bay) : Keeps s (s.setBay b x) :=
  ⟨fun h => ⟨⟨Sparse.wf_set _ _ _ _ h.1.1, h.1.2⟩, h.2⟩, (Keeps.refl s).floors, rfl⟩
theorem State.setParcel_keeps (s : State) (p : Nat) (x : Parcel) : Keeps s (s.setParcel p x) :=
  ⟨fun h => ⟨⟨h.1.1, Sparse.wf_set _ _ _ _ h.1.2.1, h.1.2.2⟩, h.2⟩, (Keeps.refl s).floors, rfl⟩
theorem State.setField_keeps (s : State) (f : Nat) (x : Field) : Keeps s (s.setField f x) :=
  ⟨fun h => ⟨⟨h.1.1, h.1.2.1, Sparse.wf_set _ _ _ _ h.1.2.2.1, h.1.2.2.2⟩, h.2⟩, (Keeps.refl s).floors, rfl⟩
theorem State.setSeam_keeps (s : State) (n : Nat) (x : Seam) : Keeps s (s.setSeam n x) :=
  ⟨fun h => ⟨⟨h.1.1, h.1.2.1, h.1.2.2.1, Sparse.wf_set _ _ _ _ h.1.2.2.2.1, h.1.2.2.2.2⟩, h.2⟩, (Keeps.refl s).floors, rfl⟩
theorem State.setPort_keeps (s : State) (p : Nat) (x : Port) : Keeps s (s.setPort p x) :=
  ⟨fun h => ⟨⟨h.1.1, h.1.2.1, h.1.2.2.1, h.1.2.2.2.1, h.1.2.2.2.2.1, Sparse.wf_set _ _ _ _ h.1.2.2.2.2.2.1, h.1.2.2.2.2.2.2⟩, h.2⟩, (Keeps.refl s).floors, rfl⟩
theorem State.setTap_keeps (s : State) (t : Nat) (x : Tap) : Keeps s (s.setTap t x) :=
  ⟨fun h => ⟨⟨h.1.1, h.1.2.1, h.1.2.2.1, h.1.2.2.2.1, h.1.2.2.2.2.1, h.1.2.2.2.2.2.1, Sparse.wf_set _ _ _ _ h.1.2.2.2.2.2.2⟩, h.2⟩, (Keeps.refl s).floors, rfl⟩
/-- A cask may take any value whose memory is canonical. -/
theorem State.setCask_keeps (s : State) (c : Nat) (x : Cask) (hx : s.Sound → Mem.wf x.mem = true) : Keeps s (s.setCask c x) := by
  refine ⟨fun h => ⟨⟨h.1.1, h.1.2.1, h.1.2.2.1, h.1.2.2.2.1, Sparse.wf_set _ _ _ _ h.1.2.2.2.2.1, h.1.2.2.2.2.2⟩, fun k => ?_, h.2.2⟩, (Keeps.refl s).floors, rfl⟩
  simp only [State.cask, State.setCask, Sparse.get_set _ _ _ _ _ h.1.2.2.2.2.1]
  split
  · exact hx h
  · exact h.2.1 k
theorem State.modBay_keeps (s : State) (b : BayId) (f : Bay → Bay) : Keeps s (s.modBay b f) := s.setBay_keeps b _
theorem State.modParcel_keeps (s : State) (p : Nat) (g : Parcel → Parcel) : Keeps s (s.modParcel p g) := s.setParcel_keeps p _
theorem State.modField_keeps (s : State) (f : Nat) (g : Field → Field) : Keeps s (s.modField f g) := s.setField_keeps f _
theorem State.modSeam_keeps (s : State) (n : Nat) (g : Seam → Seam) : Keeps s (s.modSeam n g) := s.setSeam_keeps n _
theorem State.modPort_keeps (s : State) (p : Nat) (g : Port → Port) : Keeps s (s.modPort p g) := s.setPort_keeps p _
theorem State.modTap_keeps (s : State) (t : Nat) (g : Tap → Tap) : Keeps s (s.modTap t g) := s.setTap_keeps t _
theorem State.modCask_keeps (s : State) (c : Nat) (g : Cask → Cask) (hg : ∀ k : Cask, Mem.wf k.mem = true → Mem.wf (g k).mem = true) : Keeps s (s.modCask c g) :=
  s.setCask_keeps c _ (fun h => hg _ (h.2.1 c))

/-- A log that stays sound takes the old one's place. -/
theorem Keeps.log {s t : State} (h1 : t.bays = s.bays) (h2 : t.parcels = s.parcels) (h3 : t.fields = s.fields) (h4 : t.seams = s.seams) (h5 : t.casks = s.casks)
    (h6 : t.ports = s.ports) (h7 : t.taps = s.taps) (h8 : s.flog.Sound → t.flog.Sound) (h9 : t.sealU = s.sealU) (h10 : t.pending = s.pending) : Keeps s t := by
  refine ⟨fun h => ?_, ?_, h10⟩
  · have h8 := h8 h.2.2.1
    simp only [State.Sound, State.Canonical, State.cask, h1, h2, h3, h4, h5, h6, h7, h9] at h ⊢; exact ⟨h.1, h.2.1, h8, h.2.2.2⟩
  · simp only [Seal.NotBelow, h9]; exact ⟨Nat.le_refl _, Nat.le_refl _, Nat.le_refl _, Nat.le_refl _⟩
/-- So does a seal with eight registers and counters at least as high. -/
theorem Keeps.ofSeal {s t : State} (h1 : t.bays = s.bays) (h2 : t.parcels = s.parcels) (h3 : t.fields = s.fields) (h4 : t.seams = s.seams) (h5 : t.casks = s.casks)
    (h6 : t.ports = s.ports) (h7 : t.taps = s.taps) (h8 : t.flog = s.flog) (h9 : s.sealU.mr.length = 8 → t.sealU.mr.length = 8) (h10 : t.pending = s.pending)
    (h11 : s.sealU.NotBelow t.sealU) : Keeps s t := by
  refine ⟨fun h => ?_, h11, h10⟩
  have h9 := h9 h.2.2.2
  simp only [State.Sound, State.Canonical, State.cask, h1, h2, h3, h4, h5, h6, h7, h8] at h ⊢; exact ⟨h.1, h.2.1, h.2.2.1, h9⟩

theorem FaultLog.push_sound (l : FaultLog) (e : LogEnt) (he : e.seq = l.next) (h : l.Sound) : (l.push e).Sound := by
  obtain ⟨h1, h2, h3⟩ := h
  unfold FaultLog.push
  split
  · rename_i hl
    refine ⟨by simp; omega, ?_, ?_⟩
    · simp only [List.map_append, List.map_cons, List.map_nil, List.pairwise_append]
      refine ⟨h2, by simp, ?_⟩
      simp only [List.mem_map, List.mem_singleton]
      rintro a ⟨x, hx, rfl⟩ b rfl
      rw [he]; exact h3 x hx
    · intro x hx
      simp only [List.mem_append, List.mem_singleton] at hx
      rcases hx with hx | rfl
      · exact Nat.lt_succ_of_lt (h3 x hx)
      · rw [he]; exact Nat.lt_succ_self _
  · rename_i hl
    have hd : (List.map (fun e => e.seq) (l.ring.drop 1)).Pairwise (fun a b => a < b) := by
      rw [List.map_drop]; exact h2.drop
    refine ⟨by simp; omega, ?_, ?_⟩
    · simp only [List.map_append, List.map_cons, List.map_nil, List.pairwise_append]
      refine ⟨hd, by simp, ?_⟩
      simp only [List.mem_map, List.mem_singleton]
      rintro a ⟨x, hx, rfl⟩ b rfl
      rw [he]; exact h3 x (List.mem_of_mem_drop hx)
    · intro x hx
      simp only [List.mem_append, List.mem_singleton] at hx
      rcases hx with hx | rfl
      · exact Nat.lt_succ_of_lt (h3 x (List.mem_of_mem_drop hx))
      · rw [he]; exact Nat.lt_succ_self _
/-- Changes of entries that leave their SEQ alone. -/
theorem FaultLog.map_sound (l m : FaultLog) (g : LogEnt → LogEnt) (hg : ∀ e, (g e).seq = e.seq) (hr : m.ring = l.ring.map g) (hn : m.next = l.next) (h : l.Sound) : m.Sound := by
  obtain ⟨h1, h2, h3⟩ := h
  refine ⟨by rw [hr]; simpa using h1, ?_, ?_⟩
  · rw [hr, List.map_map]
    have : ((fun e : LogEnt => e.seq) ∘ g) = fun e => e.seq := funext hg
    rw [this]; exact h2
  · intro x hx
    rw [hr, List.mem_map] at hx
    obtain ⟨y, hy, rfl⟩ := hx
    rw [hg, hn]; exact h3 y hy
theorem FaultLog.empty_sound (m : FaultLog) (hr : m.ring = []) : m.Sound := by simp [FaultLog.Sound, hr]
theorem FaultLog.writeSummary_sound (l : FaultLog) (now : Nat) (h : l.Sound) : (l.writeSummary now).Sound :=
  FaultLog.map_sound l _ (fun e => if bitsOf e.eflag 3 1 == 0 then { e with eflag := e.eflag + 8 } else e) (fun e => by split <;> rfl) rfl rfl h

/- Every operation of a cask's memory keeps its canonical form. -/
theorem Cask.store_mem (k : Cask) (a : Nat) (bs : Bytes) (p : Bool) (h : Mem.wf k.mem = true) : Mem.wf (k.store a bs p).mem = true := Mem.wf_writeBytes bs k.mem a h
theorem Cask.journalPiece_mem (k : Cask) (a : Nat) (h : Mem.wf k.mem = true) : Mem.wf (k.journalPiece a).mem = true := by
  unfold Cask.journalPiece; split <;> exact h
theorem Cask.foldl_mem {α : Type} (f : Cask → α → Cask) (hf : ∀ k a, Mem.wf k.mem = true → Mem.wf (f k a).mem = true) :
    ∀ (l : List α) (k : Cask), Mem.wf k.mem = true → Mem.wf (l.foldl f k).mem = true
  | [], _, h => h
  | a :: l, k, h => Cask.foldl_mem f hf l (f k a) (hf k a h)
theorem Cask.commit_mem (k : Cask) (u : Option Int) (h : Mem.wf k.mem = true) : Mem.wf (k.commit u).mem = true :=
  Cask.foldl_mem _ (fun c w hc => Cask.store_mem _ _ _ _ (Cask.journalPiece_mem c w.off hc)) _ _ h
theorem Cask.rewind_mem (k : Cask) (h : Mem.wf k.mem = true) : Mem.wf k.rewind.mem = true :=
  Cask.foldl_mem _ (fun c e hc => Cask.store_mem c e.1 e.2.1 e.2.2 hc) _ _ h
theorem Cask.putBytes_mem (k : Cask) (r : Region) (off : Nat) (bs : Bytes) (h : Mem.wf k.mem = true) : Mem.wf (k.putBytes r off bs).mem = true :=
  Cask.foldl_mem _ (fun c _ hc => Cask.store_mem c _ _ _ hc) _ _ h

end Sys2Proof.Machine
end

