-- ==== Sys2Proof/Laws/Ops.lean ====
section
/-! SUPPORT. What each shared operation can do, said once: what a port's event, a log entry and a report change, and what an operation of one bay answers. -/

namespace Sys2Proof.Machine
open Sys2Proof

/-- An output of a port changes ports and the outputs. -/
theorem State.emitPort_eq (s : State) (p : Nat) (o : OutEv) : ∃ ps os, s.emitPort p o = { s with ports := ps, out := os } := by
  unfold State.emitPort; split
  · exact ⟨_, s.out, rfl⟩
  · exact ⟨s.ports, _, rfl⟩
theorem State.vector_eq (s : State) (p v : Nat) : ∃ ps os, s.vector p v = { s with ports := ps, out := os } := by
  simp only [State.vector]; split
  · exact ⟨_, s.out, rfl⟩
  · exact s.emitPort_eq p _
theorem State.event_eq (s : State) (p k : Nat) : ∃ ps os, s.event p k = { s with ports := ps, out := os } := by
  simp only [State.event]; split
  · exact ⟨s.ports, s.out, rfl⟩
  · split
    · obtain ⟨ps, os, h⟩ := (s.modPort p (fun q => { q with evtPend := q.evtPend ||| BitVec.ofNat 16 (2 ^ k) })).vector_eq p (64 + k)
      exact ⟨ps, os, h⟩
    · exact ⟨_, s.out, rfl⟩
theorem State.eventOwner_eq (s : State) (p k : Nat) : ∃ ps os, s.eventOwner p k = { s with ports := ps, out := os } := s.event_eq _ k
theorem State.eventList_eq (k : Nat) : ∀ (l : List Nat) (s : State), ∃ ps os, l.foldl (fun s p => s.event p k) s = { s with ports := ps, out := os }
  | [], s => ⟨s.ports, s.out, rfl⟩
  | p :: l, s => by
    obtain ⟨ps, os, h⟩ := s.event_eq p k
    obtain ⟨ps', os', h'⟩ := State.eventList_eq k l (s.event p k)
    exact ⟨ps', os', by rw [List.foldl_cons, h', h]⟩
theorem State.eventAll_eq (s : State) (k : Nat) : ∃ ps os, s.eventAll k = { s with ports := ps, out := os } := State.eventList_eq k _ s
theorem State.setPState_eq (s : State) (p : Nat) (st : PState) : ∃ qs ps os, s.setPState p st = { s with parcels := qs, ports := ps, out := os } := by
  unfold State.setPState; split
  · exact ⟨s.parcels, s.ports, s.out, rfl⟩
  · obtain ⟨ps, os, h⟩ := (s.modParcel p (fun x => { x with st := st })).eventOwner_eq p 2
    exact ⟨_, ps, os, h⟩

/-- A log entry joins the ring with the next SEQ and a vector of the ports that see it (15 R324, 17 R361). -/
theorem State.logEntry_eq (s : State) (r : Report) (sec : Bool) :
    ∃ e ps os, e.seq = s.flog.next ∧ e.code = r.code ∧ s.logEntry r sec = { s with flog := s.flog.push e, ports := ps, out := os } := by
  simp only [State.logEntry]
  split
  · obtain ⟨ps, os, h⟩ := State.eventOwner_eq { s with flog := s.flog.push _ } _ 0
    exact ⟨_, ps, os, rfl, rfl, h⟩
  · obtain ⟨ps, os, h⟩ := State.eventAll_eq { s with flog := s.flog.push _ } 0
    exact ⟨_, ps, os, rfl, rfl, h⟩
/-- A report makes one entry and at most fails a run: it changes the log, parcels, ports and the outputs, nothing else (15 R310, R324). -/
theorem State.report_eq (s : State) (r : Report) :
    ∃ e qs ps os, e.seq = s.flog.next ∧ e.code = r.code ∧ s.report r = { s with flog := s.flog.push e, parcels := qs, ports := ps, out := os } := by
  have plain : ∀ sec, ∃ e qs ps os, e.seq = s.flog.next ∧ e.code = r.code ∧
      s.logEntry r sec = { s with flog := s.flog.push e, parcels := qs, ports := ps, out := os } := fun sec => by
    obtain ⟨e, ps, os, h1, h2, h3⟩ := s.logEntry_eq r sec
    exact ⟨e, s.parcels, ps, os, h1, h2, h3⟩
  unfold State.report
  split
  · split
    · split
      · split
        · exact plain true
        · obtain ⟨e, ps, os, h1, h2, h3⟩ := s.logEntry_eq r false
          exact ⟨e, _, ps, os, h1, h2, by rw [h3]; rfl⟩
      · exact plain false
    · exact plain false
  · exact plain false

/-- An operation of one bay of the grid completes: with the operation's effect, or with none where the slot is ill-formed. -/
theorem State.bayOp_ok (s : State) (b : BayId) (ok : Bool) (f : BCtx → BayM → BayM) (h : b.ok = true) :
    s.bayOp b ok f = .next (if ok then s.runBay b f else s) := by unfold State.bayOp; rw [if_pos h]
theorem State.bayOp_off (s : State) (b : BayId) (ok : Bool) (f : BCtx → BayM → BayM) (h : b.ok = false) :
    s.bayOp b ok f = .refused .noSuchUnit := by unfold State.bayOp; rw [if_neg (by simp [h])]
/-- An entry of the agenda moves no count. -/
@[simp] theorem Bay.due_seq (x : Bay) (c : Int) (k : Nat) (e : BEv) : (x.due c k e).seq = x.seq := rfl
/-- A press moves no count. -/
@[simp] theorem Bay.setPress_seq (x : Bay) (i : Nat) (p : Press) : (x.setPress i p).seq = x.seq := rfl
/-- A fault noted for a later count moves no count. -/
@[simp] theorem Bay.faultAt_seq (x : Bay) (c : Int) (code idx : Nat) (d : List (Nat × Nat)) : (x.faultAt c code idx d).seq = x.seq := rfl

/-- An operation that does not bring the bay to a later count: its bay, then its outputs in order. -/
theorem State.runBay_still (s : State) (b : BayId) (f : BCtx → BayM → BayM)
    (ht : (f (s.bctx b) { bay := s.bay b, out := [] }).bay.seq.ticked = (s.bay b).seq.ticked) :
    s.runBay b f = (f (s.bctx b) { bay := s.bay b, out := [] }).out.foldl (fun s o => s.bout b o) (s.setBay b (f (s.bctx b) { bay := s.bay b, out := [] }).bay) := by
  unfold State.runBay; exact if_pos ht
/-- Such an operation with no output leaves everything but its bay alone. -/
theorem State.runBay_quiet (s : State) (b : BayId) (f : BCtx → BayM → BayM) (h : (f (s.bctx b) { bay := s.bay b, out := [] }).out = [])
    (ht : (f (s.bctx b) { bay := s.bay b, out := [] }).bay.seq.ticked = (s.bay b).seq.ticked) :
    s.runBay b f = s.setBay b (f (s.bctx b) { bay := s.bay b, out := [] }).bay := by rw [s.runBay_still b f ht, h, List.foldl_nil]

/-- Putting a transaction on the racking unit moves no count and sends nothing out. -/
theorem issueRack_frame (cx : BCtx) (m : BayM) (u : Int) (on : Bool) (kind : Nat) (f : RackF) (grp : Nat) (beats : List Ecc) :
    (issueRack cx m u on kind f grp beats).bay.seq = m.bay.seq ∧ (issueRack cx m u on kind f grp beats).out = m.out := by
  refine ⟨?_, rfl⟩
  simp only [issueRack, BayM.upd]
  rw [apply_ite Bay.seq]; simp
/-- A bank's power command moves no count. -/
theorem vpowerBank_seq (u : Int) (pw : BankPower) (x : Bay) (k : Nat) : (vpowerBank u pw x k).seq = x.seq := by
  unfold vpowerBank; dsimp only; repeat' split
  all_goals simp
/-- VPOWER moves no count and sends nothing out. -/
theorem opVpower_frame (m : BayM) (u : Int) (sel : BitVec 14) (st : BitVec 2) (reg : Bool) :
    (opVpower m u sel st reg).bay.seq = m.bay.seq ∧ (opVpower m u sel st reg).out = m.out := by
  refine ⟨?_, rfl⟩
  have h : ∀ (l : List Nat) (x : Bay), (l.foldl (vpowerBank u (powerOf st)) x).seq = x.seq := by
    intro l; induction l with
    | nil => intro x; rfl
    | cons k l ih => intro x; rw [List.foldl_cons, ih, vpowerBank_seq]
  exact h _ _
/-- Noting a fault of the prologue moves no count. -/
@[simp] theorem BayM.proFault_seq (m : BayM) (p : Bool) : (m.proFault p).bay.seq = m.bay.seq := by
  unfold BayM.proFault; split <;> rfl
/-- A fault that leaves the bay moves no count. -/
@[simp] theorem BayM.raise_seq (m : BayM) (code : Nat) (c : Int) (i : Nat) (d : List (Nat × Nat)) : (m.raise code c i d).bay.seq = m.bay.seq :=
  m.proFault_seq _
/-- A breach moves no count. -/
@[simp] theorem BayM.breach_seq (m : BayM) (cause : Nat) (c : Int) (unit : Nat) : (m.breach cause c unit).bay.seq = m.bay.seq := by
  unfold BayM.breach; dsimp only; split
  · exact m.proFault_seq _
  · exact m.proFault_seq _
/-- A term that one lane tun accumulates moves no count. -/
@[simp] theorem accLane_seq (c : Int) (m : BayM) (lt l : Nat) (p : Exact) : (accLane c m lt l p).bay.seq = m.bay.seq := by
  unfold accLane; dsimp only; split
  · exact BayM.breach_seq _ _ _ _
  · rfl
/-- A combination into one lane tun moves no count. -/
@[simp] theorem combineLane_seq (c : Int) (m : BayM) (lt l : Nat) (o : CombineOut) : (combineLane c m lt l o).bay.seq = m.bay.seq := by
  unfold combineLane; repeat' split
  all_goals simp [BayM.upd]
theorem foldl_seq {α : Type} (f : BayM → α → BayM) (hf : ∀ m a, (f m a).bay.seq = m.bay.seq) : ∀ (l : List α) (m : BayM),
    (l.foldl f m).bay.seq = m.bay.seq
  | [], _ => rfl
  | a :: l, m => by rw [List.foldl_cons, foldl_seq f hf l, hf]
/-- A lathe result that lands moves no count. -/
@[simp] theorem latheLand_seq (c : Int) (m : BayM) (d : LDest) : (latheLand c m d).bay.seq = m.bay.seq := by
  cases d with
  | tterms lt mask terms => exact foldl_seq _ (fun m p => by split <;> simp) _ m
  | xsum lt terms => exact foldl_seq _ (fun m p => accLane_seq c m lt 0 p) _ m
  | tsum lt o => exact combineLane_seq c m lt 0 o
  | tload lt w bytes => exact foldl_seq _ (fun m i => combineLane_seq _ _ _ _ _) _ m
  | _ => rfl

end Sys2Proof.Machine
end

