-- ==== Sys2Proof/Laws/PerInstr.lean ====
section
/-! SUPPORT. Per command: a well-formed instruction of a bay names a bay of the grid; every other command is judged by its own meaning. -/

namespace Sys2Proof.Laws.WF
open Sys2Proof

/-- The bay that executes an instruction of a bay; none for the commands that are no instruction of a bay. -/
def bayOf : Instr → Option BayId
  | .bundleIssue b .. | .loop b .. | .peg b .. | .endPlan b .. | .crush b .. | .iset b .. | .iseth b .. | .istep b .. | .ild b ..
  | .qset b .. | .qmask b .. | .qiter b .. | .pegOverdue b .. | .lda b .. | .ldb b .. | .setup b .. | .kstep b ..
  | .cellAccumulate b .. | .shim b .. | .drain b .. | .drainr b .. | .drainRowCapture b .. | .taste b .. | .tasteRowCompare b ..
  | .mode b .. | .clrf b .. | .iadd b .. | .isub b .. | .imul b .. | .iand b .. | .ior b .. | .ixor b .. | .ishl b ..
  | .ishr b .. | .isra b .. | .imin b .. | .imax b .. | .icmpEq b .. | .icmpLt b .. | .icmpLtu b .. | .mov b .. | .sel b ..
  | .bcast b .. | .movc b .. | .fabs b .. | .fneg b .. | .fadd b .. | .fsub b .. | .fmul b .. | .ffma b .. | .fmin b ..
  | .fmax b .. | .fcmpEq b .. | .fcmpLt b .. | .fcmpLe b .. | .cvtI2f b .. | .cvtF2i b .. | .cvtUnpack b .. | .cvtPack b ..
  | .frcp b .. | .fsqrt b .. | .frsqrt b .. | .fexp b .. | .fexp2 b .. | .flog b .. | .flog2 b .. | .ftanh b .. | .fsigm b ..
  | .fsilu b .. | .fgelus b .. | .fgelut b .. | .rsum b .. | .rmax b .. | .tclr b .. | .tacc b .. | .tmac b .. | .xsum b ..
  | .tsum b .. | .tloadc b .. | .tstore b .. | .tdrain b .. | .cgen b .. | .lfrd b .. | .lfclr b .. | .vld b .. | .vst b ..
  | .latheResultLand b .. | .vfillPattern b .. | .vfillTun b .. | .vcopy b .. | .vmode b .. | .vpower b .. | .bankSleep b ..
  | .bankWake b .. | .crd b .. | .cwr b .. | .cbw b .. | .crdDelivery b .. | .gather b .. | .scatter b .. | .scatterAdd b ..
  | .dotSweep b .. | .softblend b .. | .digest b .. | .fill b .. | .copy b .. | .sillOpResult b .. | .send b .. | .recv b ..
  | .flitArrive b .. => some b
  | .lathMessageReceive .. | .pegCheck .. | .plan .. | .pegtab .. | .micro .. | .stopDecision .. | .parcelStop .. | .restart ..
  | .stopResume .. | .vintageValid .. | .park .. | .invocationStart .. | .invocationComplete .. | .labelSigned .. | .rollback ..
  | .cmstLockstep .. | .sealLockstep .. | .entropyHealthFail .. | .switch .. | .cancel .. | .align .. | .epochLoad ..
  | .alignCheck .. | .switchUnlocked .. | .switchAtCount .. | .switched .. | .stretchLocal .. | .stretchWave ..
  | .crossingOverrun .. | .refLoss .. | .refRestored .. | .ptmExchange .. | .hvEnAssert .. | .hvEnDeassert ..
  | .plateResetExit .. | .modResetN .. | .thermtripN .. | .inputLoss .. | .inputReturned .. | .inputRestored ..
  | .rideThroughEnd .. | .converterDegraded .. | .busCollapse .. | .insulationCheck .. | .phaseDegraded .. | .fallbackActive ..
  | .verticalDegraded .. | .trimDegraded .. | .bentRetired .. | .strutInject .. | .crackCheck .. | .fieldShort ..
  | .fieldSupplyLost .. | .plateLathLost .. | .trellisControlLoop .. | .trellisReload .. | .forecastPublish .. | .phaseLearn ..
  | .crushHint .. | .leaseExpired .. | .contractMissed .. | .claim .. | .verifyFw .. | .startCmst .. | .cmstReady ..
  | .verifyConfig .. | .raise .. | .unpark .. | .raiseStepTimeout .. | .raiseDone .. | .perstN .. | .flr .. | .give ..
  | .bar2Write .. | .bar2Read .. | .bar2ReadTimeout .. | .segIn .. | .segOut .. | .msg .. | .counterLowRead ..
  | .counterSatClear .. | .registerWrite .. | .trlFastCap .. | .fastCapEffect .. | .prtFsw .. | .prtInjGo .. | .injection ..
  | .sysInfo .. | .sysPrincipalMove .. | .parcelCreate .. | .parcelDelete .. | .parcelAssign .. | .parcelPark ..
  | .parcelResume .. | .parcelStatus .. | .imageLoad .. | .imageUnload .. | .imageInfo .. | .caskWindowSet ..
  | .caskWindowClear .. | .caskTransfer .. | .caskRegionClose .. | .regionDigestDone .. | .caskStaveFail .. | .caskStatus ..
  | .staveFailing .. | .staveSpared .. | .restStarved .. | .vatRetentionScrub .. | .planScrub .. | .patrolScrub .. | .rackOpen ..
  | .rackClose .. | .rackStatus .. | .runStart .. | .runAbort .. | .runResult .. | .vintageDrawRequest .. | .vintageExport ..
  | .vintageRestore .. | .vintageStatus .. | .powerCapSet .. | .powerShareSet .. | .powerLeaseSet .. | .powerContractSet ..
  | .powerForecast .. | .powerStatus .. | .powerSidebandSet .. | .soundRun .. | .faultLog .. | .faultSummary ..
  | .faultLogClear .. | .faultCounters .. | .tapConfig .. | .tapKeySet .. | .tapStatus .. | .tapLinkChange .. | .frameReceive ..
  | .arpRequest .. | .neighbourSolicitation .. | .echoRequest .. | .readReq .. | .data .. | .sack .. | .credit .. | .fail ..
  | .offer .. | .segmentLanded .. | .rackCreditTimer .. | .rackRerequest .. | .rackBusyRetry .. | .offerResend .. | .pourStart ..
  | .pourStop .. | .pourSubmit .. | .pourCancel .. | .pourStatus .. | .pourLabel .. | .request .. | .append .. | .cancelFrame ..
  | .fetch .. | .pourIncompleteTimeout .. | .pourStepStart .. | .pourStepEnd .. | .sealAttest .. | .sealCertGet ..
  | .sealLicenceInstall .. | .sealKeysAdd .. | .sealKeysRemove .. | .sealKeysList .. | .sealDebugUnlock .. | .perturbEnable ..
  | .perturbDisable .. | .setEndpointId .. | .linkUp .. | .d3hot .. | .stagingWindowWrite .. | .slotWrite ..
  | .pluggablePresence .. | .regExchangeRetry .. | .summaryWrite .. | .hvEnHoldEnd .. | .stretchInjection ..
  | .jtagInstruction .. | .setdasa .. => none

/-- What holds of every command as syntax. -/
def Statement (i : Instr) : Prop := (∀ b, bayOf i = some b → i.wf = true → b.ok = true) ∧ (bayOf i = none → i.wf = true)

theorem and1 {x y : Bool} (h : (x && y) = true) : x = true := by cases x <;> simp_all
theorem and2 {x y z : Bool} (h : (x && y && z) = true) : x = true := and1 (and1 h)
theorem and3 {x y z w : Bool} (h : (x && y && z && w) = true) : x = true := and1 (and2 h)
theorem and4 {x y z w v : Bool} (h : (x && y && z && w && v) = true) : x = true := and1 (and3 h)
theorem bundleIssue : ∀ a0 a1 a2, Statement (.bundleIssue a0 a1 a2) := by
  intros; exact ⟨fun _ h k => Option.some.inj h ▸ k, nofun⟩
theorem loop : ∀ a0 a1 a2, Statement (.loop a0 a1 a2) := by
  intros; exact ⟨fun _ h k => Option.some.inj h ▸ k, nofun⟩
theorem peg : ∀ a0 a1 a2 a3 a4, Statement (.peg a0 a1 a2 a3 a4) := by
  intros; exact ⟨fun _ h k => Option.some.inj h ▸ k, nofun⟩
theorem endPlan : ∀ a0 a1 a2 a3 a4, Statement (.endPlan a0 a1 a2 a3 a4) := by
  intros; exact ⟨fun _ h k => Option.some.inj h ▸ k, nofun⟩
theorem crush : ∀ a0 a1 a2, Statement (.crush a0 a1 a2) := by
  intros; exact ⟨fun _ h k => Option.some.inj h ▸ and1 k, nofun⟩
theorem iset : ∀ a0 a1 a2 a3, Statement (.iset a0 a1 a2 a3) := by
  intros; exact ⟨fun _ h k => Option.some.inj h ▸ k, nofun⟩
theorem iseth : ∀ a0 a1 a2 a3, Statement (.iseth a0 a1 a2 a3) := by
  intros; exact ⟨fun _ h k => Option.some.inj h ▸ k, nofun⟩
theorem istep : ∀ a0 a1 a2 a3, Statement (.istep a0 a1 a2 a3) := by
  intros; exact ⟨fun _ h k => Option.some.inj h ▸ k, nofun⟩
theorem ild : ∀ a0 a1 a2 a3 a4, Statement (.ild a0 a1 a2 a3 a4) := by
  intros; exact ⟨fun _ h k => Option.some.inj h ▸ k, nofun⟩
theorem qset : ∀ a0 a1 a2 a3, Statement (.qset a0 a1 a2 a3) := by
  intros; exact ⟨fun _ h k => Option.some.inj h ▸ k, nofun⟩
theorem qmask : ∀ a0 a1 a2 a3 a4, Statement (.qmask a0 a1 a2 a3 a4) := by
  intros; exact ⟨fun _ h k => Option.some.inj h ▸ k, nofun⟩
theorem qiter : ∀ a0 a1 a2 a3 a4, Statement (.qiter a0 a1 a2 a3 a4) := by
  intros; exact ⟨fun _ h k => Option.some.inj h ▸ k, nofun⟩
theorem pegOverdue : ∀ a0, Statement (.pegOverdue a0) := by
  intros; exact ⟨fun _ h k => Option.some.inj h ▸ k, nofun⟩
theorem lda : ∀ a0 a1 a2 a3, Statement (.lda a0 a1 a2 a3) := by
  intros; exact ⟨fun _ h k => Option.some.inj h ▸ and1 k, nofun⟩
theorem ldb : ∀ a0 a1 a2 a3, Statement (.ldb a0 a1 a2 a3) := by
  intros; exact ⟨fun _ h k => Option.some.inj h ▸ and1 k, nofun⟩
theorem setup : ∀ a0 a1 a2, Statement (.setup a0 a1 a2) := by
  intros; exact ⟨fun _ h k => Option.some.inj h ▸ and1 k, nofun⟩
theorem kstep : ∀ a0 a1 a2 a3, Statement (.kstep a0 a1 a2 a3) := by
  intros; exact ⟨fun _ h k => Option.some.inj h ▸ and1 k, nofun⟩
theorem cellAccumulate : ∀ a0 a1 a2 a3, Statement (.cellAccumulate a0 a1 a2 a3) := by
  intros; exact ⟨fun _ h k => Option.some.inj h ▸ and2 k, nofun⟩
theorem shim : ∀ a0 a1 a2 a3 a4, Statement (.shim a0 a1 a2 a3 a4) := by
  intros; exact ⟨fun _ h k => Option.some.inj h ▸ and2 k, nofun⟩
theorem drain : ∀ a0 a1 a2 a3, Statement (.drain a0 a1 a2 a3) := by
  intros; exact ⟨fun _ h k => Option.some.inj h ▸ and1 k, nofun⟩
theorem drainr : ∀ a0 a1 a2 a3, Statement (.drainr a0 a1 a2 a3) := by
  intros; exact ⟨fun _ h k => Option.some.inj h ▸ and1 k, nofun⟩
theorem drainRowCapture : ∀ a0 a1 a2, Statement (.drainRowCapture a0 a1 a2) := by
  intros; exact ⟨fun _ h k => Option.some.inj h ▸ k, nofun⟩
theorem taste : ∀ a0 a1 a2 a3, Statement (.taste a0 a1 a2 a3) := by
  intros; exact ⟨fun _ h k => Option.some.inj h ▸ and3 k, nofun⟩
theorem tasteRowCompare : ∀ a0, Statement (.tasteRowCompare a0) := by
  intros; exact ⟨fun _ h k => Option.some.inj h ▸ k, nofun⟩
theorem mode : ∀ a0 a1 a2, Statement (.mode a0 a1 a2) := by
  intros; exact ⟨fun _ h k => Option.some.inj h ▸ k, nofun⟩
theorem clrf : ∀ a0 a1 a2, Statement (.clrf a0 a1 a2) := by
  intros; exact ⟨fun _ h k => Option.some.inj h ▸ k, nofun⟩
theorem iadd : ∀ a0 a1 a2, Statement (.iadd a0 a1 a2) := by
  intros; exact ⟨fun _ h k => Option.some.inj h ▸ and1 k, nofun⟩
theorem isub : ∀ a0 a1 a2, Statement (.isub a0 a1 a2) := by
  intros; exact ⟨fun _ h k => Option.some.inj h ▸ and1 k, nofun⟩
theorem imul : ∀ a0 a1 a2, Statement (.imul a0 a1 a2) := by
  intros; exact ⟨fun _ h k => Option.some.inj h ▸ and1 k, nofun⟩
theorem iand : ∀ a0 a1 a2, Statement (.iand a0 a1 a2) := by
  intros; exact ⟨fun _ h k => Option.some.inj h ▸ and1 k, nofun⟩
theorem ior : ∀ a0 a1 a2, Statement (.ior a0 a1 a2) := by
  intros; exact ⟨fun _ h k => Option.some.inj h ▸ and1 k, nofun⟩
theorem ixor : ∀ a0 a1 a2, Statement (.ixor a0 a1 a2) := by
  intros; exact ⟨fun _ h k => Option.some.inj h ▸ and1 k, nofun⟩
theorem ishl : ∀ a0 a1 a2, Statement (.ishl a0 a1 a2) := by
  intros; exact ⟨fun _ h k => Option.some.inj h ▸ and1 k, nofun⟩
theorem ishr : ∀ a0 a1 a2, Statement (.ishr a0 a1 a2) := by
  intros; exact ⟨fun _ h k => Option.some.inj h ▸ and1 k, nofun⟩
theorem isra : ∀ a0 a1 a2, Statement (.isra a0 a1 a2) := by
  intros; exact ⟨fun _ h k => Option.some.inj h ▸ and1 k, nofun⟩
theorem imin : ∀ a0 a1 a2, Statement (.imin a0 a1 a2) := by
  intros; exact ⟨fun _ h k => Option.some.inj h ▸ and1 k, nofun⟩
theorem imax : ∀ a0 a1 a2, Statement (.imax a0 a1 a2) := by
  intros; exact ⟨fun _ h k => Option.some.inj h ▸ and1 k, nofun⟩
theorem icmpEq : ∀ a0 a1 a2, Statement (.icmpEq a0 a1 a2) := by
  intros; exact ⟨fun _ h k => Option.some.inj h ▸ and1 k, nofun⟩
theorem icmpLt : ∀ a0 a1 a2, Statement (.icmpLt a0 a1 a2) := by
  intros; exact ⟨fun _ h k => Option.some.inj h ▸ and1 k, nofun⟩
theorem icmpLtu : ∀ a0 a1 a2, Statement (.icmpLtu a0 a1 a2) := by
  intros; exact ⟨fun _ h k => Option.some.inj h ▸ and1 k, nofun⟩
theorem mov : ∀ a0 a1 a2, Statement (.mov a0 a1 a2) := by
  intros; exact ⟨fun _ h k => Option.some.inj h ▸ and1 k, nofun⟩
theorem sel : ∀ a0 a1 a2, Statement (.sel a0 a1 a2) := by
  intros; exact ⟨fun _ h k => Option.some.inj h ▸ and1 k, nofun⟩
theorem bcast : ∀ a0 a1 a2, Statement (.bcast a0 a1 a2) := by
  intros; exact ⟨fun _ h k => Option.some.inj h ▸ and1 k, nofun⟩
theorem movc : ∀ a0 a1 a2, Statement (.movc a0 a1 a2) := by
  intros; exact ⟨fun _ h k => Option.some.inj h ▸ and2 k, nofun⟩
theorem fabs : ∀ a0 a1 a2, Statement (.fabs a0 a1 a2) := by
  intros; exact ⟨fun _ h k => Option.some.inj h ▸ and1 k, nofun⟩
theorem fneg : ∀ a0 a1 a2, Statement (.fneg a0 a1 a2) := by
  intros; exact ⟨fun _ h k => Option.some.inj h ▸ and1 k, nofun⟩
theorem fadd : ∀ a0 a1 a2, Statement (.fadd a0 a1 a2) := by
  intros; exact ⟨fun _ h k => Option.some.inj h ▸ and1 k, nofun⟩
theorem fsub : ∀ a0 a1 a2, Statement (.fsub a0 a1 a2) := by
  intros; exact ⟨fun _ h k => Option.some.inj h ▸ and1 k, nofun⟩
theorem fmul : ∀ a0 a1 a2, Statement (.fmul a0 a1 a2) := by
  intros; exact ⟨fun _ h k => Option.some.inj h ▸ and1 k, nofun⟩
theorem ffma : ∀ a0 a1 a2, Statement (.ffma a0 a1 a2) := by
  intros; exact ⟨fun _ h k => Option.some.inj h ▸ and1 k, nofun⟩
theorem fmin : ∀ a0 a1 a2, Statement (.fmin a0 a1 a2) := by
  intros; exact ⟨fun _ h k => Option.some.inj h ▸ and1 k, nofun⟩
theorem fmax : ∀ a0 a1 a2, Statement (.fmax a0 a1 a2) := by
  intros; exact ⟨fun _ h k => Option.some.inj h ▸ and1 k, nofun⟩
theorem fcmpEq : ∀ a0 a1 a2, Statement (.fcmpEq a0 a1 a2) := by
  intros; exact ⟨fun _ h k => Option.some.inj h ▸ and1 k, nofun⟩
theorem fcmpLt : ∀ a0 a1 a2, Statement (.fcmpLt a0 a1 a2) := by
  intros; exact ⟨fun _ h k => Option.some.inj h ▸ and1 k, nofun⟩
theorem fcmpLe : ∀ a0 a1 a2, Statement (.fcmpLe a0 a1 a2) := by
  intros; exact ⟨fun _ h k => Option.some.inj h ▸ and1 k, nofun⟩
theorem cvtI2f : ∀ a0 a1 a2, Statement (.cvtI2f a0 a1 a2) := by
  intros; exact ⟨fun _ h k => Option.some.inj h ▸ and1 k, nofun⟩
theorem cvtF2i : ∀ a0 a1 a2, Statement (.cvtF2i a0 a1 a2) := by
  intros; exact ⟨fun _ h k => Option.some.inj h ▸ and1 k, nofun⟩
theorem cvtUnpack : ∀ a0 a1 a2, Statement (.cvtUnpack a0 a1 a2) := by
  intros; exact ⟨fun _ h k => Option.some.inj h ▸ and2 k, nofun⟩
theorem cvtPack : ∀ a0 a1 a2, Statement (.cvtPack a0 a1 a2) := by
  intros; exact ⟨fun _ h k => Option.some.inj h ▸ and2 k, nofun⟩
theorem frcp : ∀ a0 a1 a2, Statement (.frcp a0 a1 a2) := by
  intros; exact ⟨fun _ h k => Option.some.inj h ▸ and1 k, nofun⟩
theorem fsqrt : ∀ a0 a1 a2, Statement (.fsqrt a0 a1 a2) := by
  intros; exact ⟨fun _ h k => Option.some.inj h ▸ and1 k, nofun⟩
theorem frsqrt : ∀ a0 a1 a2, Statement (.frsqrt a0 a1 a2) := by
  intros; exact ⟨fun _ h k => Option.some.inj h ▸ and1 k, nofun⟩
theorem fexp : ∀ a0 a1 a2, Statement (.fexp a0 a1 a2) := by
  intros; exact ⟨fun _ h k => Option.some.inj h ▸ and1 k, nofun⟩
theorem fexp2 : ∀ a0 a1 a2, Statement (.fexp2 a0 a1 a2) := by
  intros; exact ⟨fun _ h k => Option.some.inj h ▸ and1 k, nofun⟩
theorem flog : ∀ a0 a1 a2, Statement (.flog a0 a1 a2) := by
  intros; exact ⟨fun _ h k => Option.some.inj h ▸ and1 k, nofun⟩
theorem flog2 : ∀ a0 a1 a2, Statement (.flog2 a0 a1 a2) := by
  intros; exact ⟨fun _ h k => Option.some.inj h ▸ and1 k, nofun⟩
theorem ftanh : ∀ a0 a1 a2, Statement (.ftanh a0 a1 a2) := by
  intros; exact ⟨fun _ h k => Option.some.inj h ▸ and1 k, nofun⟩
theorem fsigm : ∀ a0 a1 a2, Statement (.fsigm a0 a1 a2) := by
  intros; exact ⟨fun _ h k => Option.some.inj h ▸ and1 k, nofun⟩
theorem fsilu : ∀ a0 a1 a2, Statement (.fsilu a0 a1 a2) := by
  intros; exact ⟨fun _ h k => Option.some.inj h ▸ and1 k, nofun⟩
theorem fgelus : ∀ a0 a1 a2, Statement (.fgelus a0 a1 a2) := by
  intros; exact ⟨fun _ h k => Option.some.inj h ▸ and1 k, nofun⟩
theorem fgelut : ∀ a0 a1 a2, Statement (.fgelut a0 a1 a2) := by
  intros; exact ⟨fun _ h k => Option.some.inj h ▸ and1 k, nofun⟩
theorem rsum : ∀ a0 a1 a2, Statement (.rsum a0 a1 a2) := by
  intros; exact ⟨fun _ h k => Option.some.inj h ▸ and1 k, nofun⟩
theorem rmax : ∀ a0 a1 a2, Statement (.rmax a0 a1 a2) := by
  intros; exact ⟨fun _ h k => Option.some.inj h ▸ and1 k, nofun⟩
theorem tclr : ∀ a0 a1 a2, Statement (.tclr a0 a1 a2) := by
  intros; exact ⟨fun _ h k => Option.some.inj h ▸ and2 k, nofun⟩
theorem tacc : ∀ a0 a1 a2, Statement (.tacc a0 a1 a2) := by
  intros; exact ⟨fun _ h k => Option.some.inj h ▸ and1 k, nofun⟩
theorem tmac : ∀ a0 a1 a2, Statement (.tmac a0 a1 a2) := by
  intros; exact ⟨fun _ h k => Option.some.inj h ▸ and1 k, nofun⟩
theorem xsum : ∀ a0 a1 a2, Statement (.xsum a0 a1 a2) := by
  intros; exact ⟨fun _ h k => Option.some.inj h ▸ and1 k, nofun⟩
theorem tsum : ∀ a0 a1 a2, Statement (.tsum a0 a1 a2) := by
  intros; exact ⟨fun _ h k => Option.some.inj h ▸ and1 k, nofun⟩
theorem tloadc : ∀ a0 a1 a2, Statement (.tloadc a0 a1 a2) := by
  intros; exact ⟨fun _ h k => Option.some.inj h ▸ and1 k, nofun⟩
theorem tstore : ∀ a0 a1 a2, Statement (.tstore a0 a1 a2) := by
  intros; exact ⟨fun _ h k => Option.some.inj h ▸ and1 k, nofun⟩
theorem tdrain : ∀ a0 a1 a2, Statement (.tdrain a0 a1 a2) := by
  intros; exact ⟨fun _ h k => Option.some.inj h ▸ and3 k, nofun⟩
theorem cgen : ∀ a0 a1 a2, Statement (.cgen a0 a1 a2) := by
  intros; exact ⟨fun _ h k => Option.some.inj h ▸ and1 k, nofun⟩
theorem lfrd : ∀ a0 a1 a2, Statement (.lfrd a0 a1 a2) := by
  intros; exact ⟨fun _ h k => Option.some.inj h ▸ and1 k, nofun⟩
theorem lfclr : ∀ a0 a1 a2, Statement (.lfclr a0 a1 a2) := by
  intros; exact ⟨fun _ h k => Option.some.inj h ▸ and1 k, nofun⟩
theorem vld : ∀ a0 a1 a2, Statement (.vld a0 a1 a2) := by
  intros; exact ⟨fun _ h k => Option.some.inj h ▸ and1 k, nofun⟩
theorem vst : ∀ a0 a1 a2, Statement (.vst a0 a1 a2) := by
  intros; exact ⟨fun _ h k => Option.some.inj h ▸ and1 k, nofun⟩
theorem latheResultLand : ∀ a0 a1, Statement (.latheResultLand a0 a1) := by
  intros; exact ⟨fun _ h k => Option.some.inj h ▸ k, nofun⟩
theorem vfillPattern : ∀ a0 a1 a2 a3, Statement (.vfillPattern a0 a1 a2 a3) := by
  intros; exact ⟨fun _ h k => Option.some.inj h ▸ k, nofun⟩
theorem vfillTun : ∀ a0 a1 a2 a3, Statement (.vfillTun a0 a1 a2 a3) := by
  intros; exact ⟨fun _ h k => Option.some.inj h ▸ k, nofun⟩
theorem vcopy : ∀ a0 a1 a2 a3, Statement (.vcopy a0 a1 a2 a3) := by
  intros; exact ⟨fun _ h k => Option.some.inj h ▸ k, nofun⟩
theorem vmode : ∀ a0 a1 a2 a3, Statement (.vmode a0 a1 a2 a3) := by
  intros; exact ⟨fun _ h k => Option.some.inj h ▸ and2 k, nofun⟩
theorem vpower : ∀ a0 a1 a2 a3, Statement (.vpower a0 a1 a2 a3) := by
  intros; exact ⟨fun _ h k => Option.some.inj h ▸ and1 k, nofun⟩
theorem bankSleep : ∀ a0, Statement (.bankSleep a0) := by
  intros; exact ⟨fun _ h k => Option.some.inj h ▸ k, nofun⟩
theorem bankWake : ∀ a0, Statement (.bankWake a0) := by
  intros; exact ⟨fun _ h k => Option.some.inj h ▸ k, nofun⟩
theorem crd : ∀ a0 a1 a2, Statement (.crd a0 a1 a2) := by
  intros; exact ⟨fun _ h k => Option.some.inj h ▸ and1 k, nofun⟩
theorem cwr : ∀ a0 a1 a2, Statement (.cwr a0 a1 a2) := by
  intros; exact ⟨fun _ h k => Option.some.inj h ▸ and1 k, nofun⟩
theorem cbw : ∀ a0 a1 a2 a3 a4 a5 a6, Statement (.cbw a0 a1 a2 a3 a4 a5 a6) := by
  intros; exact ⟨fun _ h k => Option.some.inj h ▸ and1 k, nofun⟩
theorem crdDelivery : ∀ a0 a1, Statement (.crdDelivery a0 a1) := by
  intros; exact ⟨fun _ h k => Option.some.inj h ▸ k, nofun⟩
theorem gather : ∀ a0 a1 a2, Statement (.gather a0 a1 a2) := by
  intros; exact ⟨fun _ h k => Option.some.inj h ▸ k, nofun⟩
theorem scatter : ∀ a0 a1 a2, Statement (.scatter a0 a1 a2) := by
  intros; exact ⟨fun _ h k => Option.some.inj h ▸ k, nofun⟩
theorem scatterAdd : ∀ a0 a1 a2, Statement (.scatterAdd a0 a1 a2) := by
  intros; exact ⟨fun _ h k => Option.some.inj h ▸ k, nofun⟩
theorem dotSweep : ∀ a0 a1 a2, Statement (.dotSweep a0 a1 a2) := by
  intros; exact ⟨fun _ h k => Option.some.inj h ▸ k, nofun⟩
theorem softblend : ∀ a0 a1 a2, Statement (.softblend a0 a1 a2) := by
  intros; exact ⟨fun _ h k => Option.some.inj h ▸ k, nofun⟩
theorem digest : ∀ a0 a1 a2, Statement (.digest a0 a1 a2) := by
  intros; exact ⟨fun _ h k => Option.some.inj h ▸ k, nofun⟩
theorem fill : ∀ a0 a1 a2, Statement (.fill a0 a1 a2) := by
  intros; exact ⟨fun _ h k => Option.some.inj h ▸ k, nofun⟩
theorem copy : ∀ a0 a1 a2, Statement (.copy a0 a1 a2) := by
  intros; exact ⟨fun _ h k => Option.some.inj h ▸ k, nofun⟩
theorem sillOpResult : ∀ a0 a1 a2, Statement (.sillOpResult a0 a1 a2) := by
  intros; exact ⟨fun _ h k => Option.some.inj h ▸ k, nofun⟩
theorem send : ∀ a0 a1 a2, Statement (.send a0 a1 a2) := by
  intros; exact ⟨fun _ h k => Option.some.inj h ▸ k, nofun⟩
theorem recv : ∀ a0 a1 a2, Statement (.recv a0 a1 a2) := by
  intros; exact ⟨fun _ h k => Option.some.inj h ▸ k, nofun⟩
theorem flitArrive : ∀ a0 a1, Statement (.flitArrive a0 a1) := by
  intros; exact ⟨fun _ h k => Option.some.inj h ▸ k, nofun⟩
theorem lathMessageReceive : ∀ a0 a1 a2, Statement (.lathMessageReceive a0 a1 a2) := by
  intros; exact ⟨nofun, fun _ => rfl⟩
theorem pegCheck : ∀ a0, Statement (.pegCheck a0) := by
  intros; exact ⟨nofun, fun _ => rfl⟩
theorem plan : ∀ a0, Statement (.plan a0) := by
  intros; exact ⟨nofun, fun _ => rfl⟩
theorem pegtab : ∀ a0, Statement (.pegtab a0) := by
  intros; exact ⟨nofun, fun _ => rfl⟩
theorem micro : ∀ a0, Statement (.micro a0) := by
  intros; exact ⟨nofun, fun _ => rfl⟩
theorem stopDecision : ∀ a0, Statement (.stopDecision a0) := by
  intros; exact ⟨nofun, fun _ => rfl⟩
theorem parcelStop : ∀ a0, Statement (.parcelStop a0) := by
  intros; exact ⟨nofun, fun _ => rfl⟩
theorem restart : ∀ a0 a1, Statement (.restart a0 a1) := by
  intros; exact ⟨nofun, fun _ => rfl⟩
theorem stopResume : ∀ a0, Statement (.stopResume a0) := by
  intros; exact ⟨nofun, fun _ => rfl⟩
theorem vintageValid : ∀ a0, Statement (.vintageValid a0) := by
  intros; exact ⟨nofun, fun _ => rfl⟩
theorem park : ∀ a0, Statement (.park a0) := by
  intros; exact ⟨nofun, fun _ => rfl⟩
theorem invocationStart : ∀ a0, Statement (.invocationStart a0) := by
  intros; exact ⟨nofun, fun _ => rfl⟩
theorem invocationComplete : ∀ a0, Statement (.invocationComplete a0) := by
  intros; exact ⟨nofun, fun _ => rfl⟩
theorem labelSigned : Statement .labelSigned := ⟨nofun, fun _ => rfl⟩
theorem rollback : ∀ a0 a1, Statement (.rollback a0 a1) := by
  intros; exact ⟨nofun, fun _ => rfl⟩
theorem cmstLockstep : ∀ a0, Statement (.cmstLockstep a0) := by
  intros; exact ⟨nofun, fun _ => rfl⟩
theorem sealLockstep : Statement .sealLockstep := ⟨nofun, fun _ => rfl⟩
theorem entropyHealthFail : Statement .entropyHealthFail := ⟨nofun, fun _ => rfl⟩
theorem switch : ∀ a0 a1, Statement (.switch a0 a1) := by
  intros; exact ⟨nofun, fun _ => rfl⟩
theorem cancel : ∀ a0 a1, Statement (.cancel a0 a1) := by
  intros; exact ⟨nofun, fun _ => rfl⟩
theorem align : ∀ a0 a1, Statement (.align a0 a1) := by
  intros; exact ⟨nofun, fun _ => rfl⟩
theorem epochLoad : ∀ a0 a1, Statement (.epochLoad a0 a1) := by
  intros; exact ⟨nofun, fun _ => rfl⟩
theorem alignCheck : ∀ a0 a1, Statement (.alignCheck a0 a1) := by
  intros; exact ⟨nofun, fun _ => rfl⟩
theorem switchUnlocked : ∀ a0, Statement (.switchUnlocked a0) := by
  intros; exact ⟨nofun, fun _ => rfl⟩
theorem switchAtCount : ∀ a0, Statement (.switchAtCount a0) := by
  intros; exact ⟨nofun, fun _ => rfl⟩
theorem switched : ∀ a0, Statement (.switched a0) := by
  intros; exact ⟨nofun, fun _ => rfl⟩
theorem stretchLocal : ∀ a0, Statement (.stretchLocal a0) := by
  intros; exact ⟨nofun, fun _ => rfl⟩
theorem stretchWave : ∀ a0, Statement (.stretchWave a0) := by
  intros; exact ⟨nofun, fun _ => rfl⟩
theorem crossingOverrun : ∀ a0 a1, Statement (.crossingOverrun a0 a1) := by
  intros; exact ⟨nofun, fun _ => rfl⟩
theorem refLoss : ∀ a0, Statement (.refLoss a0) := by
  intros; exact ⟨nofun, fun _ => rfl⟩
theorem refRestored : ∀ a0, Statement (.refRestored a0) := by
  intros; exact ⟨nofun, fun _ => rfl⟩
theorem ptmExchange : ∀ a0, Statement (.ptmExchange a0) := by
  intros; exact ⟨nofun, fun _ => rfl⟩
theorem hvEnAssert : Statement .hvEnAssert := ⟨nofun, fun _ => rfl⟩
theorem hvEnDeassert : Statement .hvEnDeassert := ⟨nofun, fun _ => rfl⟩
theorem plateResetExit : Statement .plateResetExit := ⟨nofun, fun _ => rfl⟩
theorem modResetN : ∀ a0, Statement (.modResetN a0) := by
  intros; exact ⟨nofun, fun _ => rfl⟩
theorem thermtripN : ∀ a0, Statement (.thermtripN a0) := by
  intros; exact ⟨nofun, fun _ => rfl⟩
theorem inputLoss : ∀ a0, Statement (.inputLoss a0) := by
  intros; exact ⟨nofun, fun _ => rfl⟩
theorem inputReturned : Statement .inputReturned := ⟨nofun, fun _ => rfl⟩
theorem inputRestored : Statement .inputRestored := ⟨nofun, fun _ => rfl⟩
theorem rideThroughEnd : Statement .rideThroughEnd := ⟨nofun, fun _ => rfl⟩
theorem converterDegraded : ∀ a0, Statement (.converterDegraded a0) := by
  intros; exact ⟨nofun, fun _ => rfl⟩
theorem busCollapse : Statement .busCollapse := ⟨nofun, fun _ => rfl⟩
theorem insulationCheck : ∀ a0 a1, Statement (.insulationCheck a0 a1) := by
  intros; exact ⟨nofun, fun _ => rfl⟩
theorem phaseDegraded : ∀ a0 a1, Statement (.phaseDegraded a0 a1) := by
  intros; exact ⟨nofun, fun _ => rfl⟩
theorem fallbackActive : ∀ a0, Statement (.fallbackActive a0) := by
  intros; exact ⟨nofun, fun _ => rfl⟩
theorem verticalDegraded : ∀ a0, Statement (.verticalDegraded a0) := by
  intros; exact ⟨nofun, fun _ => rfl⟩
theorem trimDegraded : ∀ a0 a1 a2, Statement (.trimDegraded a0 a1 a2) := by
  intros; exact ⟨nofun, fun _ => rfl⟩
theorem bentRetired : ∀ a0 a1 a2, Statement (.bentRetired a0 a1 a2) := by
  intros; exact ⟨nofun, fun _ => rfl⟩
theorem strutInject : ∀ a0, Statement (.strutInject a0) := by
  intros; exact ⟨nofun, fun _ => rfl⟩
theorem crackCheck : ∀ a0 a1 a2, Statement (.crackCheck a0 a1 a2) := by
  intros; exact ⟨nofun, fun _ => rfl⟩
theorem fieldShort : ∀ a0, Statement (.fieldShort a0) := by
  intros; exact ⟨nofun, fun _ => rfl⟩
theorem fieldSupplyLost : ∀ a0, Statement (.fieldSupplyLost a0) := by
  intros; exact ⟨nofun, fun _ => rfl⟩
theorem plateLathLost : Statement .plateLathLost := ⟨nofun, fun _ => rfl⟩
theorem trellisControlLoop : ∀ a0, Statement (.trellisControlLoop a0) := by
  intros; exact ⟨nofun, fun _ => rfl⟩
theorem trellisReload : Statement .trellisReload := ⟨nofun, fun _ => rfl⟩
theorem forecastPublish : Statement .forecastPublish := ⟨nofun, fun _ => rfl⟩
theorem phaseLearn : ∀ a0, Statement (.phaseLearn a0) := by
  intros; exact ⟨nofun, fun _ => rfl⟩
theorem crushHint : ∀ a0 a1 a2, Statement (.crushHint a0 a1 a2) := by
  intros; exact ⟨nofun, fun _ => rfl⟩
theorem leaseExpired : Statement .leaseExpired := ⟨nofun, fun _ => rfl⟩
theorem contractMissed : ∀ a0, Statement (.contractMissed a0) := by
  intros; exact ⟨nofun, fun _ => rfl⟩
theorem claim : ∀ a0, Statement (.claim a0) := by
  intros; exact ⟨nofun, fun _ => rfl⟩
theorem verifyFw : ∀ a0, Statement (.verifyFw a0) := by
  intros; exact ⟨nofun, fun _ => rfl⟩
theorem startCmst : ∀ a0, Statement (.startCmst a0) := by
  intros; exact ⟨nofun, fun _ => rfl⟩
theorem cmstReady : Statement .cmstReady := ⟨nofun, fun _ => rfl⟩
theorem verifyConfig : ∀ a0 a1 a2 a3, Statement (.verifyConfig a0 a1 a2 a3) := by
  intros; exact ⟨nofun, fun _ => rfl⟩
theorem raise : ∀ a0 a1 a2 a3, Statement (.raise a0 a1 a2 a3) := by
  intros; exact ⟨nofun, fun _ => rfl⟩
theorem unpark : ∀ a0 a1 a2, Statement (.unpark a0 a1 a2) := by
  intros; exact ⟨nofun, fun _ => rfl⟩
theorem raiseStepTimeout : ∀ a0, Statement (.raiseStepTimeout a0) := by
  intros; exact ⟨nofun, fun _ => rfl⟩
theorem raiseDone : ∀ a0, Statement (.raiseDone a0) := by
  intros; exact ⟨nofun, fun _ => rfl⟩
theorem perstN : ∀ a0 a1, Statement (.perstN a0 a1) := by
  intros; exact ⟨nofun, fun _ => rfl⟩
theorem flr : ∀ a0, Statement (.flr a0) := by
  intros; exact ⟨nofun, fun _ => rfl⟩
theorem give : ∀ a0 a1 a2, Statement (.give a0 a1 a2) := by
  intros; exact ⟨nofun, fun _ => rfl⟩
theorem bar2Write : ∀ a0 a1 a2, Statement (.bar2Write a0 a1 a2) := by
  intros; exact ⟨nofun, fun _ => rfl⟩
theorem bar2Read : ∀ a0 a1 a2, Statement (.bar2Read a0 a1 a2) := by
  intros; exact ⟨nofun, fun _ => rfl⟩
theorem bar2ReadTimeout : ∀ a0 a1 a2, Statement (.bar2ReadTimeout a0 a1 a2) := by
  intros; exact ⟨nofun, fun _ => rfl⟩
theorem segIn : ∀ a0 a1 a2, Statement (.segIn a0 a1 a2) := by
  intros; exact ⟨nofun, fun _ => rfl⟩
theorem segOut : ∀ a0 a1 a2, Statement (.segOut a0 a1 a2) := by
  intros; exact ⟨nofun, fun _ => rfl⟩
theorem msg : ∀ a0 a1 a2, Statement (.msg a0 a1 a2) := by
  intros; exact ⟨nofun, fun _ => rfl⟩
theorem counterLowRead : ∀ a0 a1, Statement (.counterLowRead a0 a1) := by
  intros; exact ⟨nofun, fun _ => rfl⟩
theorem counterSatClear : ∀ a0 a1, Statement (.counterSatClear a0 a1) := by
  intros; exact ⟨nofun, fun _ => rfl⟩
theorem registerWrite : ∀ a0 a1 a2, Statement (.registerWrite a0 a1 a2) := by
  intros; exact ⟨nofun, fun _ => rfl⟩
theorem trlFastCap : ∀ a0 a1, Statement (.trlFastCap a0 a1) := by
  intros; exact ⟨nofun, fun _ => rfl⟩
theorem fastCapEffect : Statement .fastCapEffect := ⟨nofun, fun _ => rfl⟩
theorem prtFsw : ∀ a0 a1, Statement (.prtFsw a0 a1) := by
  intros; exact ⟨nofun, fun _ => rfl⟩
theorem prtInjGo : ∀ a0 a1, Statement (.prtInjGo a0 a1) := by
  intros; exact ⟨nofun, fun _ => rfl⟩
theorem injection : Statement .injection := ⟨nofun, fun _ => rfl⟩
theorem sysInfo : ∀ a0, Statement (.sysInfo a0) := by
  intros; exact ⟨nofun, fun _ => rfl⟩
theorem sysPrincipalMove : ∀ a0 a1 a2 a3 a4 a5, Statement (.sysPrincipalMove a0 a1 a2 a3 a4 a5) := by
  intros; exact ⟨nofun, fun _ => rfl⟩
theorem parcelCreate : ∀ a0 a1 a2 a3 a4 a5 a6 a7 a8, Statement (.parcelCreate a0 a1 a2 a3 a4 a5 a6 a7 a8) := by
  intros; exact ⟨nofun, fun _ => rfl⟩
theorem parcelDelete : ∀ a0 a1, Statement (.parcelDelete a0 a1) := by
  intros; exact ⟨nofun, fun _ => rfl⟩
theorem parcelAssign : ∀ a0 a1 a2, Statement (.parcelAssign a0 a1 a2) := by
  intros; exact ⟨nofun, fun _ => rfl⟩
theorem parcelPark : ∀ a0 a1, Statement (.parcelPark a0 a1) := by
  intros; exact ⟨nofun, fun _ => rfl⟩
theorem parcelResume : ∀ a0 a1 a2, Statement (.parcelResume a0 a1 a2) := by
  intros; exact ⟨nofun, fun _ => rfl⟩
theorem parcelStatus : ∀ a0 a1, Statement (.parcelStatus a0 a1) := by
  intros; exact ⟨nofun, fun _ => rfl⟩
theorem imageLoad : ∀ a0 a1 a2 a3 a4, Statement (.imageLoad a0 a1 a2 a3 a4) := by
  intros; exact ⟨nofun, fun _ => rfl⟩
theorem imageUnload : ∀ a0 a1, Statement (.imageUnload a0 a1) := by
  intros; exact ⟨nofun, fun _ => rfl⟩
theorem imageInfo : ∀ a0 a1 a2, Statement (.imageInfo a0 a1 a2) := by
  intros; exact ⟨nofun, fun _ => rfl⟩
theorem caskWindowSet : ∀ a0 a1 a2 a3 a4, Statement (.caskWindowSet a0 a1 a2 a3 a4) := by
  intros; exact ⟨nofun, fun _ => rfl⟩
theorem caskWindowClear : ∀ a0 a1 a2, Statement (.caskWindowClear a0 a1 a2) := by
  intros; exact ⟨nofun, fun _ => rfl⟩
theorem caskTransfer : ∀ a0 a1 a2, Statement (.caskTransfer a0 a1 a2) := by
  intros; exact ⟨nofun, fun _ => rfl⟩
theorem caskRegionClose : ∀ a0 a1 a2 a3, Statement (.caskRegionClose a0 a1 a2 a3) := by
  intros; exact ⟨nofun, fun _ => rfl⟩
theorem regionDigestDone : ∀ a0 a1, Statement (.regionDigestDone a0 a1) := by
  intros; exact ⟨nofun, fun _ => rfl⟩
theorem caskStaveFail : ∀ a0 a1 a2, Statement (.caskStaveFail a0 a1 a2) := by
  intros; exact ⟨nofun, fun _ => rfl⟩
theorem caskStatus : ∀ a0 a1 a2, Statement (.caskStatus a0 a1 a2) := by
  intros; exact ⟨nofun, fun _ => rfl⟩
theorem staveFailing : ∀ a0 a1 a2, Statement (.staveFailing a0 a1 a2) := by
  intros; exact ⟨nofun, fun _ => rfl⟩
theorem staveSpared : ∀ a0, Statement (.staveSpared a0) := by
  intros; exact ⟨nofun, fun _ => rfl⟩
theorem restStarved : ∀ a0 a1 a2, Statement (.restStarved a0 a1 a2) := by
  intros; exact ⟨nofun, fun _ => rfl⟩
theorem vatRetentionScrub : ∀ a0 a1 a2, Statement (.vatRetentionScrub a0 a1 a2) := by
  intros; exact ⟨nofun, fun _ => rfl⟩
theorem planScrub : ∀ a0 a1 a2, Statement (.planScrub a0 a1 a2) := by
  intros; exact ⟨nofun, fun _ => rfl⟩
theorem patrolScrub : ∀ a0 a1 a2, Statement (.patrolScrub a0 a1 a2) := by
  intros; exact ⟨nofun, fun _ => rfl⟩
theorem rackOpen : ∀ a0 a1 a2, Statement (.rackOpen a0 a1 a2) := by
  intros; exact ⟨nofun, fun _ => rfl⟩
theorem rackClose : ∀ a0 a1 a2, Statement (.rackClose a0 a1 a2) := by
  intros; exact ⟨nofun, fun _ => rfl⟩
theorem rackStatus : ∀ a0 a1 a2, Statement (.rackStatus a0 a1 a2) := by
  intros; exact ⟨nofun, fun _ => rfl⟩
theorem runStart : ∀ a0 a1 a2 a3, Statement (.runStart a0 a1 a2 a3) := by
  intros; exact ⟨nofun, fun _ => rfl⟩
theorem runAbort : ∀ a0 a1 a2, Statement (.runAbort a0 a1 a2) := by
  intros; exact ⟨nofun, fun _ => rfl⟩
theorem runResult : ∀ a0 a1 a2, Statement (.runResult a0 a1 a2) := by
  intros; exact ⟨nofun, fun _ => rfl⟩
theorem vintageDrawRequest : ∀ a0 a1, Statement (.vintageDrawRequest a0 a1) := by
  intros; exact ⟨nofun, fun _ => rfl⟩
theorem vintageExport : ∀ a0 a1 a2 a3 a4, Statement (.vintageExport a0 a1 a2 a3 a4) := by
  intros; exact ⟨nofun, fun _ => rfl⟩
theorem vintageRestore : ∀ a0 a1 a2, Statement (.vintageRestore a0 a1 a2) := by
  intros; exact ⟨nofun, fun _ => rfl⟩
theorem vintageStatus : ∀ a0 a1, Statement (.vintageStatus a0 a1) := by
  intros; exact ⟨nofun, fun _ => rfl⟩
theorem powerCapSet : ∀ a0 a1 a2, Statement (.powerCapSet a0 a1 a2) := by
  intros; exact ⟨nofun, fun _ => rfl⟩
theorem powerShareSet : ∀ a0 a1 a2 a3, Statement (.powerShareSet a0 a1 a2 a3) := by
  intros; exact ⟨nofun, fun _ => rfl⟩
theorem powerLeaseSet : ∀ a0 a1 a2 a3, Statement (.powerLeaseSet a0 a1 a2 a3) := by
  intros; exact ⟨nofun, fun _ => rfl⟩
theorem powerContractSet : ∀ a0 a1 a2 a3, Statement (.powerContractSet a0 a1 a2 a3) := by
  intros; exact ⟨nofun, fun _ => rfl⟩
theorem powerForecast : ∀ a0, Statement (.powerForecast a0) := by
  intros; exact ⟨nofun, fun _ => rfl⟩
theorem powerStatus : ∀ a0, Statement (.powerStatus a0) := by
  intros; exact ⟨nofun, fun _ => rfl⟩
theorem powerSidebandSet : ∀ a0 a1, Statement (.powerSidebandSet a0 a1) := by
  intros; exact ⟨nofun, fun _ => rfl⟩
theorem soundRun : ∀ a0 a1 a2 a3, Statement (.soundRun a0 a1 a2 a3) := by
  intros; exact ⟨nofun, fun _ => rfl⟩
theorem faultLog : ∀ a0 a1 a2 a3, Statement (.faultLog a0 a1 a2 a3) := by
  intros; exact ⟨nofun, fun _ => rfl⟩
theorem faultSummary : ∀ a0, Statement (.faultSummary a0) := by
  intros; exact ⟨nofun, fun _ => rfl⟩
theorem faultLogClear : ∀ a0 a1, Statement (.faultLogClear a0 a1) := by
  intros; exact ⟨nofun, fun _ => rfl⟩
theorem faultCounters : ∀ a0 a1 a2 a3 a4 a5, Statement (.faultCounters a0 a1 a2 a3 a4 a5) := by
  intros; exact ⟨nofun, fun _ => rfl⟩
theorem tapConfig : ∀ a0 a1 a2, Statement (.tapConfig a0 a1 a2) := by
  intros; exact ⟨nofun, fun _ => rfl⟩
theorem tapKeySet : ∀ a0 a1 a2 a3, Statement (.tapKeySet a0 a1 a2 a3) := by
  intros; exact ⟨nofun, fun _ => rfl⟩
theorem tapStatus : ∀ a0 a1 a2, Statement (.tapStatus a0 a1 a2) := by
  intros; exact ⟨nofun, fun _ => rfl⟩
theorem tapLinkChange : ∀ a0 a1 a2, Statement (.tapLinkChange a0 a1 a2) := by
  intros; exact ⟨nofun, fun _ => rfl⟩
theorem frameReceive : ∀ a0, Statement (.frameReceive a0) := by
  intros; exact ⟨nofun, fun _ => rfl⟩
theorem arpRequest : ∀ a0 a1 a2 a3 a4, Statement (.arpRequest a0 a1 a2 a3 a4) := by
  intros; exact ⟨nofun, fun _ => rfl⟩
theorem neighbourSolicitation : ∀ a0 a1 a2 a3 a4, Statement (.neighbourSolicitation a0 a1 a2 a3 a4) := by
  intros; exact ⟨nofun, fun _ => rfl⟩
theorem echoRequest : ∀ a0 a1 a2 a3 a4 a5, Statement (.echoRequest a0 a1 a2 a3 a4 a5) := by
  intros; exact ⟨nofun, fun _ => rfl⟩
theorem readReq : ∀ a0 a1 a2 a3 a4, Statement (.readReq a0 a1 a2 a3 a4) := by
  intros; exact ⟨nofun, fun _ => rfl⟩
theorem data : ∀ a0 a1 a2, Statement (.data a0 a1 a2) := by
  intros; exact ⟨nofun, fun _ => rfl⟩
theorem sack : ∀ a0 a1 a2, Statement (.sack a0 a1 a2) := by
  intros; exact ⟨nofun, fun _ => rfl⟩
theorem credit : ∀ a0 a1, Statement (.credit a0 a1) := by
  intros; exact ⟨nofun, fun _ => rfl⟩
theorem fail : ∀ a0 a1, Statement (.fail a0 a1) := by
  intros; exact ⟨nofun, fun _ => rfl⟩
theorem offer : ∀ a0 a1, Statement (.offer a0 a1) := by
  intros; exact ⟨nofun, fun _ => rfl⟩
theorem segmentLanded : ∀ a0 a1 a2, Statement (.segmentLanded a0 a1 a2) := by
  intros; exact ⟨nofun, fun _ => rfl⟩
theorem rackCreditTimer : ∀ a0 a1 a2, Statement (.rackCreditTimer a0 a1 a2) := by
  intros; exact ⟨nofun, fun _ => rfl⟩
theorem rackRerequest : ∀ a0 a1 a2, Statement (.rackRerequest a0 a1 a2) := by
  intros; exact ⟨nofun, fun _ => rfl⟩
theorem rackBusyRetry : ∀ a0 a1, Statement (.rackBusyRetry a0 a1) := by
  intros; exact ⟨nofun, fun _ => rfl⟩
theorem offerResend : ∀ a0 a1, Statement (.offerResend a0 a1) := by
  intros; exact ⟨nofun, fun _ => rfl⟩
theorem pourStart : ∀ a0 a1 a2 a3 a4, Statement (.pourStart a0 a1 a2 a3 a4) := by
  intros; exact ⟨nofun, fun _ => rfl⟩
theorem pourStop : ∀ a0 a1 a2, Statement (.pourStop a0 a1 a2) := by
  intros; exact ⟨nofun, fun _ => rfl⟩
theorem pourSubmit : ∀ a0 a1 a2, Statement (.pourSubmit a0 a1 a2) := by
  intros; exact ⟨nofun, fun _ => rfl⟩
theorem pourCancel : ∀ a0 a1 a2, Statement (.pourCancel a0 a1 a2) := by
  intros; exact ⟨nofun, fun _ => rfl⟩
theorem pourStatus : ∀ a0 a1, Statement (.pourStatus a0 a1) := by
  intros; exact ⟨nofun, fun _ => rfl⟩
theorem pourLabel : ∀ a0 a1 a2, Statement (.pourLabel a0 a1 a2) := by
  intros; exact ⟨nofun, fun _ => rfl⟩
theorem request : ∀ a0 a1 a2, Statement (.request a0 a1 a2) := by
  intros; exact ⟨nofun, fun _ => rfl⟩
theorem append : ∀ a0 a1 a2, Statement (.append a0 a1 a2) := by
  intros; exact ⟨nofun, fun _ => rfl⟩
theorem cancelFrame : ∀ a0 a1 a2, Statement (.cancelFrame a0 a1 a2) := by
  intros; exact ⟨nofun, fun _ => rfl⟩
theorem fetch : ∀ a0 a1 a2, Statement (.fetch a0 a1 a2) := by
  intros; exact ⟨nofun, fun _ => rfl⟩
theorem pourIncompleteTimeout : ∀ a0 a1, Statement (.pourIncompleteTimeout a0 a1) := by
  intros; exact ⟨nofun, fun _ => rfl⟩
theorem pourStepStart : ∀ a0, Statement (.pourStepStart a0) := by
  intros; exact ⟨nofun, fun _ => rfl⟩
theorem pourStepEnd : ∀ a0, Statement (.pourStepEnd a0) := by
  intros; exact ⟨nofun, fun _ => rfl⟩
theorem sealAttest : ∀ a0 a1, Statement (.sealAttest a0 a1) := by
  intros; exact ⟨nofun, fun _ => rfl⟩
theorem sealCertGet : ∀ a0 a1, Statement (.sealCertGet a0 a1) := by
  intros; exact ⟨nofun, fun _ => rfl⟩
theorem sealLicenceInstall : ∀ a0 a1, Statement (.sealLicenceInstall a0 a1) := by
  intros; exact ⟨nofun, fun _ => rfl⟩
theorem sealKeysAdd : ∀ a0 a1 a2 a3, Statement (.sealKeysAdd a0 a1 a2 a3) := by
  intros; exact ⟨nofun, fun _ => rfl⟩
theorem sealKeysRemove : ∀ a0 a1, Statement (.sealKeysRemove a0 a1) := by
  intros; exact ⟨nofun, fun _ => rfl⟩
theorem sealKeysList : ∀ a0, Statement (.sealKeysList a0) := by
  intros; exact ⟨nofun, fun _ => rfl⟩
theorem sealDebugUnlock : ∀ a0 a1, Statement (.sealDebugUnlock a0 a1) := by
  intros; exact ⟨nofun, fun _ => rfl⟩
theorem perturbEnable : ∀ a0 a1, Statement (.perturbEnable a0 a1) := by
  intros; exact ⟨nofun, fun _ => rfl⟩
theorem perturbDisable : ∀ a0 a1, Statement (.perturbDisable a0 a1) := by
  intros; exact ⟨nofun, fun _ => rfl⟩
theorem setEndpointId : ∀ a0 a1, Statement (.setEndpointId a0 a1) := by
  intros; exact ⟨nofun, fun _ => rfl⟩
theorem linkUp : ∀ a0 a1 a2 a3, Statement (.linkUp a0 a1 a2 a3) := by
  intros; exact ⟨nofun, fun _ => rfl⟩
theorem d3hot : ∀ a0 a1, Statement (.d3hot a0 a1) := by
  intros; exact ⟨nofun, fun _ => rfl⟩
theorem stagingWindowWrite : ∀ a0 a1 a2, Statement (.stagingWindowWrite a0 a1 a2) := by
  intros; exact ⟨nofun, fun _ => rfl⟩
theorem slotWrite : ∀ a0 a1 a2 a3, Statement (.slotWrite a0 a1 a2 a3) := by
  intros; exact ⟨nofun, fun _ => rfl⟩
theorem pluggablePresence : ∀ a0 a1 a2 a3, Statement (.pluggablePresence a0 a1 a2 a3) := by
  intros; exact ⟨nofun, fun _ => rfl⟩
theorem regExchangeRetry : ∀ a0, Statement (.regExchangeRetry a0) := by
  intros; exact ⟨nofun, fun _ => rfl⟩
theorem summaryWrite : Statement .summaryWrite := ⟨nofun, fun _ => rfl⟩
theorem hvEnHoldEnd : Statement .hvEnHoldEnd := ⟨nofun, fun _ => rfl⟩
theorem stretchInjection : Statement .stretchInjection := ⟨nofun, fun _ => rfl⟩
theorem jtagInstruction : ∀ a0, Statement (.jtagInstruction a0) := by
  intros; exact ⟨nofun, fun _ => rfl⟩
theorem setdasa : ∀ a0 a1, Statement (.setdasa a0 a1) := by
  intros; exact ⟨nofun, fun _ => rfl⟩

end Sys2Proof.Laws.WF
end

