-- ==== Sys2Proof/Laws/Requests.lean ====
section
/-! SUPPORT. What a Cazer request does when it is heard (17 R357, R363, 18 R373 to R375): its checks in order, its handler's effect, its answer. -/

namespace Sys2Proof.Machine
open Sys2Proof

theorem State.received_plate (s : State) (rq) : (s.received rq).plate = s.plate := by cases rq <;> rfl
theorem State.received_raising (s : State) (rq) : (s.received rq).raising = s.raising := by cases rq <;> rfl
theorem State.received_parcels (s : State) (rq) : (s.received rq).parcels = s.parcels := by cases rq <;> rfl
theorem State.received_parcel (s : State) (rq) (p) : (s.received rq).parcel p = s.parcel p := by cases rq <;> rfl
theorem State.received_sealU (s : State) (rq) : (s.received rq).sealU = s.sealU := by cases rq <;> rfl
theorem State.received_feature (s : State) (rq) (k) : (s.received rq).hasFeature k = s.hasFeature k := by cases rq <;> rfl
theorem State.received_principal (s : State) (rq) (k) : (s.received rq).isPrincipal k = s.isPrincipal k := by cases rq <;> rfl
/-- With nothing before it a request does not wait. -/
theorem State.mustQueue_quiet (s : State) (rq keys now) (h : s.nothingWaits rq = true) : s.mustQueue (requesterPort rq) keys now = false := by
  simp only [State.nothingWaits, Bool.and_eq_true, Bool.not_eq_true', List.isEmpty_iff, List.any_eq_false, Bool.not_eq_true] at h
  obtain ⟨⟨a, b⟩, c⟩ := h
  have hb : s.waits.any (fun w => w.what.isTransfer && keys.contains w.parcel) = false := by
    rw [List.any_eq_false]; intro w hw; simp [b w hw]
  simp only [State.mustQueue, State.queueBusy, a, hb]
  cases hp : requesterPort rq <;> simp [hp] at c ⊢; simp [c]
/-- Nor is its port out of credits. -/
theorem State.writeHeld_quiet (s : State) (rq p) (h : s.nothingWaits rq = true) : s.writeHeld p = false := by
  simp only [State.nothingWaits, Bool.and_eq_true, List.isEmpty_iff] at h
  simp [State.writeHeld, State.noCredits, h.1.1]
/-- A heard request of a raised module, with nothing before it, is served in the state in which the device owns its slot. -/
theorem State.request_heard (s : State) (rq m p h i) (hT : s.takes rq = true) : s.request rq m p h i = .next ((s.received rq).serve rq m p h) := by
  simp only [State.takes, Bool.and_eq_true, Bool.not_eq_true'] at hT
  obtain ⟨⟨⟨hh, hd⟩, hc⟩, hn⟩ := hT
  have hw := fun p => State.writeHeld_quiet s rq p hn
  cases rq with
  | slot k n tag =>
    simp only [State.hears, Bool.and_eq_true, Bool.not_eq_true', decide_eq_true_eq] at hh
    obtain ⟨⟨⟨a, b⟩, c⟩, d⟩ := hh
    have hq : ∀ keys now, s.mustQueue (some k) keys now = false := fun keys now => State.mustQueue_quiet s (.slot k n tag) keys now hn
    simp only [State.request, State.deliver, requesterOk, State.takeSlot, State.received, a, b, c, d, hd, hq, hw]; simp
  | entry k n x y z => simp [State.hears] at hh; simp [State.request, State.deliver, requesterOk, State.received, hh, hd]
  | sideband e tag =>
    have hq : ∀ keys now, s.mustQueue none keys now = false := fun keys now => State.mustQueue_quiet s (.sideband e tag) keys now hn
    simp [State.hears] at hh; simp [State.request, State.deliver, requesterOk, State.received, hh, hq]
/-- What serving it does: the answer with the first failed check, or the handler's effect and its answer. -/
theorem State.serve_eq (s : State) (rq m p h c) (hT : s.takes rq = true) (hc : (s.received rq).admission rq m p = c) : (s.received rq).serve rq m p h =
   if c ≠ 0 then (s.received rq).answer (some rq) m.code p s.plate.wall.toNat (Ans.err c) else match (h (s.received rq)).2 with
     | some a => (h (s.received rq)).1.answer (some rq) m.code p s.plate.wall.toNat a | none => (h (s.received rq)).1 := by
  unfold State.serve State.effect; rw [hc, State.received_plate]; by_cases h0 : c = 0
  · subst h0; (try simp) <;> rfl
  · simp [h0]
theorem State.served_ok (s : State) (rq m) (hT : s.takes rq = true) : (s.received rq).served rq m = if (isSideband rq && !m.side) || (!isSideband rq && m.sideOnly) then 2 else 0 := by
  simp [State.takes] at hT
  simp [State.served, State.received_plate, State.received_raising, hT, eUnknownMsg]
/-- A request that passes its checks takes effect and is answered at once, or later where its handler waits. -/
theorem State.request_ok (s : State) (rq m p h i) (hT : s.takes rq = true) (h1 : (isSideband rq && !m.side) = false) (h2 : (!isSideband rq && m.sideOnly) = false) (hp : p < 4 ∨ p = 0xFF)
   (hl : m.parcel = true → p < 4 ∧ (s.parcel p).live = true) (hs : (s.received rq).inScope rq m p = 0) (hf : ∀ k, m.feature = some k → s.hasFeature k = true) :
   s.request rq m p h i = .next (match (h (s.received rq)).2 with
     | some a => (h (s.received rq)).1.answer (some rq) m.code p s.plate.wall.toNat a | none => (h (s.received rq)).1) := by
  rw [State.request_heard _ _ _ _ _ _ hT, State.serve_eq s rq m p h 0 hT ?_]; rfl
  have hv := State.served_ok s rq m hT
  simp [h1, h2] at hv
  have hp' : ¬ (4 ≤ p ∧ p ≠ 0xFF) := by omega
  have hl : (m.parcel && !(decide (p < 4) && ((s.received rq).parcel p).live)) = false := by
          rw [State.received_parcel]; cases hm : m.parcel <;> simp [hm] at hl ⊢; simp [hl]
  unfold State.admission; simp only [hv, hp', hl, hs]
  cases hf' : m.feature <;> simp [State.received_feature]; simp [hf _ hf']
theorem State.takes_of_owner {s : State} {rq p} (h : s.fromOwner rq p = true) : s.takes rq = true ∧ p < 4 ∧ (s.parcel p).live = true ∧ isSideband rq = false ∧ requesterPort rq = some (s.parcel p).owner := by
  simp [State.fromOwner] at h; cases rq <;> simp_all [requesterPort, Requester.portOf, isSideband]
theorem State.takes_of_principal {s : State} {rq} (h : s.fromPrincipal rq = true) : s.takes rq = true ∧ isSideband rq = false ∧ ∃ k, requesterPort rq = some k ∧ s.isPrincipal k = true := by
  simp [State.fromPrincipal] at h; cases rq <;> simp_all [requesterPort, Requester.portOf, isSideband]
theorem State.takes_of_either {s : State} {rq p} (h : s.fromEither rq p = true) : s.takes rq = true ∧ p < 4 ∧ (s.parcel p).live = true ∧ isSideband rq = false ∧ ∃ k, requesterPort rq = some k ∧ ((s.parcel p).owner = k ∨ s.isPrincipal k = true) := by
  simp [State.fromEither] at h; cases rq <;> simp_all [requesterPort, Requester.portOf, isSideband]
/-- So does one from the port that owns its parcel. -/
theorem State.request_owner (s : State) (rq m p h i) (hT : s.fromOwner rq p = true) (h0 : m.scope = .owner) (h2 : m.sideOnly = false) (hf : ∀ k, m.feature = some k → s.hasFeature k = true) :
   s.request rq m p h i = .next (match (h (s.received rq)).2 with
     | some a => (h (s.received rq)).1.answer (some rq) m.code p s.plate.wall.toNat a | none => (h (s.received rq)).1) := by
  obtain ⟨a, b, c, d, e⟩ := State.takes_of_owner hT
  exact State.request_ok s rq m p h i a (by simp [d]) (by simp [h2]) (.inl b) (fun _ => ⟨b, c⟩) (by simp [State.inScope, e, h0, State.received_parcel]) hf
/-- So does one from the owner or the principal. -/
theorem State.request_either (s : State) (rq m p h i) (hT : s.fromEither rq p = true) (h0 : m.scope = .ownerOrPrincipal) (h2 : m.sideOnly = false) (hf : ∀ k, m.feature = some k → s.hasFeature k = true) :
   s.request rq m p h i = .next (match (h (s.received rq)).2 with
     | some a => (h (s.received rq)).1.answer (some rq) m.code p s.plate.wall.toNat a | none => (h (s.received rq)).1) := by
  obtain ⟨a, b, c, d, k, e, e'⟩ := State.takes_of_either hT
  exact State.request_ok s rq m p h i a (by simp [d]) (by simp [h2]) (.inl b) (fun _ => ⟨b, c⟩) (by rcases e' with e' | e' <;> simp [State.inScope, e, h0, State.received_parcel, State.received_principal, e']) hf
/-- So does one from the principal. -/
theorem State.request_principal (s : State) (rq m p h i) (hT : s.fromPrincipal rq = true) (h0 : m.scope = .principal) (h2 : m.sideOnly = false) (hp : p < 4 ∨ p = 0xFF)
   (hl : m.parcel = true → p < 4 ∧ (s.parcel p).live = true) (hf : ∀ k, m.feature = some k → s.hasFeature k = true) :
   s.request rq m p h i = .next (match (h (s.received rq)).2 with
     | some a => (h (s.received rq)).1.answer (some rq) m.code p s.plate.wall.toNat a | none => (h (s.received rq)).1) := by
  obtain ⟨a, d, k, e, e'⟩ := State.takes_of_principal hT
  exact State.request_ok s rq m p h i a (by simp [d]) (by simp [h2]) hp hl (by simp [State.inScope, e, h0, State.received_principal, e']) hf
/-- So does one that any sender may make. -/
theorem State.request_any (s : State) (rq m p h i) (hT : s.takes rq = true) (h0 : m.scope = .any) (h1 : (isSideband rq && !m.side) = false) (h2 : (!isSideband rq && m.sideOnly) = false) (hp : p < 4 ∨ p = 0xFF)
   (hl : m.parcel = true → p < 4 ∧ (s.parcel p).live = true) (hf : ∀ k, m.feature = some k → s.hasFeature k = true) :
   s.request rq m p h i = .next (match (h (s.received rq)).2 with
     | some a => (h (s.received rq)).1.answer (some rq) m.code p s.plate.wall.toNat a | none => (h (s.received rq)).1) := by
  exact State.request_ok s rq m p h i hT h1 h2 hp hl (by simp [State.inScope, h0]; split <;> rfl) hf

/-- A request that must wait is kept with its queues, and its slot is the device's (17 R356, R367). -/
theorem State.request_waits (s : State) (k n g m p h i) (hh : s.hears (.slot k n g) = true) (hd : s.raising.done = true) (hw : s.writeHeld k = false)
   (hq : s.mustQueue (some k) (s.reqKeys (.slot k n g) m p) (msgNow m.code) = true) :
   s.request (.slot k n g) m p h i = .next ((s.received (.slot k n g)).holdReq (some k) (some n) (s.reqKeys (.slot k n g) m p) (msgNow m.code) i) := by
  simp only [State.hears, Bool.and_eq_true, Bool.not_eq_true', decide_eq_true_eq] at hh
  obtain ⟨⟨⟨a, b⟩, c⟩, d⟩ := hh
  simp only [State.request, State.deliver, requesterOk, State.takeSlot, State.received, a, b, c, d, hd, hw, hq]; simp
/-- A write of BAR0 has its effect unless an earlier write of its port waits for credits (17 R355). -/
theorem State.barWrite_free (s : State) (p i g) (hp : p < 4) (hw : s.writeHeld p = false) : s.barWrite p i g = .next (g s) := by
  simp [State.barWrite, State.onPort, hp, hw]
theorem State.barWrite_held (s : State) (p i g) (hp : p < 4) (hw : s.writeHeld p = true) : s.barWrite p i g = .next (s.holdWrite p i) := by
  simp [State.barWrite, State.onPort, hp, hw]
/-- Nothing is taken up while nothing waits. -/
@[simp] theorem State.takeHeld_nil (s : State) (before : List Held) : s.takeHeld before [] = none := rfl
/-- What is taken up is a command that waits and whose turn has come, in the state in which it waits no longer. -/
theorem State.takeHeld_some (s : State) (before l : List Held) (i t) (h : s.takeHeld before l = some (i, t)) :
   ∃ a x c, l = a ++ x :: c ∧ i = x.cmd ∧ t = s.released x (before ++ a ++ c) ∧ s.heldReady (before ++ a) x = true := by
  induction l generalizing before with
  | nil => simp [State.takeHeld] at h
  | cons y l ih =>
    unfold State.takeHeld at h
    split at h
    · rename_i hr; cases h; exact ⟨[], y, l, rfl, rfl, by simp, by simpa using hr⟩
    · obtain ⟨a, x, c, h1, h2, h3, h4⟩ := ih _ h
      exact ⟨y :: a, x, c, by simp [h1], h2, by simpa using h3, by simpa using h4⟩

end Sys2Proof.Machine
end

