-- ==== Sys2Proof/Laws/State.lean ====
section
/-! SUPPORT. What each update of the state leaves alone, field by field and through the accessors of the units. -/

namespace Sys2Proof.Machine
open Sys2Proof

/- setBay writes bays only. -/
@[simp] theorem State.setBay_parcels (s : State) (b : BayId) (x : Bay) : (s.setBay b x).parcels = s.parcels := rfl
@[simp] theorem State.setBay_fields (s : State) (b : BayId) (x : Bay) : (s.setBay b x).fields = s.fields := rfl
@[simp] theorem State.setBay_seams (s : State) (b : BayId) (x : Bay) : (s.setBay b x).seams = s.seams := rfl
@[simp] theorem State.setBay_hops (s : State) (b : BayId) (x : Bay) : (s.setBay b x).hops = s.hops := rfl
@[simp] theorem State.setBay_casks (s : State) (b : BayId) (x : Bay) : (s.setBay b x).casks = s.casks := rfl
@[simp] theorem State.setBay_gw (s : State) (b : BayId) (x : Bay) : (s.setBay b x).gw = s.gw := rfl
@[simp] theorem State.setBay_raising (s : State) (b : BayId) (x : Bay) : (s.setBay b x).raising = s.raising := rfl
@[simp] theorem State.setBay_ports (s : State) (b : BayId) (x : Bay) : (s.setBay b x).ports = s.ports := rfl
@[simp] theorem State.setBay_taps (s : State) (b : BayId) (x : Bay) : (s.setBay b x).taps = s.taps := rfl
@[simp] theorem State.setBay_flog (s : State) (b : BayId) (x : Bay) : (s.setBay b x).flog = s.flog := rfl
@[simp] theorem State.setBay_baySus (s : State) (b : BayId) (x : Bay) : (s.setBay b x).baySus = s.baySus := rfl
@[simp] theorem State.setBay_sealU (s : State) (b : BayId) (x : Bay) : (s.setBay b x).sealU = s.sealU := rfl
@[simp] theorem State.setBay_trellis (s : State) (b : BayId) (x : Bay) : (s.setBay b x).trellis = s.trellis := rfl
@[simp] theorem State.setBay_plate (s : State) (b : BayId) (x : Bay) : (s.setBay b x).plate = s.plate := rfl
@[simp] theorem State.setBay_pins (s : State) (b : BayId) (x : Bay) : (s.setBay b x).pins = s.pins := rfl
@[simp] theorem State.setBay_prt (s : State) (b : BayId) (x : Bay) : (s.setBay b x).prt = s.prt := rfl
@[simp] theorem State.setBay_waits (s : State) (b : BayId) (x : Bay) : (s.setBay b x).waits = s.waits := rfl
@[simp] theorem State.setBay_gwOrder (s : State) (b : BayId) (x : Bay) : (s.setBay b x).gwOrder = s.gwOrder := rfl
@[simp] theorem State.setBay_held (s : State) (b : BayId) (x : Bay) : (s.setBay b x).held = s.held := rfl
@[simp] theorem State.setBay_turn (s : State) (b : BayId) (x : Bay) : (s.setBay b x).turn = s.turn := rfl
@[simp] theorem State.setBay_out (s : State) (b : BayId) (x : Bay) : (s.setBay b x).out = s.out := rfl
@[simp] theorem State.setBay_tNs (s : State) (b : BayId) (x : Bay) : (s.setBay b x).tNs = s.tNs := rfl
@[simp] theorem State.setBay_freeCtr (s : State) (b : BayId) (x : Bay) : (s.setBay b x).freeCtr = s.freeCtr := rfl
@[simp] theorem State.setBay_pending (s : State) (b : BayId) (x : Bay) : (s.setBay b x).pending = s.pending := rfl
@[simp] theorem State.setBay_parcel (s : State) (b : BayId) (x : Bay) (k : Nat) : (s.setBay b x).parcel k = s.parcel k := rfl
@[simp] theorem State.setBay_field (s : State) (b : BayId) (x : Bay) (k : Nat) : (s.setBay b x).field k = s.field k := rfl
@[simp] theorem State.setBay_seam (s : State) (b : BayId) (x : Bay) (k : Nat) : (s.setBay b x).seam k = s.seam k := rfl
@[simp] theorem State.setBay_cask (s : State) (b : BayId) (x : Bay) (k : Nat) : (s.setBay b x).cask k = s.cask k := rfl
@[simp] theorem State.setBay_port (s : State) (b : BayId) (x : Bay) (k : Nat) : (s.setBay b x).port k = s.port k := rfl
@[simp] theorem State.setBay_tap (s : State) (b : BayId) (x : Bay) (k : Nat) : (s.setBay b x).tap k = s.tap k := rfl

/- modBay writes bays only. -/
@[simp] theorem State.modBay_parcels (s : State) (b : BayId) (g : Bay → Bay) : (s.modBay b g).parcels = s.parcels := rfl
@[simp] theorem State.modBay_fields (s : State) (b : BayId) (g : Bay → Bay) : (s.modBay b g).fields = s.fields := rfl
@[simp] theorem State.modBay_seams (s : State) (b : BayId) (g : Bay → Bay) : (s.modBay b g).seams = s.seams := rfl
@[simp] theorem State.modBay_hops (s : State) (b : BayId) (g : Bay → Bay) : (s.modBay b g).hops = s.hops := rfl
@[simp] theorem State.modBay_casks (s : State) (b : BayId) (g : Bay → Bay) : (s.modBay b g).casks = s.casks := rfl
@[simp] theorem State.modBay_gw (s : State) (b : BayId) (g : Bay → Bay) : (s.modBay b g).gw = s.gw := rfl
@[simp] theorem State.modBay_raising (s : State) (b : BayId) (g : Bay → Bay) : (s.modBay b g).raising = s.raising := rfl
@[simp] theorem State.modBay_ports (s : State) (b : BayId) (g : Bay → Bay) : (s.modBay b g).ports = s.ports := rfl
@[simp] theorem State.modBay_taps (s : State) (b : BayId) (g : Bay → Bay) : (s.modBay b g).taps = s.taps := rfl
@[simp] theorem State.modBay_flog (s : State) (b : BayId) (g : Bay → Bay) : (s.modBay b g).flog = s.flog := rfl
@[simp] theorem State.modBay_baySus (s : State) (b : BayId) (g : Bay → Bay) : (s.modBay b g).baySus = s.baySus := rfl
@[simp] theorem State.modBay_sealU (s : State) (b : BayId) (g : Bay → Bay) : (s.modBay b g).sealU = s.sealU := rfl
@[simp] theorem State.modBay_trellis (s : State) (b : BayId) (g : Bay → Bay) : (s.modBay b g).trellis = s.trellis := rfl
@[simp] theorem State.modBay_plate (s : State) (b : BayId) (g : Bay → Bay) : (s.modBay b g).plate = s.plate := rfl
@[simp] theorem State.modBay_pins (s : State) (b : BayId) (g : Bay → Bay) : (s.modBay b g).pins = s.pins := rfl
@[simp] theorem State.modBay_prt (s : State) (b : BayId) (g : Bay → Bay) : (s.modBay b g).prt = s.prt := rfl
@[simp] theorem State.modBay_waits (s : State) (b : BayId) (g : Bay → Bay) : (s.modBay b g).waits = s.waits := rfl
@[simp] theorem State.modBay_gwOrder (s : State) (b : BayId) (g : Bay → Bay) : (s.modBay b g).gwOrder = s.gwOrder := rfl
@[simp] theorem State.modBay_held (s : State) (b : BayId) (g : Bay → Bay) : (s.modBay b g).held = s.held := rfl
@[simp] theorem State.modBay_turn (s : State) (b : BayId) (g : Bay → Bay) : (s.modBay b g).turn = s.turn := rfl
@[simp] theorem State.modBay_out (s : State) (b : BayId) (g : Bay → Bay) : (s.modBay b g).out = s.out := rfl
@[simp] theorem State.modBay_tNs (s : State) (b : BayId) (g : Bay → Bay) : (s.modBay b g).tNs = s.tNs := rfl
@[simp] theorem State.modBay_freeCtr (s : State) (b : BayId) (g : Bay → Bay) : (s.modBay b g).freeCtr = s.freeCtr := rfl
@[simp] theorem State.modBay_pending (s : State) (b : BayId) (g : Bay → Bay) : (s.modBay b g).pending = s.pending := rfl
@[simp] theorem State.modBay_parcel (s : State) (b : BayId) (g : Bay → Bay) (k : Nat) : (s.modBay b g).parcel k = s.parcel k := rfl
@[simp] theorem State.modBay_field (s : State) (b : BayId) (g : Bay → Bay) (k : Nat) : (s.modBay b g).field k = s.field k := rfl
@[simp] theorem State.modBay_seam (s : State) (b : BayId) (g : Bay → Bay) (k : Nat) : (s.modBay b g).seam k = s.seam k := rfl
@[simp] theorem State.modBay_cask (s : State) (b : BayId) (g : Bay → Bay) (k : Nat) : (s.modBay b g).cask k = s.cask k := rfl
@[simp] theorem State.modBay_port (s : State) (b : BayId) (g : Bay → Bay) (k : Nat) : (s.modBay b g).port k = s.port k := rfl
@[simp] theorem State.modBay_tap (s : State) (b : BayId) (g : Bay → Bay) (k : Nat) : (s.modBay b g).tap k = s.tap k := rfl

/- setField writes fields only. -/
@[simp] theorem State.setField_bays (s : State) (f : Nat) (x : Field) : (s.setField f x).bays = s.bays := rfl
@[simp] theorem State.setField_parcels (s : State) (f : Nat) (x : Field) : (s.setField f x).parcels = s.parcels := rfl
@[simp] theorem State.setField_seams (s : State) (f : Nat) (x : Field) : (s.setField f x).seams = s.seams := rfl
@[simp] theorem State.setField_hops (s : State) (f : Nat) (x : Field) : (s.setField f x).hops = s.hops := rfl
@[simp] theorem State.setField_casks (s : State) (f : Nat) (x : Field) : (s.setField f x).casks = s.casks := rfl
@[simp] theorem State.setField_gw (s : State) (f : Nat) (x : Field) : (s.setField f x).gw = s.gw := rfl
@[simp] theorem State.setField_raising (s : State) (f : Nat) (x : Field) : (s.setField f x).raising = s.raising := rfl
@[simp] theorem State.setField_ports (s : State) (f : Nat) (x : Field) : (s.setField f x).ports = s.ports := rfl
@[simp] theorem State.setField_taps (s : State) (f : Nat) (x : Field) : (s.setField f x).taps = s.taps := rfl
@[simp] theorem State.setField_flog (s : State) (f : Nat) (x : Field) : (s.setField f x).flog = s.flog := rfl
@[simp] theorem State.setField_baySus (s : State) (f : Nat) (x : Field) : (s.setField f x).baySus = s.baySus := rfl
@[simp] theorem State.setField_sealU (s : State) (f : Nat) (x : Field) : (s.setField f x).sealU = s.sealU := rfl
@[simp] theorem State.setField_trellis (s : State) (f : Nat) (x : Field) : (s.setField f x).trellis = s.trellis := rfl
@[simp] theorem State.setField_plate (s : State) (f : Nat) (x : Field) : (s.setField f x).plate = s.plate := rfl
@[simp] theorem State.setField_pins (s : State) (f : Nat) (x : Field) : (s.setField f x).pins = s.pins := rfl
@[simp] theorem State.setField_prt (s : State) (f : Nat) (x : Field) : (s.setField f x).prt = s.prt := rfl
@[simp] theorem State.setField_waits (s : State) (f : Nat) (x : Field) : (s.setField f x).waits = s.waits := rfl
@[simp] theorem State.setField_gwOrder (s : State) (f : Nat) (x : Field) : (s.setField f x).gwOrder = s.gwOrder := rfl
@[simp] theorem State.setField_held (s : State) (f : Nat) (x : Field) : (s.setField f x).held = s.held := rfl
@[simp] theorem State.setField_turn (s : State) (f : Nat) (x : Field) : (s.setField f x).turn = s.turn := rfl
@[simp] theorem State.setField_out (s : State) (f : Nat) (x : Field) : (s.setField f x).out = s.out := rfl
@[simp] theorem State.setField_tNs (s : State) (f : Nat) (x : Field) : (s.setField f x).tNs = s.tNs := rfl
@[simp] theorem State.setField_freeCtr (s : State) (f : Nat) (x : Field) : (s.setField f x).freeCtr = s.freeCtr := rfl
@[simp] theorem State.setField_pending (s : State) (f : Nat) (x : Field) : (s.setField f x).pending = s.pending := rfl
@[simp] theorem State.setField_bay (s : State) (f : Nat) (x : Field) (k : BayId) : (s.setField f x).bay k = s.bay k := rfl
@[simp] theorem State.setField_parcel (s : State) (f : Nat) (x : Field) (k : Nat) : (s.setField f x).parcel k = s.parcel k := rfl
@[simp] theorem State.setField_seam (s : State) (f : Nat) (x : Field) (k : Nat) : (s.setField f x).seam k = s.seam k := rfl
@[simp] theorem State.setField_cask (s : State) (f : Nat) (x : Field) (k : Nat) : (s.setField f x).cask k = s.cask k := rfl
@[simp] theorem State.setField_port (s : State) (f : Nat) (x : Field) (k : Nat) : (s.setField f x).port k = s.port k := rfl
@[simp] theorem State.setField_tap (s : State) (f : Nat) (x : Field) (k : Nat) : (s.setField f x).tap k = s.tap k := rfl

/- modField writes fields only. -/
@[simp] theorem State.modField_bays (s : State) (f : Nat) (g : Field → Field) : (s.modField f g).bays = s.bays := rfl
@[simp] theorem State.modField_parcels (s : State) (f : Nat) (g : Field → Field) : (s.modField f g).parcels = s.parcels := rfl
@[simp] theorem State.modField_seams (s : State) (f : Nat) (g : Field → Field) : (s.modField f g).seams = s.seams := rfl
@[simp] theorem State.modField_hops (s : State) (f : Nat) (g : Field → Field) : (s.modField f g).hops = s.hops := rfl
@[simp] theorem State.modField_casks (s : State) (f : Nat) (g : Field → Field) : (s.modField f g).casks = s.casks := rfl
@[simp] theorem State.modField_gw (s : State) (f : Nat) (g : Field → Field) : (s.modField f g).gw = s.gw := rfl
@[simp] theorem State.modField_raising (s : State) (f : Nat) (g : Field → Field) : (s.modField f g).raising = s.raising := rfl
@[simp] theorem State.modField_ports (s : State) (f : Nat) (g : Field → Field) : (s.modField f g).ports = s.ports := rfl
@[simp] theorem State.modField_taps (s : State) (f : Nat) (g : Field → Field) : (s.modField f g).taps = s.taps := rfl
@[simp] theorem State.modField_flog (s : State) (f : Nat) (g : Field → Field) : (s.modField f g).flog = s.flog := rfl
@[simp] theorem State.modField_baySus (s : State) (f : Nat) (g : Field → Field) : (s.modField f g).baySus = s.baySus := rfl
@[simp] theorem State.modField_sealU (s : State) (f : Nat) (g : Field → Field) : (s.modField f g).sealU = s.sealU := rfl
@[simp] theorem State.modField_trellis (s : State) (f : Nat) (g : Field → Field) : (s.modField f g).trellis = s.trellis := rfl
@[simp] theorem State.modField_plate (s : State) (f : Nat) (g : Field → Field) : (s.modField f g).plate = s.plate := rfl
@[simp] theorem State.modField_pins (s : State) (f : Nat) (g : Field → Field) : (s.modField f g).pins = s.pins := rfl
@[simp] theorem State.modField_prt (s : State) (f : Nat) (g : Field → Field) : (s.modField f g).prt = s.prt := rfl
@[simp] theorem State.modField_waits (s : State) (f : Nat) (g : Field → Field) : (s.modField f g).waits = s.waits := rfl
@[simp] theorem State.modField_gwOrder (s : State) (f : Nat) (g : Field → Field) : (s.modField f g).gwOrder = s.gwOrder := rfl
@[simp] theorem State.modField_held (s : State) (f : Nat) (g : Field → Field) : (s.modField f g).held = s.held := rfl
@[simp] theorem State.modField_turn (s : State) (f : Nat) (g : Field → Field) : (s.modField f g).turn = s.turn := rfl
@[simp] theorem State.modField_out (s : State) (f : Nat) (g : Field → Field) : (s.modField f g).out = s.out := rfl
@[simp] theorem State.modField_tNs (s : State) (f : Nat) (g : Field → Field) : (s.modField f g).tNs = s.tNs := rfl
@[simp] theorem State.modField_freeCtr (s : State) (f : Nat) (g : Field → Field) : (s.modField f g).freeCtr = s.freeCtr := rfl
@[simp] theorem State.modField_pending (s : State) (f : Nat) (g : Field → Field) : (s.modField f g).pending = s.pending := rfl
@[simp] theorem State.modField_bay (s : State) (f : Nat) (g : Field → Field) (k : BayId) : (s.modField f g).bay k = s.bay k := rfl
@[simp] theorem State.modField_parcel (s : State) (f : Nat) (g : Field → Field) (k : Nat) : (s.modField f g).parcel k = s.parcel k := rfl
@[simp] theorem State.modField_seam (s : State) (f : Nat) (g : Field → Field) (k : Nat) : (s.modField f g).seam k = s.seam k := rfl
@[simp] theorem State.modField_cask (s : State) (f : Nat) (g : Field → Field) (k : Nat) : (s.modField f g).cask k = s.cask k := rfl
@[simp] theorem State.modField_port (s : State) (f : Nat) (g : Field → Field) (k : Nat) : (s.modField f g).port k = s.port k := rfl
@[simp] theorem State.modField_tap (s : State) (f : Nat) (g : Field → Field) (k : Nat) : (s.modField f g).tap k = s.tap k := rfl

/- setSeam writes seams only. -/
@[simp] theorem State.setSeam_bays (s : State) (n : Nat) (x : Seam) : (s.setSeam n x).bays = s.bays := rfl
@[simp] theorem State.setSeam_parcels (s : State) (n : Nat) (x : Seam) : (s.setSeam n x).parcels = s.parcels := rfl
@[simp] theorem State.setSeam_fields (s : State) (n : Nat) (x : Seam) : (s.setSeam n x).fields = s.fields := rfl
@[simp] theorem State.setSeam_hops (s : State) (n : Nat) (x : Seam) : (s.setSeam n x).hops = s.hops := rfl
@[simp] theorem State.setSeam_casks (s : State) (n : Nat) (x : Seam) : (s.setSeam n x).casks = s.casks := rfl
@[simp] theorem State.setSeam_gw (s : State) (n : Nat) (x : Seam) : (s.setSeam n x).gw = s.gw := rfl
@[simp] theorem State.setSeam_raising (s : State) (n : Nat) (x : Seam) : (s.setSeam n x).raising = s.raising := rfl
@[simp] theorem State.setSeam_ports (s : State) (n : Nat) (x : Seam) : (s.setSeam n x).ports = s.ports := rfl
@[simp] theorem State.setSeam_taps (s : State) (n : Nat) (x : Seam) : (s.setSeam n x).taps = s.taps := rfl
@[simp] theorem State.setSeam_flog (s : State) (n : Nat) (x : Seam) : (s.setSeam n x).flog = s.flog := rfl
@[simp] theorem State.setSeam_baySus (s : State) (n : Nat) (x : Seam) : (s.setSeam n x).baySus = s.baySus := rfl
@[simp] theorem State.setSeam_sealU (s : State) (n : Nat) (x : Seam) : (s.setSeam n x).sealU = s.sealU := rfl
@[simp] theorem State.setSeam_trellis (s : State) (n : Nat) (x : Seam) : (s.setSeam n x).trellis = s.trellis := rfl
@[simp] theorem State.setSeam_plate (s : State) (n : Nat) (x : Seam) : (s.setSeam n x).plate = s.plate := rfl
@[simp] theorem State.setSeam_pins (s : State) (n : Nat) (x : Seam) : (s.setSeam n x).pins = s.pins := rfl
@[simp] theorem State.setSeam_prt (s : State) (n : Nat) (x : Seam) : (s.setSeam n x).prt = s.prt := rfl
@[simp] theorem State.setSeam_waits (s : State) (n : Nat) (x : Seam) : (s.setSeam n x).waits = s.waits := rfl
@[simp] theorem State.setSeam_gwOrder (s : State) (n : Nat) (x : Seam) : (s.setSeam n x).gwOrder = s.gwOrder := rfl
@[simp] theorem State.setSeam_held (s : State) (n : Nat) (x : Seam) : (s.setSeam n x).held = s.held := rfl
@[simp] theorem State.setSeam_turn (s : State) (n : Nat) (x : Seam) : (s.setSeam n x).turn = s.turn := rfl
@[simp] theorem State.setSeam_out (s : State) (n : Nat) (x : Seam) : (s.setSeam n x).out = s.out := rfl
@[simp] theorem State.setSeam_tNs (s : State) (n : Nat) (x : Seam) : (s.setSeam n x).tNs = s.tNs := rfl
@[simp] theorem State.setSeam_freeCtr (s : State) (n : Nat) (x : Seam) : (s.setSeam n x).freeCtr = s.freeCtr := rfl
@[simp] theorem State.setSeam_pending (s : State) (n : Nat) (x : Seam) : (s.setSeam n x).pending = s.pending := rfl
@[simp] theorem State.setSeam_bay (s : State) (n : Nat) (x : Seam) (k : BayId) : (s.setSeam n x).bay k = s.bay k := rfl
@[simp] theorem State.setSeam_parcel (s : State) (n : Nat) (x : Seam) (k : Nat) : (s.setSeam n x).parcel k = s.parcel k := rfl
@[simp] theorem State.setSeam_field (s : State) (n : Nat) (x : Seam) (k : Nat) : (s.setSeam n x).field k = s.field k := rfl
@[simp] theorem State.setSeam_cask (s : State) (n : Nat) (x : Seam) (k : Nat) : (s.setSeam n x).cask k = s.cask k := rfl
@[simp] theorem State.setSeam_port (s : State) (n : Nat) (x : Seam) (k : Nat) : (s.setSeam n x).port k = s.port k := rfl
@[simp] theorem State.setSeam_tap (s : State) (n : Nat) (x : Seam) (k : Nat) : (s.setSeam n x).tap k = s.tap k := rfl

/- modSeam writes seams only. -/
@[simp] theorem State.modSeam_bays (s : State) (n : Nat) (g : Seam → Seam) : (s.modSeam n g).bays = s.bays := rfl
@[simp] theorem State.modSeam_parcels (s : State) (n : Nat) (g : Seam → Seam) : (s.modSeam n g).parcels = s.parcels := rfl
@[simp] theorem State.modSeam_fields (s : State) (n : Nat) (g : Seam → Seam) : (s.modSeam n g).fields = s.fields := rfl
@[simp] theorem State.modSeam_hops (s : State) (n : Nat) (g : Seam → Seam) : (s.modSeam n g).hops = s.hops := rfl
@[simp] theorem State.modSeam_casks (s : State) (n : Nat) (g : Seam → Seam) : (s.modSeam n g).casks = s.casks := rfl
@[simp] theorem State.modSeam_gw (s : State) (n : Nat) (g : Seam → Seam) : (s.modSeam n g).gw = s.gw := rfl
@[simp] theorem State.modSeam_raising (s : State) (n : Nat) (g : Seam → Seam) : (s.modSeam n g).raising = s.raising := rfl
@[simp] theorem State.modSeam_ports (s : State) (n : Nat) (g : Seam → Seam) : (s.modSeam n g).ports = s.ports := rfl
@[simp] theorem State.modSeam_taps (s : State) (n : Nat) (g : Seam → Seam) : (s.modSeam n g).taps = s.taps := rfl
@[simp] theorem State.modSeam_flog (s : State) (n : Nat) (g : Seam → Seam) : (s.modSeam n g).flog = s.flog := rfl
@[simp] theorem State.modSeam_baySus (s : State) (n : Nat) (g : Seam → Seam) : (s.modSeam n g).baySus = s.baySus := rfl
@[simp] theorem State.modSeam_sealU (s : State) (n : Nat) (g : Seam → Seam) : (s.modSeam n g).sealU = s.sealU := rfl
@[simp] theorem State.modSeam_trellis (s : State) (n : Nat) (g : Seam → Seam) : (s.modSeam n g).trellis = s.trellis := rfl
@[simp] theorem State.modSeam_plate (s : State) (n : Nat) (g : Seam → Seam) : (s.modSeam n g).plate = s.plate := rfl
@[simp] theorem State.modSeam_pins (s : State) (n : Nat) (g : Seam → Seam) : (s.modSeam n g).pins = s.pins := rfl
@[simp] theorem State.modSeam_prt (s : State) (n : Nat) (g : Seam → Seam) : (s.modSeam n g).prt = s.prt := rfl
@[simp] theorem State.modSeam_waits (s : State) (n : Nat) (g : Seam → Seam) : (s.modSeam n g).waits = s.waits := rfl
@[simp] theorem State.modSeam_gwOrder (s : State) (n : Nat) (g : Seam → Seam) : (s.modSeam n g).gwOrder = s.gwOrder := rfl
@[simp] theorem State.modSeam_held (s : State) (n : Nat) (g : Seam → Seam) : (s.modSeam n g).held = s.held := rfl
@[simp] theorem State.modSeam_turn (s : State) (n : Nat) (g : Seam → Seam) : (s.modSeam n g).turn = s.turn := rfl
@[simp] theorem State.modSeam_out (s : State) (n : Nat) (g : Seam → Seam) : (s.modSeam n g).out = s.out := rfl
@[simp] theorem State.modSeam_tNs (s : State) (n : Nat) (g : Seam → Seam) : (s.modSeam n g).tNs = s.tNs := rfl
@[simp] theorem State.modSeam_freeCtr (s : State) (n : Nat) (g : Seam → Seam) : (s.modSeam n g).freeCtr = s.freeCtr := rfl
@[simp] theorem State.modSeam_pending (s : State) (n : Nat) (g : Seam → Seam) : (s.modSeam n g).pending = s.pending := rfl
@[simp] theorem State.modSeam_bay (s : State) (n : Nat) (g : Seam → Seam) (k : BayId) : (s.modSeam n g).bay k = s.bay k := rfl
@[simp] theorem State.modSeam_parcel (s : State) (n : Nat) (g : Seam → Seam) (k : Nat) : (s.modSeam n g).parcel k = s.parcel k := rfl
@[simp] theorem State.modSeam_field (s : State) (n : Nat) (g : Seam → Seam) (k : Nat) : (s.modSeam n g).field k = s.field k := rfl
@[simp] theorem State.modSeam_cask (s : State) (n : Nat) (g : Seam → Seam) (k : Nat) : (s.modSeam n g).cask k = s.cask k := rfl
@[simp] theorem State.modSeam_port (s : State) (n : Nat) (g : Seam → Seam) (k : Nat) : (s.modSeam n g).port k = s.port k := rfl
@[simp] theorem State.modSeam_tap (s : State) (n : Nat) (g : Seam → Seam) (k : Nat) : (s.modSeam n g).tap k = s.tap k := rfl

/- setCask writes casks only. -/
@[simp] theorem State.setCask_bays (s : State) (c : Nat) (x : Cask) : (s.setCask c x).bays = s.bays := rfl
@[simp] theorem State.setCask_parcels (s : State) (c : Nat) (x : Cask) : (s.setCask c x).parcels = s.parcels := rfl
@[simp] theorem State.setCask_fields (s : State) (c : Nat) (x : Cask) : (s.setCask c x).fields = s.fields := rfl
@[simp] theorem State.setCask_seams (s : State) (c : Nat) (x : Cask) : (s.setCask c x).seams = s.seams := rfl
@[simp] theorem State.setCask_hops (s : State) (c : Nat) (x : Cask) : (s.setCask c x).hops = s.hops := rfl
@[simp] theorem State.setCask_gw (s : State) (c : Nat) (x : Cask) : (s.setCask c x).gw = s.gw := rfl
@[simp] theorem State.setCask_raising (s : State) (c : Nat) (x : Cask) : (s.setCask c x).raising = s.raising := rfl
@[simp] theorem State.setCask_ports (s : State) (c : Nat) (x : Cask) : (s.setCask c x).ports = s.ports := rfl
@[simp] theorem State.setCask_taps (s : State) (c : Nat) (x : Cask) : (s.setCask c x).taps = s.taps := rfl
@[simp] theorem State.setCask_flog (s : State) (c : Nat) (x : Cask) : (s.setCask c x).flog = s.flog := rfl
@[simp] theorem State.setCask_baySus (s : State) (c : Nat) (x : Cask) : (s.setCask c x).baySus = s.baySus := rfl
@[simp] theorem State.setCask_sealU (s : State) (c : Nat) (x : Cask) : (s.setCask c x).sealU = s.sealU := rfl
@[simp] theorem State.setCask_trellis (s : State) (c : Nat) (x : Cask) : (s.setCask c x).trellis = s.trellis := rfl
@[simp] theorem State.setCask_plate (s : State) (c : Nat) (x : Cask) : (s.setCask c x).plate = s.plate := rfl
@[simp] theorem State.setCask_pins (s : State) (c : Nat) (x : Cask) : (s.setCask c x).pins = s.pins := rfl
@[simp] theorem State.setCask_prt (s : State) (c : Nat) (x : Cask) : (s.setCask c x).prt = s.prt := rfl
@[simp] theorem State.setCask_waits (s : State) (c : Nat) (x : Cask) : (s.setCask c x).waits = s.waits := rfl
@[simp] theorem State.setCask_gwOrder (s : State) (c : Nat) (x : Cask) : (s.setCask c x).gwOrder = s.gwOrder := rfl
@[simp] theorem State.setCask_held (s : State) (c : Nat) (x : Cask) : (s.setCask c x).held = s.held := rfl
@[simp] theorem State.setCask_turn (s : State) (c : Nat) (x : Cask) : (s.setCask c x).turn = s.turn := rfl
@[simp] theorem State.setCask_out (s : State) (c : Nat) (x : Cask) : (s.setCask c x).out = s.out := rfl
@[simp] theorem State.setCask_tNs (s : State) (c : Nat) (x : Cask) : (s.setCask c x).tNs = s.tNs := rfl
@[simp] theorem State.setCask_freeCtr (s : State) (c : Nat) (x : Cask) : (s.setCask c x).freeCtr = s.freeCtr := rfl
@[simp] theorem State.setCask_pending (s : State) (c : Nat) (x : Cask) : (s.setCask c x).pending = s.pending := rfl
@[simp] theorem State.setCask_bay (s : State) (c : Nat) (x : Cask) (k : BayId) : (s.setCask c x).bay k = s.bay k := rfl
@[simp] theorem State.setCask_parcel (s : State) (c : Nat) (x : Cask) (k : Nat) : (s.setCask c x).parcel k = s.parcel k := rfl
@[simp] theorem State.setCask_field (s : State) (c : Nat) (x : Cask) (k : Nat) : (s.setCask c x).field k = s.field k := rfl
@[simp] theorem State.setCask_seam (s : State) (c : Nat) (x : Cask) (k : Nat) : (s.setCask c x).seam k = s.seam k := rfl
@[simp] theorem State.setCask_port (s : State) (c : Nat) (x : Cask) (k : Nat) : (s.setCask c x).port k = s.port k := rfl
@[simp] theorem State.setCask_tap (s : State) (c : Nat) (x : Cask) (k : Nat) : (s.setCask c x).tap k = s.tap k := rfl

/- modCask writes casks only. -/
@[simp] theorem State.modCask_bays (s : State) (c : Nat) (g : Cask → Cask) : (s.modCask c g).bays = s.bays := rfl
@[simp] theorem State.modCask_parcels (s : State) (c : Nat) (g : Cask → Cask) : (s.modCask c g).parcels = s.parcels := rfl
@[simp] theorem State.modCask_fields (s : State) (c : Nat) (g : Cask → Cask) : (s.modCask c g).fields = s.fields := rfl
@[simp] theorem State.modCask_seams (s : State) (c : Nat) (g : Cask → Cask) : (s.modCask c g).seams = s.seams := rfl
@[simp] theorem State.modCask_hops (s : State) (c : Nat) (g : Cask → Cask) : (s.modCask c g).hops = s.hops := rfl
@[simp] theorem State.modCask_gw (s : State) (c : Nat) (g : Cask → Cask) : (s.modCask c g).gw = s.gw := rfl
@[simp] theorem State.modCask_raising (s : State) (c : Nat) (g : Cask → Cask) : (s.modCask c g).raising = s.raising := rfl
@[simp] theorem State.modCask_ports (s : State) (c : Nat) (g : Cask → Cask) : (s.modCask c g).ports = s.ports := rfl
@[simp] theorem State.modCask_taps (s : State) (c : Nat) (g : Cask → Cask) : (s.modCask c g).taps = s.taps := rfl
@[simp] theorem State.modCask_flog (s : State) (c : Nat) (g : Cask → Cask) : (s.modCask c g).flog = s.flog := rfl
@[simp] theorem State.modCask_baySus (s : State) (c : Nat) (g : Cask → Cask) : (s.modCask c g).baySus = s.baySus := rfl
@[simp] theorem State.modCask_sealU (s : State) (c : Nat) (g : Cask → Cask) : (s.modCask c g).sealU = s.sealU := rfl
@[simp] theorem State.modCask_trellis (s : State) (c : Nat) (g : Cask → Cask) : (s.modCask c g).trellis = s.trellis := rfl
@[simp] theorem State.modCask_plate (s : State) (c : Nat) (g : Cask → Cask) : (s.modCask c g).plate = s.plate := rfl
@[simp] theorem State.modCask_pins (s : State) (c : Nat) (g : Cask → Cask) : (s.modCask c g).pins = s.pins := rfl
@[simp] theorem State.modCask_prt (s : State) (c : Nat) (g : Cask → Cask) : (s.modCask c g).prt = s.prt := rfl
@[simp] theorem State.modCask_waits (s : State) (c : Nat) (g : Cask → Cask) : (s.modCask c g).waits = s.waits := rfl
@[simp] theorem State.modCask_gwOrder (s : State) (c : Nat) (g : Cask → Cask) : (s.modCask c g).gwOrder = s.gwOrder := rfl
@[simp] theorem State.modCask_held (s : State) (c : Nat) (g : Cask → Cask) : (s.modCask c g).held = s.held := rfl
@[simp] theorem State.modCask_turn (s : State) (c : Nat) (g : Cask → Cask) : (s.modCask c g).turn = s.turn := rfl
@[simp] theorem State.modCask_out (s : State) (c : Nat) (g : Cask → Cask) : (s.modCask c g).out = s.out := rfl
@[simp] theorem State.modCask_tNs (s : State) (c : Nat) (g : Cask → Cask) : (s.modCask c g).tNs = s.tNs := rfl
@[simp] theorem State.modCask_freeCtr (s : State) (c : Nat) (g : Cask → Cask) : (s.modCask c g).freeCtr = s.freeCtr := rfl
@[simp] theorem State.modCask_pending (s : State) (c : Nat) (g : Cask → Cask) : (s.modCask c g).pending = s.pending := rfl
@[simp] theorem State.modCask_bay (s : State) (c : Nat) (g : Cask → Cask) (k : BayId) : (s.modCask c g).bay k = s.bay k := rfl
@[simp] theorem State.modCask_parcel (s : State) (c : Nat) (g : Cask → Cask) (k : Nat) : (s.modCask c g).parcel k = s.parcel k := rfl
@[simp] theorem State.modCask_field (s : State) (c : Nat) (g : Cask → Cask) (k : Nat) : (s.modCask c g).field k = s.field k := rfl
@[simp] theorem State.modCask_seam (s : State) (c : Nat) (g : Cask → Cask) (k : Nat) : (s.modCask c g).seam k = s.seam k := rfl
@[simp] theorem State.modCask_port (s : State) (c : Nat) (g : Cask → Cask) (k : Nat) : (s.modCask c g).port k = s.port k := rfl
@[simp] theorem State.modCask_tap (s : State) (c : Nat) (g : Cask → Cask) (k : Nat) : (s.modCask c g).tap k = s.tap k := rfl

/- setParcel writes parcels only. -/
@[simp] theorem State.setParcel_bays (s : State) (p : Nat) (x : Parcel) : (s.setParcel p x).bays = s.bays := rfl
@[simp] theorem State.setParcel_fields (s : State) (p : Nat) (x : Parcel) : (s.setParcel p x).fields = s.fields := rfl
@[simp] theorem State.setParcel_seams (s : State) (p : Nat) (x : Parcel) : (s.setParcel p x).seams = s.seams := rfl
@[simp] theorem State.setParcel_hops (s : State) (p : Nat) (x : Parcel) : (s.setParcel p x).hops = s.hops := rfl
@[simp] theorem State.setParcel_casks (s : State) (p : Nat) (x : Parcel) : (s.setParcel p x).casks = s.casks := rfl
@[simp] theorem State.setParcel_gw (s : State) (p : Nat) (x : Parcel) : (s.setParcel p x).gw = s.gw := rfl
@[simp] theorem State.setParcel_raising (s : State) (p : Nat) (x : Parcel) : (s.setParcel p x).raising = s.raising := rfl
@[simp] theorem State.setParcel_ports (s : State) (p : Nat) (x : Parcel) : (s.setParcel p x).ports = s.ports := rfl
@[simp] theorem State.setParcel_taps (s : State) (p : Nat) (x : Parcel) : (s.setParcel p x).taps = s.taps := rfl
@[simp] theorem State.setParcel_flog (s : State) (p : Nat) (x : Parcel) : (s.setParcel p x).flog = s.flog := rfl
@[simp] theorem State.setParcel_baySus (s : State) (p : Nat) (x : Parcel) : (s.setParcel p x).baySus = s.baySus := rfl
@[simp] theorem State.setParcel_sealU (s : State) (p : Nat) (x : Parcel) : (s.setParcel p x).sealU = s.sealU := rfl
@[simp] theorem State.setParcel_trellis (s : State) (p : Nat) (x : Parcel) : (s.setParcel p x).trellis = s.trellis := rfl
@[simp] theorem State.setParcel_plate (s : State) (p : Nat) (x : Parcel) : (s.setParcel p x).plate = s.plate := rfl
@[simp] theorem State.setParcel_pins (s : State) (p : Nat) (x : Parcel) : (s.setParcel p x).pins = s.pins := rfl
@[simp] theorem State.setParcel_prt (s : State) (p : Nat) (x : Parcel) : (s.setParcel p x).prt = s.prt := rfl
@[simp] theorem State.setParcel_waits (s : State) (p : Nat) (x : Parcel) : (s.setParcel p x).waits = s.waits := rfl
@[simp] theorem State.setParcel_gwOrder (s : State) (p : Nat) (x : Parcel) : (s.setParcel p x).gwOrder = s.gwOrder := rfl
@[simp] theorem State.setParcel_held (s : State) (p : Nat) (x : Parcel) : (s.setParcel p x).held = s.held := rfl
@[simp] theorem State.setParcel_turn (s : State) (p : Nat) (x : Parcel) : (s.setParcel p x).turn = s.turn := rfl
@[simp] theorem State.setParcel_out (s : State) (p : Nat) (x : Parcel) : (s.setParcel p x).out = s.out := rfl
@[simp] theorem State.setParcel_tNs (s : State) (p : Nat) (x : Parcel) : (s.setParcel p x).tNs = s.tNs := rfl
@[simp] theorem State.setParcel_freeCtr (s : State) (p : Nat) (x : Parcel) : (s.setParcel p x).freeCtr = s.freeCtr := rfl
@[simp] theorem State.setParcel_pending (s : State) (p : Nat) (x : Parcel) : (s.setParcel p x).pending = s.pending := rfl
@[simp] theorem State.setParcel_bay (s : State) (p : Nat) (x : Parcel) (k : BayId) : (s.setParcel p x).bay k = s.bay k := rfl
@[simp] theorem State.setParcel_field (s : State) (p : Nat) (x : Parcel) (k : Nat) : (s.setParcel p x).field k = s.field k := rfl
@[simp] theorem State.setParcel_seam (s : State) (p : Nat) (x : Parcel) (k : Nat) : (s.setParcel p x).seam k = s.seam k := rfl
@[simp] theorem State.setParcel_cask (s : State) (p : Nat) (x : Parcel) (k : Nat) : (s.setParcel p x).cask k = s.cask k := rfl
@[simp] theorem State.setParcel_port (s : State) (p : Nat) (x : Parcel) (k : Nat) : (s.setParcel p x).port k = s.port k := rfl
@[simp] theorem State.setParcel_tap (s : State) (p : Nat) (x : Parcel) (k : Nat) : (s.setParcel p x).tap k = s.tap k := rfl

/- modParcel writes parcels only. -/
@[simp] theorem State.modParcel_bays (s : State) (p : Nat) (g : Parcel → Parcel) : (s.modParcel p g).bays = s.bays := rfl
@[simp] theorem State.modParcel_fields (s : State) (p : Nat) (g : Parcel → Parcel) : (s.modParcel p g).fields = s.fields := rfl
@[simp] theorem State.modParcel_seams (s : State) (p : Nat) (g : Parcel → Parcel) : (s.modParcel p g).seams = s.seams := rfl
@[simp] theorem State.modParcel_hops (s : State) (p : Nat) (g : Parcel → Parcel) : (s.modParcel p g).hops = s.hops := rfl
@[simp] theorem State.modParcel_casks (s : State) (p : Nat) (g : Parcel → Parcel) : (s.modParcel p g).casks = s.casks := rfl
@[simp] theorem State.modParcel_gw (s : State) (p : Nat) (g : Parcel → Parcel) : (s.modParcel p g).gw = s.gw := rfl
@[simp] theorem State.modParcel_raising (s : State) (p : Nat) (g : Parcel → Parcel) : (s.modParcel p g).raising = s.raising := rfl
@[simp] theorem State.modParcel_ports (s : State) (p : Nat) (g : Parcel → Parcel) : (s.modParcel p g).ports = s.ports := rfl
@[simp] theorem State.modParcel_taps (s : State) (p : Nat) (g : Parcel → Parcel) : (s.modParcel p g).taps = s.taps := rfl
@[simp] theorem State.modParcel_flog (s : State) (p : Nat) (g : Parcel → Parcel) : (s.modParcel p g).flog = s.flog := rfl
@[simp] theorem State.modParcel_baySus (s : State) (p : Nat) (g : Parcel → Parcel) : (s.modParcel p g).baySus = s.baySus := rfl
@[simp] theorem State.modParcel_sealU (s : State) (p : Nat) (g : Parcel → Parcel) : (s.modParcel p g).sealU = s.sealU := rfl
@[simp] theorem State.modParcel_trellis (s : State) (p : Nat) (g : Parcel → Parcel) : (s.modParcel p g).trellis = s.trellis := rfl
@[simp] theorem State.modParcel_plate (s : State) (p : Nat) (g : Parcel → Parcel) : (s.modParcel p g).plate = s.plate := rfl
@[simp] theorem State.modParcel_pins (s : State) (p : Nat) (g : Parcel → Parcel) : (s.modParcel p g).pins = s.pins := rfl
@[simp] theorem State.modParcel_prt (s : State) (p : Nat) (g : Parcel → Parcel) : (s.modParcel p g).prt = s.prt := rfl
@[simp] theorem State.modParcel_waits (s : State) (p : Nat) (g : Parcel → Parcel) : (s.modParcel p g).waits = s.waits := rfl
@[simp] theorem State.modParcel_gwOrder (s : State) (p : Nat) (g : Parcel → Parcel) : (s.modParcel p g).gwOrder = s.gwOrder := rfl
@[simp] theorem State.modParcel_held (s : State) (p : Nat) (g : Parcel → Parcel) : (s.modParcel p g).held = s.held := rfl
@[simp] theorem State.modParcel_turn (s : State) (p : Nat) (g : Parcel → Parcel) : (s.modParcel p g).turn = s.turn := rfl
@[simp] theorem State.modParcel_out (s : State) (p : Nat) (g : Parcel → Parcel) : (s.modParcel p g).out = s.out := rfl
@[simp] theorem State.modParcel_tNs (s : State) (p : Nat) (g : Parcel → Parcel) : (s.modParcel p g).tNs = s.tNs := rfl
@[simp] theorem State.modParcel_freeCtr (s : State) (p : Nat) (g : Parcel → Parcel) : (s.modParcel p g).freeCtr = s.freeCtr := rfl
@[simp] theorem State.modParcel_pending (s : State) (p : Nat) (g : Parcel → Parcel) : (s.modParcel p g).pending = s.pending := rfl
@[simp] theorem State.modParcel_bay (s : State) (p : Nat) (g : Parcel → Parcel) (k : BayId) : (s.modParcel p g).bay k = s.bay k := rfl
@[simp] theorem State.modParcel_field (s : State) (p : Nat) (g : Parcel → Parcel) (k : Nat) : (s.modParcel p g).field k = s.field k := rfl
@[simp] theorem State.modParcel_seam (s : State) (p : Nat) (g : Parcel → Parcel) (k : Nat) : (s.modParcel p g).seam k = s.seam k := rfl
@[simp] theorem State.modParcel_cask (s : State) (p : Nat) (g : Parcel → Parcel) (k : Nat) : (s.modParcel p g).cask k = s.cask k := rfl
@[simp] theorem State.modParcel_port (s : State) (p : Nat) (g : Parcel → Parcel) (k : Nat) : (s.modParcel p g).port k = s.port k := rfl
@[simp] theorem State.modParcel_tap (s : State) (p : Nat) (g : Parcel → Parcel) (k : Nat) : (s.modParcel p g).tap k = s.tap k := rfl

/- setPort writes ports only. -/
@[simp] theorem State.setPort_bays (s : State) (p : Nat) (x : Port) : (s.setPort p x).bays = s.bays := rfl
@[simp] theorem State.setPort_parcels (s : State) (p : Nat) (x : Port) : (s.setPort p x).parcels = s.parcels := rfl
@[simp] theorem State.setPort_fields (s : State) (p : Nat) (x : Port) : (s.setPort p x).fields = s.fields := rfl
@[simp] theorem State.setPort_seams (s : State) (p : Nat) (x : Port) : (s.setPort p x).seams = s.seams := rfl
@[simp] theorem State.setPort_hops (s : State) (p : Nat) (x : Port) : (s.setPort p x).hops = s.hops := rfl
@[simp] theorem State.setPort_casks (s : State) (p : Nat) (x : Port) : (s.setPort p x).casks = s.casks := rfl
@[simp] theorem State.setPort_gw (s : State) (p : Nat) (x : Port) : (s.setPort p x).gw = s.gw := rfl
@[simp] theorem State.setPort_raising (s : State) (p : Nat) (x : Port) : (s.setPort p x).raising = s.raising := rfl
@[simp] theorem State.setPort_taps (s : State) (p : Nat) (x : Port) : (s.setPort p x).taps = s.taps := rfl
@[simp] theorem State.setPort_flog (s : State) (p : Nat) (x : Port) : (s.setPort p x).flog = s.flog := rfl
@[simp] theorem State.setPort_baySus (s : State) (p : Nat) (x : Port) : (s.setPort p x).baySus = s.baySus := rfl
@[simp] theorem State.setPort_sealU (s : State) (p : Nat) (x : Port) : (s.setPort p x).sealU = s.sealU := rfl
@[simp] theorem State.setPort_trellis (s : State) (p : Nat) (x : Port) : (s.setPort p x).trellis = s.trellis := rfl
@[simp] theorem State.setPort_plate (s : State) (p : Nat) (x : Port) : (s.setPort p x).plate = s.plate := rfl
@[simp] theorem State.setPort_pins (s : State) (p : Nat) (x : Port) : (s.setPort p x).pins = s.pins := rfl
@[simp] theorem State.setPort_prt (s : State) (p : Nat) (x : Port) : (s.setPort p x).prt = s.prt := rfl
@[simp] theorem State.setPort_waits (s : State) (p : Nat) (x : Port) : (s.setPort p x).waits = s.waits := rfl
@[simp] theorem State.setPort_gwOrder (s : State) (p : Nat) (x : Port) : (s.setPort p x).gwOrder = s.gwOrder := rfl
@[simp] theorem State.setPort_held (s : State) (p : Nat) (x : Port) : (s.setPort p x).held = s.held := rfl
@[simp] theorem State.setPort_turn (s : State) (p : Nat) (x : Port) : (s.setPort p x).turn = s.turn := rfl
@[simp] theorem State.setPort_out (s : State) (p : Nat) (x : Port) : (s.setPort p x).out = s.out := rfl
@[simp] theorem State.setPort_tNs (s : State) (p : Nat) (x : Port) : (s.setPort p x).tNs = s.tNs := rfl
@[simp] theorem State.setPort_freeCtr (s : State) (p : Nat) (x : Port) : (s.setPort p x).freeCtr = s.freeCtr := rfl
@[simp] theorem State.setPort_pending (s : State) (p : Nat) (x : Port) : (s.setPort p x).pending = s.pending := rfl
@[simp] theorem State.setPort_bay (s : State) (p : Nat) (x : Port) (k : BayId) : (s.setPort p x).bay k = s.bay k := rfl
@[simp] theorem State.setPort_parcel (s : State) (p : Nat) (x : Port) (k : Nat) : (s.setPort p x).parcel k = s.parcel k := rfl
@[simp] theorem State.setPort_field (s : State) (p : Nat) (x : Port) (k : Nat) : (s.setPort p x).field k = s.field k := rfl
@[simp] theorem State.setPort_seam (s : State) (p : Nat) (x : Port) (k : Nat) : (s.setPort p x).seam k = s.seam k := rfl
@[simp] theorem State.setPort_cask (s : State) (p : Nat) (x : Port) (k : Nat) : (s.setPort p x).cask k = s.cask k := rfl
@[simp] theorem State.setPort_tap (s : State) (p : Nat) (x : Port) (k : Nat) : (s.setPort p x).tap k = s.tap k := rfl

/- modPort writes ports only. -/
@[simp] theorem State.modPort_bays (s : State) (p : Nat) (g : Port → Port) : (s.modPort p g).bays = s.bays := rfl
@[simp] theorem State.modPort_parcels (s : State) (p : Nat) (g : Port → Port) : (s.modPort p g).parcels = s.parcels := rfl
@[simp] theorem State.modPort_fields (s : State) (p : Nat) (g : Port → Port) : (s.modPort p g).fields = s.fields := rfl
@[simp] theorem State.modPort_seams (s : State) (p : Nat) (g : Port → Port) : (s.modPort p g).seams = s.seams := rfl
@[simp] theorem State.modPort_hops (s : State) (p : Nat) (g : Port → Port) : (s.modPort p g).hops = s.hops := rfl
@[simp] theorem State.modPort_casks (s : State) (p : Nat) (g : Port → Port) : (s.modPort p g).casks = s.casks := rfl
@[simp] theorem State.modPort_gw (s : State) (p : Nat) (g : Port → Port) : (s.modPort p g).gw = s.gw := rfl
@[simp] theorem State.modPort_raising (s : State) (p : Nat) (g : Port → Port) : (s.modPort p g).raising = s.raising := rfl
@[simp] theorem State.modPort_taps (s : State) (p : Nat) (g : Port → Port) : (s.modPort p g).taps = s.taps := rfl
@[simp] theorem State.modPort_flog (s : State) (p : Nat) (g : Port → Port) : (s.modPort p g).flog = s.flog := rfl
@[simp] theorem State.modPort_baySus (s : State) (p : Nat) (g : Port → Port) : (s.modPort p g).baySus = s.baySus := rfl
@[simp] theorem State.modPort_sealU (s : State) (p : Nat) (g : Port → Port) : (s.modPort p g).sealU = s.sealU := rfl
@[simp] theorem State.modPort_trellis (s : State) (p : Nat) (g : Port → Port) : (s.modPort p g).trellis = s.trellis := rfl
@[simp] theorem State.modPort_plate (s : State) (p : Nat) (g : Port → Port) : (s.modPort p g).plate = s.plate := rfl
@[simp] theorem State.modPort_pins (s : State) (p : Nat) (g : Port → Port) : (s.modPort p g).pins = s.pins := rfl
@[simp] theorem State.modPort_prt (s : State) (p : Nat) (g : Port → Port) : (s.modPort p g).prt = s.prt := rfl
@[simp] theorem State.modPort_waits (s : State) (p : Nat) (g : Port → Port) : (s.modPort p g).waits = s.waits := rfl
@[simp] theorem State.modPort_gwOrder (s : State) (p : Nat) (g : Port → Port) : (s.modPort p g).gwOrder = s.gwOrder := rfl
@[simp] theorem State.modPort_held (s : State) (p : Nat) (g : Port → Port) : (s.modPort p g).held = s.held := rfl
@[simp] theorem State.modPort_turn (s : State) (p : Nat) (g : Port → Port) : (s.modPort p g).turn = s.turn := rfl
@[simp] theorem State.modPort_out (s : State) (p : Nat) (g : Port → Port) : (s.modPort p g).out = s.out := rfl
@[simp] theorem State.modPort_tNs (s : State) (p : Nat) (g : Port → Port) : (s.modPort p g).tNs = s.tNs := rfl
@[simp] theorem State.modPort_freeCtr (s : State) (p : Nat) (g : Port → Port) : (s.modPort p g).freeCtr = s.freeCtr := rfl
@[simp] theorem State.modPort_pending (s : State) (p : Nat) (g : Port → Port) : (s.modPort p g).pending = s.pending := rfl
@[simp] theorem State.modPort_bay (s : State) (p : Nat) (g : Port → Port) (k : BayId) : (s.modPort p g).bay k = s.bay k := rfl
@[simp] theorem State.modPort_parcel (s : State) (p : Nat) (g : Port → Port) (k : Nat) : (s.modPort p g).parcel k = s.parcel k := rfl
@[simp] theorem State.modPort_field (s : State) (p : Nat) (g : Port → Port) (k : Nat) : (s.modPort p g).field k = s.field k := rfl
@[simp] theorem State.modPort_seam (s : State) (p : Nat) (g : Port → Port) (k : Nat) : (s.modPort p g).seam k = s.seam k := rfl
@[simp] theorem State.modPort_cask (s : State) (p : Nat) (g : Port → Port) (k : Nat) : (s.modPort p g).cask k = s.cask k := rfl
@[simp] theorem State.modPort_tap (s : State) (p : Nat) (g : Port → Port) (k : Nat) : (s.modPort p g).tap k = s.tap k := rfl

/- setTap writes taps only. -/
@[simp] theorem State.setTap_bays (s : State) (t : Nat) (x : Tap) : (s.setTap t x).bays = s.bays := rfl
@[simp] theorem State.setTap_parcels (s : State) (t : Nat) (x : Tap) : (s.setTap t x).parcels = s.parcels := rfl
@[simp] theorem State.setTap_fields (s : State) (t : Nat) (x : Tap) : (s.setTap t x).fields = s.fields := rfl
@[simp] theorem State.setTap_seams (s : State) (t : Nat) (x : Tap) : (s.setTap t x).seams = s.seams := rfl
@[simp] theorem State.setTap_hops (s : State) (t : Nat) (x : Tap) : (s.setTap t x).hops = s.hops := rfl
@[simp] theorem State.setTap_casks (s : State) (t : Nat) (x : Tap) : (s.setTap t x).casks = s.casks := rfl
@[simp] theorem State.setTap_gw (s : State) (t : Nat) (x : Tap) : (s.setTap t x).gw = s.gw := rfl
@[simp] theorem State.setTap_raising (s : State) (t : Nat) (x : Tap) : (s.setTap t x).raising = s.raising := rfl
@[simp] theorem State.setTap_ports (s : State) (t : Nat) (x : Tap) : (s.setTap t x).ports = s.ports := rfl
@[simp] theorem State.setTap_flog (s : State) (t : Nat) (x : Tap) : (s.setTap t x).flog = s.flog := rfl
@[simp] theorem State.setTap_baySus (s : State) (t : Nat) (x : Tap) : (s.setTap t x).baySus = s.baySus := rfl
@[simp] theorem State.setTap_sealU (s : State) (t : Nat) (x : Tap) : (s.setTap t x).sealU = s.sealU := rfl
@[simp] theorem State.setTap_trellis (s : State) (t : Nat) (x : Tap) : (s.setTap t x).trellis = s.trellis := rfl
@[simp] theorem State.setTap_plate (s : State) (t : Nat) (x : Tap) : (s.setTap t x).plate = s.plate := rfl
@[simp] theorem State.setTap_pins (s : State) (t : Nat) (x : Tap) : (s.setTap t x).pins = s.pins := rfl
@[simp] theorem State.setTap_prt (s : State) (t : Nat) (x : Tap) : (s.setTap t x).prt = s.prt := rfl
@[simp] theorem State.setTap_waits (s : State) (t : Nat) (x : Tap) : (s.setTap t x).waits = s.waits := rfl
@[simp] theorem State.setTap_gwOrder (s : State) (t : Nat) (x : Tap) : (s.setTap t x).gwOrder = s.gwOrder := rfl
@[simp] theorem State.setTap_held (s : State) (t : Nat) (x : Tap) : (s.setTap t x).held = s.held := rfl
@[simp] theorem State.setTap_turn (s : State) (t : Nat) (x : Tap) : (s.setTap t x).turn = s.turn := rfl
@[simp] theorem State.setTap_out (s : State) (t : Nat) (x : Tap) : (s.setTap t x).out = s.out := rfl
@[simp] theorem State.setTap_tNs (s : State) (t : Nat) (x : Tap) : (s.setTap t x).tNs = s.tNs := rfl
@[simp] theorem State.setTap_freeCtr (s : State) (t : Nat) (x : Tap) : (s.setTap t x).freeCtr = s.freeCtr := rfl
@[simp] theorem State.setTap_pending (s : State) (t : Nat) (x : Tap) : (s.setTap t x).pending = s.pending := rfl
@[simp] theorem State.setTap_bay (s : State) (t : Nat) (x : Tap) (k : BayId) : (s.setTap t x).bay k = s.bay k := rfl
@[simp] theorem State.setTap_parcel (s : State) (t : Nat) (x : Tap) (k : Nat) : (s.setTap t x).parcel k = s.parcel k := rfl
@[simp] theorem State.setTap_field (s : State) (t : Nat) (x : Tap) (k : Nat) : (s.setTap t x).field k = s.field k := rfl
@[simp] theorem State.setTap_seam (s : State) (t : Nat) (x : Tap) (k : Nat) : (s.setTap t x).seam k = s.seam k := rfl
@[simp] theorem State.setTap_cask (s : State) (t : Nat) (x : Tap) (k : Nat) : (s.setTap t x).cask k = s.cask k := rfl
@[simp] theorem State.setTap_port (s : State) (t : Nat) (x : Tap) (k : Nat) : (s.setTap t x).port k = s.port k := rfl

/- modTap writes taps only. -/
@[simp] theorem State.modTap_bays (s : State) (t : Nat) (g : Tap → Tap) : (s.modTap t g).bays = s.bays := rfl
@[simp] theorem State.modTap_parcels (s : State) (t : Nat) (g : Tap → Tap) : (s.modTap t g).parcels = s.parcels := rfl
@[simp] theorem State.modTap_fields (s : State) (t : Nat) (g : Tap → Tap) : (s.modTap t g).fields = s.fields := rfl
@[simp] theorem State.modTap_seams (s : State) (t : Nat) (g : Tap → Tap) : (s.modTap t g).seams = s.seams := rfl
@[simp] theorem State.modTap_hops (s : State) (t : Nat) (g : Tap → Tap) : (s.modTap t g).hops = s.hops := rfl
@[simp] theorem State.modTap_casks (s : State) (t : Nat) (g : Tap → Tap) : (s.modTap t g).casks = s.casks := rfl
@[simp] theorem State.modTap_gw (s : State) (t : Nat) (g : Tap → Tap) : (s.modTap t g).gw = s.gw := rfl
@[simp] theorem State.modTap_raising (s : State) (t : Nat) (g : Tap → Tap) : (s.modTap t g).raising = s.raising := rfl
@[simp] theorem State.modTap_ports (s : State) (t : Nat) (g : Tap → Tap) : (s.modTap t g).ports = s.ports := rfl
@[simp] theorem State.modTap_flog (s : State) (t : Nat) (g : Tap → Tap) : (s.modTap t g).flog = s.flog := rfl
@[simp] theorem State.modTap_baySus (s : State) (t : Nat) (g : Tap → Tap) : (s.modTap t g).baySus = s.baySus := rfl
@[simp] theorem State.modTap_sealU (s : State) (t : Nat) (g : Tap → Tap) : (s.modTap t g).sealU = s.sealU := rfl
@[simp] theorem State.modTap_trellis (s : State) (t : Nat) (g : Tap → Tap) : (s.modTap t g).trellis = s.trellis := rfl
@[simp] theorem State.modTap_plate (s : State) (t : Nat) (g : Tap → Tap) : (s.modTap t g).plate = s.plate := rfl
@[simp] theorem State.modTap_pins (s : State) (t : Nat) (g : Tap → Tap) : (s.modTap t g).pins = s.pins := rfl
@[simp] theorem State.modTap_prt (s : State) (t : Nat) (g : Tap → Tap) : (s.modTap t g).prt = s.prt := rfl
@[simp] theorem State.modTap_waits (s : State) (t : Nat) (g : Tap → Tap) : (s.modTap t g).waits = s.waits := rfl
@[simp] theorem State.modTap_gwOrder (s : State) (t : Nat) (g : Tap → Tap) : (s.modTap t g).gwOrder = s.gwOrder := rfl
@[simp] theorem State.modTap_held (s : State) (t : Nat) (g : Tap → Tap) : (s.modTap t g).held = s.held := rfl
@[simp] theorem State.modTap_turn (s : State) (t : Nat) (g : Tap → Tap) : (s.modTap t g).turn = s.turn := rfl
@[simp] theorem State.modTap_out (s : State) (t : Nat) (g : Tap → Tap) : (s.modTap t g).out = s.out := rfl
@[simp] theorem State.modTap_tNs (s : State) (t : Nat) (g : Tap → Tap) : (s.modTap t g).tNs = s.tNs := rfl
@[simp] theorem State.modTap_freeCtr (s : State) (t : Nat) (g : Tap → Tap) : (s.modTap t g).freeCtr = s.freeCtr := rfl
@[simp] theorem State.modTap_pending (s : State) (t : Nat) (g : Tap → Tap) : (s.modTap t g).pending = s.pending := rfl
@[simp] theorem State.modTap_bay (s : State) (t : Nat) (g : Tap → Tap) (k : BayId) : (s.modTap t g).bay k = s.bay k := rfl
@[simp] theorem State.modTap_parcel (s : State) (t : Nat) (g : Tap → Tap) (k : Nat) : (s.modTap t g).parcel k = s.parcel k := rfl
@[simp] theorem State.modTap_field (s : State) (t : Nat) (g : Tap → Tap) (k : Nat) : (s.modTap t g).field k = s.field k := rfl
@[simp] theorem State.modTap_seam (s : State) (t : Nat) (g : Tap → Tap) (k : Nat) : (s.modTap t g).seam k = s.seam k := rfl
@[simp] theorem State.modTap_cask (s : State) (t : Nat) (g : Tap → Tap) (k : Nat) : (s.modTap t g).cask k = s.cask k := rfl
@[simp] theorem State.modTap_port (s : State) (t : Nat) (g : Tap → Tap) (k : Nat) : (s.modTap t g).port k = s.port k := rfl

/- modInv writes parcels only. -/
@[simp] theorem State.modInv_bays (s : State) (p : Nat) (g : Inv → Inv) : (s.modInv p g).bays = s.bays := rfl
@[simp] theorem State.modInv_fields (s : State) (p : Nat) (g : Inv → Inv) : (s.modInv p g).fields = s.fields := rfl
@[simp] theorem State.modInv_seams (s : State) (p : Nat) (g : Inv → Inv) : (s.modInv p g).seams = s.seams := rfl
@[simp] theorem State.modInv_hops (s : State) (p : Nat) (g : Inv → Inv) : (s.modInv p g).hops = s.hops := rfl
@[simp] theorem State.modInv_casks (s : State) (p : Nat) (g : Inv → Inv) : (s.modInv p g).casks = s.casks := rfl
@[simp] theorem State.modInv_gw (s : State) (p : Nat) (g : Inv → Inv) : (s.modInv p g).gw = s.gw := rfl
@[simp] theorem State.modInv_raising (s : State) (p : Nat) (g : Inv → Inv) : (s.modInv p g).raising = s.raising := rfl
@[simp] theorem State.modInv_ports (s : State) (p : Nat) (g : Inv → Inv) : (s.modInv p g).ports = s.ports := rfl
@[simp] theorem State.modInv_taps (s : State) (p : Nat) (g : Inv → Inv) : (s.modInv p g).taps = s.taps := rfl
@[simp] theorem State.modInv_flog (s : State) (p : Nat) (g : Inv → Inv) : (s.modInv p g).flog = s.flog := rfl
@[simp] theorem State.modInv_baySus (s : State) (p : Nat) (g : Inv → Inv) : (s.modInv p g).baySus = s.baySus := rfl
@[simp] theorem State.modInv_sealU (s : State) (p : Nat) (g : Inv → Inv) : (s.modInv p g).sealU = s.sealU := rfl
@[simp] theorem State.modInv_trellis (s : State) (p : Nat) (g : Inv → Inv) : (s.modInv p g).trellis = s.trellis := rfl
@[simp] theorem State.modInv_plate (s : State) (p : Nat) (g : Inv → Inv) : (s.modInv p g).plate = s.plate := rfl
@[simp] theorem State.modInv_pins (s : State) (p : Nat) (g : Inv → Inv) : (s.modInv p g).pins = s.pins := rfl
@[simp] theorem State.modInv_prt (s : State) (p : Nat) (g : Inv → Inv) : (s.modInv p g).prt = s.prt := rfl
@[simp] theorem State.modInv_waits (s : State) (p : Nat) (g : Inv → Inv) : (s.modInv p g).waits = s.waits := rfl
@[simp] theorem State.modInv_gwOrder (s : State) (p : Nat) (g : Inv → Inv) : (s.modInv p g).gwOrder = s.gwOrder := rfl
@[simp] theorem State.modInv_held (s : State) (p : Nat) (g : Inv → Inv) : (s.modInv p g).held = s.held := rfl
@[simp] theorem State.modInv_turn (s : State) (p : Nat) (g : Inv → Inv) : (s.modInv p g).turn = s.turn := rfl
@[simp] theorem State.modInv_out (s : State) (p : Nat) (g : Inv → Inv) : (s.modInv p g).out = s.out := rfl
@[simp] theorem State.modInv_tNs (s : State) (p : Nat) (g : Inv → Inv) : (s.modInv p g).tNs = s.tNs := rfl
@[simp] theorem State.modInv_freeCtr (s : State) (p : Nat) (g : Inv → Inv) : (s.modInv p g).freeCtr = s.freeCtr := rfl
@[simp] theorem State.modInv_pending (s : State) (p : Nat) (g : Inv → Inv) : (s.modInv p g).pending = s.pending := rfl
@[simp] theorem State.modInv_bay (s : State) (p : Nat) (g : Inv → Inv) (k : BayId) : (s.modInv p g).bay k = s.bay k := rfl
@[simp] theorem State.modInv_field (s : State) (p : Nat) (g : Inv → Inv) (k : Nat) : (s.modInv p g).field k = s.field k := rfl
@[simp] theorem State.modInv_seam (s : State) (p : Nat) (g : Inv → Inv) (k : Nat) : (s.modInv p g).seam k = s.seam k := rfl
@[simp] theorem State.modInv_cask (s : State) (p : Nat) (g : Inv → Inv) (k : Nat) : (s.modInv p g).cask k = s.cask k := rfl
@[simp] theorem State.modInv_port (s : State) (p : Nat) (g : Inv → Inv) (k : Nat) : (s.modInv p g).port k = s.port k := rfl
@[simp] theorem State.modInv_tap (s : State) (p : Nat) (g : Inv → Inv) (k : Nat) : (s.modInv p g).tap k = s.tap k := rfl

/- modTrellis writes trellis only. -/
@[simp] theorem State.modTrellis_bays (s : State) (g : Trellis → Trellis) : (s.modTrellis g).bays = s.bays := rfl
@[simp] theorem State.modTrellis_parcels (s : State) (g : Trellis → Trellis) : (s.modTrellis g).parcels = s.parcels := rfl
@[simp] theorem State.modTrellis_fields (s : State) (g : Trellis → Trellis) : (s.modTrellis g).fields = s.fields := rfl
@[simp] theorem State.modTrellis_seams (s : State) (g : Trellis → Trellis) : (s.modTrellis g).seams = s.seams := rfl
@[simp] theorem State.modTrellis_hops (s : State) (g : Trellis → Trellis) : (s.modTrellis g).hops = s.hops := rfl
@[simp] theorem State.modTrellis_casks (s : State) (g : Trellis → Trellis) : (s.modTrellis g).casks = s.casks := rfl
@[simp] theorem State.modTrellis_gw (s : State) (g : Trellis → Trellis) : (s.modTrellis g).gw = s.gw := rfl
@[simp] theorem State.modTrellis_raising (s : State) (g : Trellis → Trellis) : (s.modTrellis g).raising = s.raising := rfl
@[simp] theorem State.modTrellis_ports (s : State) (g : Trellis → Trellis) : (s.modTrellis g).ports = s.ports := rfl
@[simp] theorem State.modTrellis_taps (s : State) (g : Trellis → Trellis) : (s.modTrellis g).taps = s.taps := rfl
@[simp] theorem State.modTrellis_flog (s : State) (g : Trellis → Trellis) : (s.modTrellis g).flog = s.flog := rfl
@[simp] theorem State.modTrellis_baySus (s : State) (g : Trellis → Trellis) : (s.modTrellis g).baySus = s.baySus := rfl
@[simp] theorem State.modTrellis_sealU (s : State) (g : Trellis → Trellis) : (s.modTrellis g).sealU = s.sealU := rfl
@[simp] theorem State.modTrellis_plate (s : State) (g : Trellis → Trellis) : (s.modTrellis g).plate = s.plate := rfl
@[simp] theorem State.modTrellis_pins (s : State) (g : Trellis → Trellis) : (s.modTrellis g).pins = s.pins := rfl
@[simp] theorem State.modTrellis_prt (s : State) (g : Trellis → Trellis) : (s.modTrellis g).prt = s.prt := rfl
@[simp] theorem State.modTrellis_waits (s : State) (g : Trellis → Trellis) : (s.modTrellis g).waits = s.waits := rfl
@[simp] theorem State.modTrellis_gwOrder (s : State) (g : Trellis → Trellis) : (s.modTrellis g).gwOrder = s.gwOrder := rfl
@[simp] theorem State.modTrellis_held (s : State) (g : Trellis → Trellis) : (s.modTrellis g).held = s.held := rfl
@[simp] theorem State.modTrellis_turn (s : State) (g : Trellis → Trellis) : (s.modTrellis g).turn = s.turn := rfl
@[simp] theorem State.modTrellis_out (s : State) (g : Trellis → Trellis) : (s.modTrellis g).out = s.out := rfl
@[simp] theorem State.modTrellis_tNs (s : State) (g : Trellis → Trellis) : (s.modTrellis g).tNs = s.tNs := rfl
@[simp] theorem State.modTrellis_freeCtr (s : State) (g : Trellis → Trellis) : (s.modTrellis g).freeCtr = s.freeCtr := rfl
@[simp] theorem State.modTrellis_pending (s : State) (g : Trellis → Trellis) : (s.modTrellis g).pending = s.pending := rfl
@[simp] theorem State.modTrellis_bay (s : State) (g : Trellis → Trellis) (k : BayId) : (s.modTrellis g).bay k = s.bay k := rfl
@[simp] theorem State.modTrellis_parcel (s : State) (g : Trellis → Trellis) (k : Nat) : (s.modTrellis g).parcel k = s.parcel k := rfl
@[simp] theorem State.modTrellis_field (s : State) (g : Trellis → Trellis) (k : Nat) : (s.modTrellis g).field k = s.field k := rfl
@[simp] theorem State.modTrellis_seam (s : State) (g : Trellis → Trellis) (k : Nat) : (s.modTrellis g).seam k = s.seam k := rfl
@[simp] theorem State.modTrellis_cask (s : State) (g : Trellis → Trellis) (k : Nat) : (s.modTrellis g).cask k = s.cask k := rfl
@[simp] theorem State.modTrellis_port (s : State) (g : Trellis → Trellis) (k : Nat) : (s.modTrellis g).port k = s.port k := rfl
@[simp] theorem State.modTrellis_tap (s : State) (g : Trellis → Trellis) (k : Nat) : (s.modTrellis g).tap k = s.tap k := rfl

/- setAlert writes pins only. -/
@[simp] theorem State.setAlert_bays (s : State) (v : Bool) : (s.setAlert v).bays = s.bays := rfl
@[simp] theorem State.setAlert_parcels (s : State) (v : Bool) : (s.setAlert v).parcels = s.parcels := rfl
@[simp] theorem State.setAlert_fields (s : State) (v : Bool) : (s.setAlert v).fields = s.fields := rfl
@[simp] theorem State.setAlert_seams (s : State) (v : Bool) : (s.setAlert v).seams = s.seams := rfl
@[simp] theorem State.setAlert_hops (s : State) (v : Bool) : (s.setAlert v).hops = s.hops := rfl
@[simp] theorem State.setAlert_casks (s : State) (v : Bool) : (s.setAlert v).casks = s.casks := rfl
@[simp] theorem State.setAlert_gw (s : State) (v : Bool) : (s.setAlert v).gw = s.gw := rfl
@[simp] theorem State.setAlert_raising (s : State) (v : Bool) : (s.setAlert v).raising = s.raising := rfl
@[simp] theorem State.setAlert_ports (s : State) (v : Bool) : (s.setAlert v).ports = s.ports := rfl
@[simp] theorem State.setAlert_taps (s : State) (v : Bool) : (s.setAlert v).taps = s.taps := rfl
@[simp] theorem State.setAlert_flog (s : State) (v : Bool) : (s.setAlert v).flog = s.flog := rfl
@[simp] theorem State.setAlert_baySus (s : State) (v : Bool) : (s.setAlert v).baySus = s.baySus := rfl
@[simp] theorem State.setAlert_sealU (s : State) (v : Bool) : (s.setAlert v).sealU = s.sealU := rfl
@[simp] theorem State.setAlert_trellis (s : State) (v : Bool) : (s.setAlert v).trellis = s.trellis := rfl
@[simp] theorem State.setAlert_plate (s : State) (v : Bool) : (s.setAlert v).plate = s.plate := rfl
@[simp] theorem State.setAlert_prt (s : State) (v : Bool) : (s.setAlert v).prt = s.prt := rfl
@[simp] theorem State.setAlert_waits (s : State) (v : Bool) : (s.setAlert v).waits = s.waits := rfl
@[simp] theorem State.setAlert_gwOrder (s : State) (v : Bool) : (s.setAlert v).gwOrder = s.gwOrder := rfl
@[simp] theorem State.setAlert_held (s : State) (v : Bool) : (s.setAlert v).held = s.held := rfl
@[simp] theorem State.setAlert_turn (s : State) (v : Bool) : (s.setAlert v).turn = s.turn := rfl
@[simp] theorem State.setAlert_out (s : State) (v : Bool) : (s.setAlert v).out = s.out := rfl
@[simp] theorem State.setAlert_tNs (s : State) (v : Bool) : (s.setAlert v).tNs = s.tNs := rfl
@[simp] theorem State.setAlert_freeCtr (s : State) (v : Bool) : (s.setAlert v).freeCtr = s.freeCtr := rfl
@[simp] theorem State.setAlert_pending (s : State) (v : Bool) : (s.setAlert v).pending = s.pending := rfl
@[simp] theorem State.setAlert_bay (s : State) (v : Bool) (k : BayId) : (s.setAlert v).bay k = s.bay k := rfl
@[simp] theorem State.setAlert_parcel (s : State) (v : Bool) (k : Nat) : (s.setAlert v).parcel k = s.parcel k := rfl
@[simp] theorem State.setAlert_field (s : State) (v : Bool) (k : Nat) : (s.setAlert v).field k = s.field k := rfl
@[simp] theorem State.setAlert_seam (s : State) (v : Bool) (k : Nat) : (s.setAlert v).seam k = s.seam k := rfl
@[simp] theorem State.setAlert_cask (s : State) (v : Bool) (k : Nat) : (s.setAlert v).cask k = s.cask k := rfl
@[simp] theorem State.setAlert_port (s : State) (v : Bool) (k : Nat) : (s.setAlert v).port k = s.port k := rfl
@[simp] theorem State.setAlert_tap (s : State) (v : Bool) (k : Nat) : (s.setAlert v).tap k = s.tap k := rfl

/- emit writes out only. -/
@[simp] theorem State.emit_bays (s : State) (o : OutEv) : (s.emit o).bays = s.bays := rfl
@[simp] theorem State.emit_parcels (s : State) (o : OutEv) : (s.emit o).parcels = s.parcels := rfl
@[simp] theorem State.emit_fields (s : State) (o : OutEv) : (s.emit o).fields = s.fields := rfl
@[simp] theorem State.emit_seams (s : State) (o : OutEv) : (s.emit o).seams = s.seams := rfl
@[simp] theorem State.emit_hops (s : State) (o : OutEv) : (s.emit o).hops = s.hops := rfl
@[simp] theorem State.emit_casks (s : State) (o : OutEv) : (s.emit o).casks = s.casks := rfl
@[simp] theorem State.emit_gw (s : State) (o : OutEv) : (s.emit o).gw = s.gw := rfl
@[simp] theorem State.emit_raising (s : State) (o : OutEv) : (s.emit o).raising = s.raising := rfl
@[simp] theorem State.emit_ports (s : State) (o : OutEv) : (s.emit o).ports = s.ports := rfl
@[simp] theorem State.emit_taps (s : State) (o : OutEv) : (s.emit o).taps = s.taps := rfl
@[simp] theorem State.emit_flog (s : State) (o : OutEv) : (s.emit o).flog = s.flog := rfl
@[simp] theorem State.emit_baySus (s : State) (o : OutEv) : (s.emit o).baySus = s.baySus := rfl
@[simp] theorem State.emit_sealU (s : State) (o : OutEv) : (s.emit o).sealU = s.sealU := rfl
@[simp] theorem State.emit_trellis (s : State) (o : OutEv) : (s.emit o).trellis = s.trellis := rfl
@[simp] theorem State.emit_plate (s : State) (o : OutEv) : (s.emit o).plate = s.plate := rfl
@[simp] theorem State.emit_pins (s : State) (o : OutEv) : (s.emit o).pins = s.pins := rfl
@[simp] theorem State.emit_prt (s : State) (o : OutEv) : (s.emit o).prt = s.prt := rfl
@[simp] theorem State.emit_waits (s : State) (o : OutEv) : (s.emit o).waits = s.waits := rfl
@[simp] theorem State.emit_gwOrder (s : State) (o : OutEv) : (s.emit o).gwOrder = s.gwOrder := rfl
@[simp] theorem State.emit_held (s : State) (o : OutEv) : (s.emit o).held = s.held := rfl
@[simp] theorem State.emit_turn (s : State) (o : OutEv) : (s.emit o).turn = s.turn := rfl
@[simp] theorem State.emit_tNs (s : State) (o : OutEv) : (s.emit o).tNs = s.tNs := rfl
@[simp] theorem State.emit_freeCtr (s : State) (o : OutEv) : (s.emit o).freeCtr = s.freeCtr := rfl
@[simp] theorem State.emit_pending (s : State) (o : OutEv) : (s.emit o).pending = s.pending := rfl
@[simp] theorem State.emit_bay (s : State) (o : OutEv) (k : BayId) : (s.emit o).bay k = s.bay k := rfl
@[simp] theorem State.emit_parcel (s : State) (o : OutEv) (k : Nat) : (s.emit o).parcel k = s.parcel k := rfl
@[simp] theorem State.emit_field (s : State) (o : OutEv) (k : Nat) : (s.emit o).field k = s.field k := rfl
@[simp] theorem State.emit_seam (s : State) (o : OutEv) (k : Nat) : (s.emit o).seam k = s.seam k := rfl
@[simp] theorem State.emit_cask (s : State) (o : OutEv) (k : Nat) : (s.emit o).cask k = s.cask k := rfl
@[simp] theorem State.emit_port (s : State) (o : OutEv) (k : Nat) : (s.emit o).port k = s.port k := rfl
@[simp] theorem State.emit_tap (s : State) (o : OutEv) (k : Nat) : (s.emit o).tap k = s.tap k := rfl

/- Reading back what an update wrote, in the canonical stores. -/
theorem State.bay_setBay (s : State) (b : BayId) (x : Bay) (h : Sparse.wf Bay.init s.bays = true) (c : BayId) :
    (s.setBay b x).bay c = if bayIx c = bayIx b then x else s.bay c := Sparse.get_set _ _ _ _ _ h
theorem State.field_setField (s : State) (f : Nat) (x : Field) (h : Sparse.wf Field.init s.fields = true) (k : Nat) :
    (s.setField f x).field k = if k = f then x else s.field k := Sparse.get_set _ _ _ _ _ h
theorem State.seam_setSeam (s : State) (n : Nat) (x : Seam) (h : Sparse.wf Seam.init s.seams = true) (k : Nat) :
    (s.setSeam n x).seam k = if k = n then x else s.seam k := Sparse.get_set _ _ _ _ _ h
theorem State.cask_setCask (s : State) (c : Nat) (x : Cask) (h : Sparse.wf Cask.init s.casks = true) (k : Nat) :
    (s.setCask c x).cask k = if k = c then x else s.cask k := Sparse.get_set _ _ _ _ _ h
theorem State.parcel_setParcel (s : State) (p : Nat) (x : Parcel) (h : Sparse.wf Parcel.init s.parcels = true) (k : Nat) :
    (s.setParcel p x).parcel k = if k = p then x else s.parcel k := Sparse.get_set _ _ _ _ _ h
theorem State.port_setPort (s : State) (p : Nat) (x : Port) (h : Sparse.wf Port.init s.ports = true) (k : Nat) :
    (s.setPort p x).port k = if k = p then x else s.port k := Sparse.get_set _ _ _ _ _ h
theorem State.tap_setTap (s : State) (t : Nat) (x : Tap) (h : Sparse.wf Tap.init s.taps = true) (k : Nat) :
    (s.setTap t x).tap k = if k = t then x else s.tap k := Sparse.get_set _ _ _ _ _ h

end Sys2Proof.Machine
end

