-- ==== Sys2Proof/Tests/Slice0.lean ====
section
/-! SUPPORT. The model's own tests: the WellFormed smoke, a witness for the hypotheses of every statement, and a few results worked out by hand from the spec. -/

namespace Sys2Proof.Tests
open Sys2Proof Sys2Proof.Machine

/- Small states. -/
def b0 : BayId := { x := 0, y := 0 }
def atBay (x : Bay) : State := State.reset.setBay b0 x
def p0 : Pred := { q := 0#3, qn := false }
def sel0 : PressSel := { pr := 0#2, qt := 0#2, qe := false }
def lf0 : LatheF := { msk := 0#3, vd := 0#6, va := 0#6, vb := 0#6, vc := 0#6, ext := 0#10 }

/- WellFormed: one ill-formed term for each check. -/
theorem test_wf_bay : (Instr.pegOverdue { x := 60, y := 0 }).wf = false ∧ (Instr.pegOverdue { x := 0, y := 24 }).wf = false ∧ (Instr.pegOverdue { x := 59, y := 23 }).wf = true := by decide
theorem test_wf_crush_lead : (Instr.crush b0 0#8 0xFF#16).wf = false ∧ (Instr.crush b0 0#8 0x100#16).wf = true := by decide
theorem test_wf_quarter_of_whole_press : (Instr.kstep b0 { sel0 with qt := 1#2 } false false).wf = false := by decide
theorem test_wf_load : (Instr.lda b0 p0 sel0 { half := false, i := 0#4, off := 0#17, fmt := 0xE#4, soff := 0#19 }).wf = false ∧
    (Instr.lda b0 p0 sel0 { half := false, i := 0#4, off := 0#17, fmt := 1#4, soff := 1#19 }).wf = false ∧
    (Instr.ldb b0 p0 { sel0 with qe := true } { half := false, i := 0#4, off := 0#17, fmt := 0#4, soff := 0#19 }).wf = false := by decide
theorem test_wf_setup : (Instr.setup b0 sel0 { fmtA := 1#4, fmtB := 1#4, anch := 1#9, dflt := true, npM1 := 0#15, auto := false }).wf = false ∧
    (Instr.setup b0 sel0 { fmtA := 1#4, fmtB := 1#4, anch := 64#9, dflt := false, npM1 := 0#15, auto := false }).wf = false ∧
    (Instr.setup b0 sel0 { fmtA := 0xF#4, fmtB := 1#4, anch := 0#9, dflt := false, npM1 := 0#15, auto := false }).wf = false := by decide
theorem test_wf_drain : (Instr.drain b0 p0 { sel0 with qe := true } { fmt := 5#4, rm := 0#2, sat := false, dsc := 0#7, i := 0#4, off := 0#17, str := 0#8, soff := 0#8 }).wf = false ∧
    (Instr.drain b0 p0 sel0 { fmt := 1#4, rm := 0#2, sat := false, dsc := 0#7, i := 0#4, off := 0#17, str := 0#8, soff := 1#8 }).wf = false := by decide
theorem test_wf_shim : (Instr.shim b0 sel0 0#6 1#4 2#4).wf = false := by decide
theorem test_wf_taste : (Instr.taste b0 sel0 0#2 0#2).wf = false ∧ (Instr.taste b0 sel0 1#2 1#2).wf = false ∧ (Instr.taste b0 sel0 1#2 0#2).wf = true := by decide
theorem test_wf_cell : (Instr.cellAccumulate b0 0#2 32 0).wf = false ∧ (Instr.cellAccumulate b0 0#2 0 32).wf = false := by decide
theorem test_wf_lathe_fields : (Instr.mov b0 p0 { lf0 with vb := 1#6 }).wf = false ∧ (Instr.fcmpEq b0 p0 { lf0 with vd := 8#6 }).wf = false ∧
    (Instr.lfrd b0 p0 { lf0 with msk := 1#3 }).wf = false ∧ (Instr.movc b0 p0 { lf0 with ext := 5#10 }).wf = false ∧ (Instr.sel b0 p0 { lf0 with vc := 8#6 }).wf = false := by decide
theorem test_wf_lathe_formats : (Instr.cvtUnpack b0 p0 { lf0 with vb := 0xE#6 }).wf = false ∧ (Instr.cvtPack b0 p0 { lf0 with vb := 0xF#6 }).wf = false ∧
    (Instr.tdrain b0 p0 { lf0 with vb := 5#6 }).wf = false ∧ (Instr.tclr b0 p0 { lf0 with ext := 64#10 }).wf = false := by decide
theorem test_wf_cgen : (Instr.cgen b0 p0 { lf0 with vd := 0#6, va := 4#6, vb := 8#6 }).wf = true ∧ (Instr.cgen b0 p0 { lf0 with vd := 1#6, va := 4#6, vb := 8#6 }).wf = false ∧
    (Instr.cgen b0 p0 { lf0 with vd := 4#6, va := 4#6, vb := 8#6 }).wf = false := by decide
theorem test_wf_banks : (Instr.vpower b0 0x10#14 0#2 true).wf = false ∧ (Instr.vmode b0 0#14 5#3 false).wf = false := by decide
theorem test_wf_rack : (Instr.crd b0 p0 { ci := 1#4, vin := 0#4, voff := 0#16, lm1 := 0#6, coff := 0#10 }).wf = false ∧ (Instr.cbw b0 p0 1#4 0#4 0#16 0#6 { grp := 0#6, beats := [] }).wf = false := by decide

/- Witnesses: the sequencer. -/
theorem test_witness_index_and_predicate : b0.ok = true := by decide
theorem test_witness_register_writes : Sparse.wf 0#32 Bay.init.seq.idx = true ∧ Sparse.wf false Bay.init.seq.pred = true := by decide
theorem test_witness_loops : b0.ok = true ∧ 0x100 ≤ (0x100#16 : BitVec 16).toNat := by decide

/- A run's invocation with nothing asked of it, and a parcel of field 0 that runs it. -/
def inv0 : Machine.Inv :=
  { serial := 1, started := true, waitTrellis := false, runKey := 0, prologueRan := false, startNs := 0, holdCount := 0, rollbacks := 0, restores := 0, ledger := .empty, checked := 0,
    decided := 0, endSeen := false, endNs := 0, tokens := [], bayTok := [], stop := none, later := [], inputDigest := 0, fault := none, dfault := none, vintageReq := false,
    parkReq := false, abortReq := false, digestsHeld := true, ofPour := false }
def stop0 : Stop := { peg := 0, count := 0, why := { hold := true, vintage := false, park := false, forced := false, fault := false, abort := false }, reached := true, drawn := false, z := none, atNs := 0, since := [], levels := [] }
def par0 : Parcel := { Parcel.init with st := .idle, w := 1, h := 1 }
def withParcel (s : State) (p : Parcel) : State := s.setParcel 0 p
def withInv (i : Machine.Inv) : Parcel := { par0 with st := .running, inv := some i }
theorem test_witness_one_bundle : b0.ok = true ∧ (State.reset).stopsAt b0 = false ∧ Sparse.wf Bay.init State.reset.bays = true ∧
    (withParcel State.reset (withInv { inv0 with stop := some stop0 })).stopsAt b0 = true := by decide

/- Witnesses: the presses. -/
def load0 : LoadF := { half := false, i := 0#4, off := 0#17, fmt := 1#4, soff := 0#19 }
def su0 : Setup := { fmtA := 1#4, fmtB := 1#4, anchor := 0, panels := 2, auto := false }
def setup0 : SetupF := { fmtA := 3#4, fmtB := 3#4, anch := 0#9, dflt := true, npM1 := 0#15, auto := false }
def pressed (q : PQuarter) : Bay := Bay.init.setPress 0 (Press.init.setQuarter 0 q)
theorem test_witness_press_starts : b0.ok = true ∧ load0.ok sel0 = true ∧ setup0.ok sel0 = true ∧ sel0.ok = true ∧ ((State.reset.bay b0).press 0).quart = sel0.qe ∧
    ((State.reset.bay b0).press 0).busy 4 0 = false ∧ modeMay (State.reset.bay b0) 3 0 = true := by decide
theorem test_witness_press_breaches : (State.reset.bay b0).breach.cause = 0 ∧ setup0.ok { sel0 with qe := true } = true ∧ ((State.reset.bay b0).press 0).quart ≠ true ∧
    modeMay ((atBay (pressed { PQuarter.init with acc := some (su0, 1) })).bay b0) 0 0 = false := by decide
def ready0 : HalfCtl := { valid := true, held := false, poison := none, fmt := 1#4 }
def kstepBay : Bay := Bay.init.setPress 0 { Press.init.setQuarter 4 { PQuarter.init with armed := some su0 } with ctl := [(0, ready0), (8, ready0)] }
theorem test_witness_kstep :
    let x := (atBay kstepBay).bay b0
    let p := x.press 0
    let h := fun (k : Nat) => Sparse.get HalfCtl.init p.ctl k
    Sparse.wf Press.init x.presses = true ∧ p.quart = false ∧ p.busy 4 0 = false ∧ (p.quarter 4).acc = none ∧ (p.quarter 4).armed = some su0 ∧ 2 ≤ su0.panels ∧
      (h 0).valid = true ∧ (h 0).fmt = su0.fmtA ∧ (h 0).poison = none ∧ (h 8).valid = true ∧ (h 8).fmt = su0.fmtB ∧ (h 8).poison = none := by decide
def endedBay : Bay := (Bay.init.setPress 0 { Press.init with ends := [(4, -35)] }).setPress 1 { Press.init with ends := [(4, -35)] }
theorem test_witness_drains_and_tastes :
    let x := (atBay endedBay).bay b0
    (x.press 0).quart = false ∧ drainUnitBusy x 0 0 = false ∧ drainLegal 0 1 4 (x.press 0).ends = true ∧ drainLegal 0 4 4 (x.press 0).ends = true ∧
      (1#2 : BitVec 2) ≠ sel0.pr ∧ (x.press 1).quart = false ∧ x.taste = none ∧ drainLegal 0 1 4 (x.press 1).ends = true ∧
      ({ fmt := 1#4, rm := 0#2, sat := false, dsc := 0#7, i := 0#4, off := 0#17, str := 0#8, soff := 0#8 } : DrainF).ok sel0 = true := by decide
def zero1 : Exact × Nat := (.fin false 0 0, 0x7F)
def wave0 : Wave := { pr := 3, v := -66, r0 := 0, c0 := 0, n := 32, anchor := 0, first := false, last := false, a := List.replicate 32 zero1, b := List.replicate 32 zero1, done := [] }
theorem test_witness_cell :
    let x := (atBay { Bay.init with waves := [wave0] }).bay b0
    x.waves = [wave0] ∧ wave0.pr < 4 ∧ x.seq.ticked = wave0.v + 4 + ((31 : Nat) : Int) + ((31 : Nat) : Int) ∧ wave0.a[31]? = some zero1 ∧ wave0.b[31]? = some zero1 ∧
      ((Sparse.get Tun.empty (x.press 3).tuns (32 * 31 + 31)).accumulate (formProductE zero1.1 zero1.2 zero1.1 zero1.2)).2 = false := by decide
def run0 : DrainRun :=
  { d := -30, pr := 3, qe := false, q := 0, recd := false, fmt := 1#4, rm := 0#2, sat := false, dsc := 0, base := 0, rb := 64, sbase := 0, on := true, next := 30, scales := [], body := true }
def taste0 : TasteRun := { d := -31, pr := 0, prb := 1, qe := false, q := 0, qb := 0, next := 31, found := false, on := true }
theorem test_witness_drain_row :
    let x := (atBay { Bay.init with drains := [run0] }).bay b0
    x.drains = [run0] ∧ run0.next < 31 ∧ (fmtP run0.fmt).isMx = false ∧ x.seq.ticked = run0.d + (run0.next : Int) ∧
      (latchRow (x.press run0.pr) false run0.q run0.next).all (fun v => residueOk v.1 v.2) = true := by decide
theorem test_witness_taste_row :
    let x := (atBay { Bay.init with taste := some taste0 }).bay b0
    x.taste = some taste0 ∧ taste0.on = true ∧ taste0.next < (if taste0.qe then 16 else 32) ∧ x.seq.ticked = taste0.d + (taste0.next : Int) ∧
      (latchRow (x.press taste0.pr) taste0.qe taste0.q taste0.next).all (fun v => residueOk v.1 v.2) = true ∧
      (latchRow (x.press taste0.prb) taste0.qe taste0.qb taste0.next).all (fun v => residueOk v.1 v.2) = true := by decide

/- Witnesses: the lathe. -/
theorem test_witness_lathe_fields : b0.ok = true ∧ LatheF.fits lf0 useDAB = true ∧ lf0.fits useCmp = true ∧ lf0.fits useDA = true ∧ lf0.fits useD = true ∧
    ({ lf0 with vc := 7#6 } : LatheF).fits { useDAB with c := 3 } = true ∧ ({ lf0 with ext := 127#10 } : LatheF).fits { useDA with ext := 7 } = true ∧
    ({ lf0 with ext := 4#10 } : LatheF).fits { useDA with a := 0, ext := 3 } = true ∧ ({ lf0 with vc := 63#6 } : LatheF).fits { useDAB with c := 6 } = true ∧
    intOps ≠ [] ∧ cmpOps ≠ [] ∧ fpOps ≠ [] ∧ unaryOps ≠ [] := by
  refine ⟨by decide, by decide, by decide, by decide, by decide, by decide, by decide, by decide, by decide, ?_, ?_, ?_, ?_⟩ <;> exact List.cons_ne_nil _ _
theorem test_witness_lathe_conversions : ({ lf0 with vb := 3#6 } : LatheF).fits { useDA with b := 2 } = true ∧ ({ lf0 with vb := 13#6 } : LatheF).fits { useDA with b := 4 } = true ∧
    fmtOk (BitVec.ofNat 4 (13#6 : BitVec 6).toNat) = true ∧ ({ lf0 with vb := 61#6, vc := 1#6, ext := 127#10 } : LatheF).fits { useDA with b := 6, c := 1, ext := 7 } = true ∧
    ({ lf0 with va := 4#6, vb := 8#6 } : LatheF).cgenOk = true ∧ lf0.fits { useD with d := 0 } = true := by decide
theorem test_witness_lane_tuns : ({ lf0 with vd := 7#6, ext := 63#10 } : LatheF).fits { useD with d := 3, ext := 9 } = true ∧ anchorOk (signedOf 9 (63#10 : BitVec 10).toNat) = true ∧
    ({ lf0 with vd := 7#6 } : LatheF).fits { useDAB with d := 3 } = true ∧ ({ lf0 with vd := 7#6, va := 7#6 } : LatheF).fits { useD with d := 3, a := 3 } = true ∧
    ({ lf0 with vb := 13#6, ext := 127#10 } : LatheF).fits { useDA with a := 3, b := 6, c := 1, ext := 7 } = true ∧ mxFmt (BitVec.ofNat 4 (13#6 : BitVec 6).toNat) = false := by decide
theorem test_witness_lathe_vat : ({ lf0 with vb := 15#6, vc := 63#6, ext := 1023#10 } : LatheF).fits { useD with b := 4, c := 6, ext := 10 } = true ∧
    ({ lf0 with va := 63#6, vb := 15#6 } : LatheF).fits { useD with d := 0, a := 6, b := 4, c := 6, ext := 10 } = true ∧
    ({ lf0 with vd := 7#6, vb := 15#6 } : LatheF).fits { useD with d := 3, b := 4, c := 6, ext := 10 } = true ∧
    ({ lf0 with va := 7#6, vb := 15#6 } : LatheF).fits { useD with d := 0, a := 3, b := 4, c := 6, ext := 10 } = true := by decide
theorem test_witness_lathe_lands : Sparse.wf 0#32 Bay.init.lathe.v = true ∧ Sparse.wf 0#128 Bay.init.lathe.m = true ∧ 127 < 128 := by decide

/- Witnesses: the vat, the racking unit, the sills and the mesh. -/
theorem test_witness_vat_starts : selOk 15#14 true = true ∧ selOk 0x3FFF#14 false = true ∧ (4#3 : BitVec 3).toNat ≤ 4 := by decide
def bankAt (k : Bank) (ev : BEv) : Bay := { Bay.init with agenda := [{ at_ := 0, phase := 0, ev := ev }], vat := Vat.init.setBank 0 k }
theorem test_witness_bank_sleep :
    let x := (atBay (bankAt { Bank.init with sleep := some (.off, 0) } (.bankSleep 0))).bay b0
    0 ≤ x.seq.count ∧ x.agenda = [{ at_ := 0, phase := 0, ev := .bankSleep 0 }] ∧ (x.vat.bank 0).sleep = some (.off, 0) := by decide
theorem test_witness_bank_wake :
    let x := (atBay (bankAt { Bank.init with power := .nap, wakeAt := some 0 } (.bankWake 0))).bay b0
    x.agenda = [{ at_ := 0, phase := 0, ev := .bankWake 0 }] ∧ (x.vat.bank 0).wakeAt = some 0 := by decide
theorem test_witness_vat_write_plain : Mem.wf Vat.init.mem = true ∧ (zeroBytes 8).length = 8 ∧ (2 ^ 23 - 8) % 8 = 0 ∧ 2 ^ 23 - 8 + 8 ≤ 2 ^ 23 ∧ (Vat.init.bank (bankOf (2 ^ 23 - 8))).mode = 0#3 ∧
    Vat.init.granCode (granOf (2 ^ 23 - 8)) = 0 := by decide
theorem test_witness_vat_write_modes : ((Vat.init.setBank (bankOf 0) { Bank.init with mode := 2#3 }).bank (bankOf 0)).mode = 2#3 ∧
    ((Vat.init.setBank (bankOf 0) { Bank.init with mode := 3#3 }).bank (bankOf 0)).mode = 3#3 := by decide
def read0 : RackRun :=
  { tag := 0, kind := 1, u := -160, cask := 0, off := 0, pieces := 1, inter := false, grp := 0, vaddr := 0, on := true, next := 0, nextBuf := 1, buf := [(0, { bytes := zeroBytes 64, bad := [] })], body := true, beats := [] }
theorem test_witness_racks : (14#4 : BitVec 4).toNat % 2 = 0 ∧
    (let x := (atBay { Bay.init with racks := [read0] }).bay b0
     x.racks = [read0] ∧ read0.u + 160 ≤ x.seq.count ∧ read0.buf = [(0, { bytes := zeroBytes 64, bad := [] })]) := by decide
def sop0 (on : Bool) : SopRun :=
  { tag := 0, dix := 0, desc := SillDesc.none, u := 0, k0 := 0, e := some 0, vaddr := 0, on := on, next := 0, operand := [], snap := none, ended := false, nextOut := 0, result := none, late := false, body := true }
theorem test_witness_sill_ends : sopOps ≠ [] ∧
    (let x := (atBay { Bay.init with sops := [sop0 false] }).bay b0
     x.sops = [sop0 false] ∧ (sop0 false).ended = false ∧ (sop0 false).e = some 0 ∧ 0 ≤ x.seq.count ∧ (sop0 false).on = false) := by
  refine ⟨List.cons_ne_nil _ _, by decide⟩
def region0 (use : RegionUse) : Region := { base := 0, size := 2 ^ 20, kind := .interleaved, use_ := use, chan := 0, lb := 0, digest := 0, digestValid := false, closing := false, written := false }
def sopM0 : SopM :=
  { cask := { Cask.init with regions := [region0 .scratch] }, k0 := 0, site := 0, epoch := 0, pieces := [], own := false, fl := 0#9, poison := false, poisonAt := none, found := [], errs := [], voids := 0, faults := [] }
theorem test_witness_sill_results : sopM0.cask.region 0 = some (region0 .scratch) ∧ sopM0.cask.region 64 = some (region0 .scratch) ∧ (sopM0.read (region0 .scratch) 0 64).2 = sopM0 ∧ sopM0.poison = false ∧
    ({ SillDesc.none with opk := 8, b := 64, n := 64 } : SillDesc).opk = 8 ∧ ({ SillDesc.none with opk := 7, n := 64 } : SillDesc).mode = 0 := by decide
def flit0 : Due := { at_ := 0, phase := 0, ev := .flitIn 1 0 false false (zeroBytes 128) 0 }
theorem test_witness_flit :
    let x := (atBay { Bay.init with agenda := [flit0] }).bay b0
    x.agenda = [flit0] ∧ flit0.ev = .flitIn 1 0 false false (zeroBytes 128) 0 ∧ flit0.at_ ≤ x.seq.count := by decide

/- Witnesses: the lath network and the clocks. -/
def field0 : Field := { Field.init with st := .raised, hub := true, supply := { Supply.init with vfab := true } }
def powered : State := State.reset.setField 0 field0
def load8 (n : Nat) : LoadMsg := { group := none, bay := b0, addr := 0#32, words := List.replicate n 0#32, crc := 0#32 }
theorem test_witness_load : (load8 8).group = none ∧ (load8 8).words.length % 8 = 0 ∧ 8 ≤ (load8 8).words.length ∧ (load8 56).words.length ≤ 56 ∧ (load8 56).words.length % 8 = 0 ∧
    powered.loadOpen b0 false = true ∧ (load8 7).words.length % 8 ≠ 0 ∧ 56 < (load8 64).words.length ∧
    (State.reset.setField 0 { field0 with st := .raising }).loadOpen b0 true = true := by decide
/-- The whole module's hubs stand, with their lath groups out of reset. -/
def lathed (s : State) : State := { s with plate := { s.plate with plateReset := false, lathPlate := [0, 5] } }
def msg0 : LathMsg := { cls := .reg, type := 0#8, dkind := 2#2, dest := 0#12, payload := [], src := .hub 0 }
theorem test_witness_lath_nodes : State.reset.nodeUp (.hub 0) = false ∧ (lathed powered).nodeUp (.hub 0) = true ∧ (lathed powered).nodeUp (.bay b0) = true ∧ (lathed powered).nodeUp .plate = true ∧ (lathed powered).nodeUp (.hub 1) = false ∧
    (lathed powered).addressed msg0 (.hub 0) = true ∧ (lathed powered).addressed msg0 (.hub 1) = false ∧ msg0.dkind = 2#2 ∧ msg0.dest.toNat % 16 = 0 ∧ ([Ecc.corrected] : List Ecc).count .uncorrectable = 0 ∧
    0 < ([Ecc.uncorrectable] : List Ecc).count .uncorrectable := by decide
theorem test_witness_lath_messages : lathNodeOk (.bay { x := 59, y := 23 }) = true ∧ lathNodeOk (.hub 9) = true ∧ lathNodeOk .plate = true ∧ lathNodeOk (.hub 10) = false ∧ LathNode.hub 9 ≠ .plate := by decide
def image0 : Image :=
  { bytes := [], digest := 0, pourClass := false, shape := 0, features := 0, sillOps := false, prologue := false, interval := 0, bodyCount := 4096, prologueCount := 0,
    runs := [{ first := 0, interval := 4096, repeat_ := 1 }], pruns := [], phases := [], taste := 0, labelIn := [], labelOut := [], sources := [], pour := none, marks := [] }
def counted (n : Int) : State := withParcel (State.reset.setBay b0 { Bay.init with seq := { Seq.init with count := n, ticked := n } }) { withInv inv0 with image := some image0 }
set_option maxRecDepth 100000 in
theorem test_witness_peg_check : (State.reset).pegReached 0 = false ∧ (counted 1).pegReached 0 = true ∧ Sparse.wf Parcel.init (counted 1).parcels = true ∧ ((counted 1).parcel 0).inv = some inv0 := by decide
def part0 (ok : Bool) : TokenPart := { bay := 0, pegno := 1#16, ok := ok, phase := 0#8, phv := false }
def tok0 (n : Nat) (agree ok : Bool) : TokenSum :=
  { field := 0, ord := 1, parts := List.replicate (n - 1) (part0 ok) ++ [{ part0 ok with pegno := if agree then 1#16 else 2#16 }], isEnd := false }
set_option maxRecDepth 100000 in
theorem test_witness_peg_kinds : (tok0 143 true true).arrived < 144 ∧ 144 ≤ (tok0 144 false true).arrived ∧ (tok0 144 false true).agree = false ∧ (tok0 144 true false).pegno = BitVec.ofNat 16 1 ∧
    (tok0 144 true false).digestOk = false ∧ (tok0 144 true true).digestOk = true := by decide
def cmd0 (n : Nat) (fc : BitVec 8) : ClockCmd := { count := n, fcode := fc, stop := false }
set_option maxRecDepth 100000 in
theorem test_witness_clock_commands : (powered.field 0).supply.vfab = true ∧ 0x18 ≤ (cmd0 0 0x18#8).fcode.toNat ∧ (cmd0 0 0x48#8).fcode.toNat ≤ 0x48 ∧ powered.clockLate 0 (cmd0 0 0x18#8) = false ∧
    ((counted 1).setField 0 field0).clockLate 0 (cmd0 0 0x18#8) = true ∧ (State.reset.field 9).supply.vfab = false ∧ (cmd0 0 0x17#8).fcode.toNat < 0x18 ∧ powered.plate.master ≤ 0 := by decide
theorem test_witness_clock_stop_named :
    (withParcel powered (withInv { inv0 with stop := some stop0 })).stopNamed 0 { count := 64, fcode := 0x18#8, stop := true } = true := by decide
def switching (c : ClockCmd) : State := State.reset.setField 0 { field0 with island := { Island.init with switch := some c, locked := true } }
theorem test_witness_cancel : ((switching (cmd0 5 0x18#8)).field 0).island.switch = some (cmd0 5 0x18#8) ∧ (switching (cmd0 5 0x18#8)).clockLate 0 (cmd0 5 0x20#8) = false ∧
    (cmd0 5 0x20#8).count = (cmd0 5 0x18#8).count ∧ ({ State.reset with plate := { Plate.init with master := 1 } } : State).plate.master > 0 := by decide
def pair0 : State := powered.setField 1 field0
theorem test_witness_align : 12 < 13 ∧ pair0.seamOpen 0 = true ∧ (pair0.seam 0).released = false ∧ pair0.plate.master ≤ 0 ∧ (pair0.field (seamEnds 0).1).island.live = (pair0.field (seamEnds 0).2).island.live ∧
    (pair0.setSeam 0 { Seam.init with alignAt := some 0 }).seamOpen 0 = true ∧ ((pair0.setSeam 0 { Seam.init with alignAt := some 0 }).seam 0).alignAt.isSome = true := by decide
def wave1 : State := (pair0.setField 1 { field0 with island := { Island.init with st := 7#4 } }).setSeam 0 { Seam.init with released := true }
def link0 : ScarfLink := { seam := 0, line := 11, up := true }
def aligning (m : Nat) : State := { pair0.setSeam 0 { Seam.init with alignAt := some 0, released := true } with plate := { Plate.init with master := m } }
theorem test_witness_align_check : ((aligning 48).seam 0).alignAt = some 0 ∧ ((aligning 48).seam 0).released = true ∧ 0 + 48 ≤ (aligning 48).plate.master ∧ ((aligning 48).seam 0).tries < 3 ∧
    ((List.replicate 24 (7 : Int)).take 24).all (fun v => decide (5 ≤ v) && decide (v ≤ 7)) = true ∧ (([4] : List Int).take 24).all (fun v => decide (5 ≤ v) && decide (v ≤ 7)) = false ∧ (pair0.seam 0).alignAt = none := by decide
theorem test_witness_stretches : powered.stretchHeld 0 = false ∧ wave1.waveAhead 0 = true ∧ powered.waveAhead 0 = false ∧ (wave1.seam link0.seam).released = true ∧
    4 < ((11 : Int) - Sparse.get 6 (wave1.seam link0.seam).sigma0 (linkReader link0)).natAbs ∧ ((10 : Int) - Sparse.get 6 (wave1.seam link0.seam).sigma0 (linkReader link0)).natAbs ≤ 4 ∧ link0 ∉ (wave1.seam link0.seam).overrun ∧ link0.line < 12 := by decide
theorem test_witness_switch : ((switching (cmd0 5 0x18#8)).field 0).island.locked = true ∧ (switching (cmd0 5 0x18#8)).switchDue 0 (cmd0 5 0x18#8) = true ∧ (powered.field 0).island.locked = false ∧
    (powered.field 0).island.switchedDue = none ∧ (switching { cmd0 5 0x18#8 with stop := true }).clockReached 0 { cmd0 5 0x18#8 with stop := true } 1024 = false := by decide
theorem test_witness_switched :
    let s := State.reset.setField 0 { Field.init with island := { Island.init with switchedDue := some (cmd0 5 0x18#8) } }
    (s.field 0).island.switchedDue = some (cmd0 5 0x18#8) ∧ s.clockReached 0 (cmd0 5 0x18#8) 1024 = true ∧ (switching (cmd0 5 0x18#8)).clockReached 0 (cmd0 5 0x18#8) (-2048) = true := by decide
set_option maxRecDepth 100000 in
theorem test_witness_switched_early :
    let s := (counted 1028).setField 0 { field0 with island := { Island.init with switchedDue := some (cmd0 5 0x18#8) } }
    s.clockReached 0 (cmd0 5 0x18#8) 1024 = false ∧ s.clockReached 0 (cmd0 4 0x18#8) 1024 = true := by decide
def platted (p : Plate) : State := { State.reset with plate := p }
def owned : State := { (State.reset.setPort 0 { Port.init with linkUp := true, perst := false }) with raising := { Raising.init with owner := some 0 } }
theorem test_witness_references : Plate.init.ref25Lost = false ∧ Plate.init.ref156Lost = false ∧ (State.reset.port 3).refLost = false ∧ Plate.init.oscLost = false ∧
    (∀ p, p < 4 → (State.reset.port p).refmode ≠ 1) ∧ (platted { Plate.init with ref25Lost := true, holdover := true }).plate.holdover = true ∧
    (∀ p, p < 4 → (State.reset.parcel p).running = false) ∧ owned.raising.owner = some 0 ∧ (owned.port 0).linkUp = true ∧ State.reset.raising.owner = none := by decide

/- Witnesses: power, resets and pins. -/
def pinned (p : Pins) : State := { State.reset with pins := p }
theorem test_witness_hv_en : State.reset.pins.hvEn = false ∧ State.reset.pins.hvOffNs = none ∧ State.reset.inputOk = true ∧ State.reset.pins.pwrOk = false ∧
    (platted { Plate.init with inputLoss := some 0 }).inputOk = false ∧ (pinned { Pins.init with hvOffNs := some 0 }).tNs < 0 + 1000000000 ∧
    (pinned { Pins.init with hvOffNs := some 0, hvEn := true, hvEnWait := true }).inputOk = true := by decide
def on0 : State := { State.reset with pins := { Pins.init with hvEn := true, pwrOk := true }, plate := { Plate.init with bus := true, plateRails := true, plateReset := false } }
theorem test_witness_logic_lost : (∃ t, exec .hvEnDeassert on0 = .next t) ∧ on0.pins.hvEn = true ∧ (∃ t, exec .busCollapse on0 = .next t) ∧ on0.plate.bus = true ∧
    (∃ t, exec (.thermtripN .external) on0 = .next t) ∧ (∃ t, exec (.modResetN 10000) on0 = .next t) ∧ on0.pins.pwrOk = true := by
  refine ⟨⟨_, rfl⟩, by decide, ⟨_, rfl⟩, by decide, ⟨_, rfl⟩, ⟨_, rfl⟩, by decide⟩
def lossy (r : Bool) : State := { on0 with plate := { on0.plate with inputLoss := some 0, returned := r } }
theorem test_witness_ride_through : (∃ t, exec .rideThroughEnd (lossy false) = .next t) ∧ (lossy false).plate.inputLoss.isSome = true ∧ (lossy false).plate.returned = false ∧ (lossy true).plate.returned = true := by
  refine ⟨⟨_, rfl⟩, by decide⟩
theorem test_witness_resets : State.reset.plate.plateReset = true ∧ (pinned { Pins.init with pwrOk := true }).pins.pwrOk = true ∧ (pinned { Pins.init with pwrOk := true }).pins.modResetLow = false ∧
    999 < 1000 ∧ on0.plate.plateReset = false := by decide
def cm0 : State := { on0 with plate := { on0.plate with cmstRunning := true } }
theorem test_witness_input : on0.plate.inputLoss = none ∧ on0.plate.cmstRunning = false ∧ cm0.plate.cmstRunning = true ∧ (∀ p, p < 4 → (cm0.parcel p).running = false ∧ (cm0.parcel p).st ≠ .idle) ∧
    (lossy true).plate.inputLoss.isSome = true ∧ (State.reset).pins.hvEn = false ∧ cm0.plate.conv.getLsbD 3 = true ∧ cm0.plate.conv ≠ BitVec.ofNat 4 (2 ^ 3) ∧ (8#4 : BitVec 4) = BitVec.ofNat 4 (2 ^ 3) ∧
    1000 ≤ min 1000 2000 ∧ min 999 1000 < 1000 := by decide
def fed : State := cm0.setField 9 field0
theorem test_witness_supply : 9 < 10 ∧ (fed.field 9).supply.vfab = true ∧ Sparse.wf Field.init fed.fields = true ∧ fed.plate.cmstRunning = true ∧ (fed.field 9).supply.badPhases = [] ∧
    (fed.field 9).supply.latFailed = false ∧ (fed.field 9).supply.verFailed = false ∧ fed.plate.bus = true ∧ (fed.bent 9 11).slices = [] ∧ 47 ∉ (fed.field 9).supply.openGroups ∧
    (BayId.mk 59 23).ok = true ∧ fieldOf { x := 59, y := 23 } = 9 ∧ (26 ≤ 60) ∧ 25 < 26 := by decide
def cracking (g sum n ma : Nat) (ns : Nat) : State :=
  { cm0.setField 9 { field0 with supply := { field0.supply with crackNs := some ns, crack := [(g, (sum : Int), n, ma)] } } with tNs := 100000000 }
theorem test_witness_groups : (cracking 47 0 1 1 100000000).tNs + 10000 < 100000000 + 100000000 ∧ 0 + 100000000 ≤ (cracking 47 250001 1 1 0).tNs + 10000 ∧ 250000 * ((1 : Nat) : Int) < 250001 ∧
    (600000 : Int) ≤ 600000 * ((1 : Nat) : Int) ∧ 47 ∉ ((cracking 47 250001 1 1 0).field 9).supply.suspectGroups ∧ ((cracking 47 250001 1 1 0).field 9).supply.crack = [(47, 250001, 1, 1)] := by decide
theorem test_witness_slices : ((cm0.setField 9 { field0 with bents := [(11, { Bent.init with slices := [13] })] }).bent 9 11).slices = [13] := by decide
theorem test_witness_struts : fed.vbent 9 11 < fed.vbent 9 11 + 15 ∧ 15 ≤ fed.vbent 9 11 ∧ 900 ≤ fed.strutMv { x := 59, y := 23 } := by decide
theorem test_witness_dark : (fed.field 9).supply.shorted = false ∧ (fed.field 9).supply.lost = false ∧ (fed.bent 9 0).retired = false ∧ (fed.field 0).hub = false ∧ (fed.field 5).hub = false ∧
    (powered.field 0).hub = true ∧ ((cm0.setField 9 { field0 with supply := { field0.supply with shorted := true } }).field 9).supply.shorted = true ∧
    (∀ p, p < 4 → (cm0.parcel p).running = false) ∧ (∀ g, g < 10 → (cm0.field g).st ≠ .raised) := by decide
theorem test_witness_pins : on0.pins.pwrOk = true ∧ on0.plate.plateReset = false ∧ (1#8 : BitVec 8) ≠ 0#8 ∧ (0xFE#8 : BitVec 8) ≠ 0xFF#8 ∧ 1 ≤ (1#4 : BitVec 4).toNat ∧ (6#4 : BitVec 4).toNat ≤ 6 ∧ (on0.port 3).perst = true ∧
    (owned.port 0).linkUp = true ∧ ((owned.setPort 0 { (owned.port 0) with d3hot := true }).port 0).d3hot = true ∧
    ((platted { Plate.init with regOut := [(.hub 9, msg0)] }).plate.regOut.find? (fun e => decide (e.1 = .hub 9))) = some (.hub 9, msg0) ∧
    cm0.plate.cmstFailed = false ∧ cm0.flog.lastWrite = none ∧ on0.plate.plateRails = true ∧ on0.sealU.scope = 0 ∧ State.reset.prt.stretch.getLsbD 31 = false := by decide
def injecting : State :=
  let s := withParcel (lathed powered) { par0 with test := true }
  { s with prt := { Prt.init with ctrl := 1#32, stretch := 0x80000010#32 } }
theorem test_witness_injection : injecting.prtFor injecting.prt.parcel = true ∧ injecting.prt.stretch.getLsbD 31 = true ∧ 16 ≤ fieldBits injecting.prt.stretch 19 0 ∧ fieldBits injecting.prt.stretch 23 20 = 0 ∧
    fieldBits injecting.prt.stretch 27 24 = 0 ∧ (injecting.parcel injecting.prt.parcel).holds 0 = true ∧ (injecting.field 0).supply.vfab = true ∧ injecting.stretchHeld 0 = false := by decide
theorem test_witness_summary_twice : ∃ t, ({ State.reset with flog := { FaultLog.init with lastWrite := some t } } : State).flog.lastWrite = some t ∧ State.reset.plate.wall.toNat < t + 60000000000 := ⟨0, by decide⟩

/- A raised module: port 0 is principal and owns parcel 0 of field 0, port 1 is live, fields 0 and 1 are raised. -/
def licence0 : Licence := { serial := 1, fields := 10, parcels := 4, tapLanes := 32, powerMax := 3600, features := 0xFFFF }
def livePort : Port := { Port.init with linkUp := true, perst := false }
def mod0 : State :=
  let s : State := { lathed cm0 with raising := { Raising.init with stage := 6, owner := some 0, done := true }, sealU := { Seal.init with ready := true, licence := some licence0 } }
  (((s.setPort 0 livePort).setPort 1 livePort).setField 0 field0).setField 1 field0
def own0 : State := withParcel mod0 { par0 with image := some image0 }
def rq0 : Requester := .slot 0 63 0#64
def rq1 : Requester := .slot 1 0 0#64
def rqs : Requester := .sideband 8 0#64

/- Witnesses: requests, the sys, parcel and image messages. -/
theorem test_witness_requests : requesterOk (.slot 4 0 0#64) = false ∧ own0.portLive 0 = true ∧ State.reset.raising.done = false ∧
    ((own0.setPort 0 { livePort with own := 1#64 }).port 0).own.getLsbD 0 = true ∧ own0.takes rq0 = true ∧ own0.takes rqs = true ∧ isSideband rqs = true ∧ isSideband rq0 = false ∧
    (own0.parcel 3).live = false ∧ own0.fromPrincipal rq1 = false ∧ (requesterPort rq1).any (fun k => decide ((own0.parcel 0).owner = k)) = false ∧
    (own0.received rq0).inScope rq0 miWindowSet 0 = 0 ∧ ({ own0 with sealU := Seal.init } : State).hasFeature 2 = false ∧ own0.hasFeature 2 = true := by decide
def nonce0 : Bytes := zeroBytes 48
def key0 : RegKey := { id := 5, use_ := 2, pub := [] }
theorem test_witness_principal_move :
    let s : State := { own0 with sealU := { own0.sealU with nonce := some (nonce0, 0), keys := [key0] } }
    s.takes rqs = true ∧ isSideband rqs = true ∧ (∃ at_, s.sealU.nonce = some ((nonce0 ++ zeroBytes 48).take 48, at_) ∧ s.tNs < at_ + 60000000000) ∧ s.sealU.halted = false ∧ (s.port 1).linkUp = true ∧
      s.sealU.keys.find? (fun k => decide (k.id = 5) && decide (k.use_ / 2 % 2 = 1)) = some key0 := by
  refine ⟨by decide, by decide, ⟨0, by decide, by decide⟩, by decide, by decide, by decide⟩
def finding0 : FieldFindings :=
  { field := 2, softstartOk := true, tripped := false, pllOk := true, structOk := true, badBays := [], badColumns := [], slicesBad := [], epochBad := 0, wiresBad := [], alignFail := [], microOk := true, clearOk := true,
    cellarFail := none, memtestOk := true, overrun := none, models := List.replicate 48 40, leakMa := 0, leakT := 25 }
def spare0 : State := (List.range 13).foldl (fun (s : State) n => s.modSeam n (fun m => { m with lathReleased := true })) (own0.setField 2 { Field.init with st := .parked, calib := true, hub := true })
set_option maxRecDepth 100000 in
theorem test_witness_parcel_create : spare0.fromPrincipal rq0 = true ∧ (spare0.received rq0).createRefusal 1 2 0 1 1 0#8 = 0 ∧
    ((((spare0.received rq0).setParcel 1 { Parcel.init with owner := 0, c0 := 2, r0 := 0, w := 1, h := 1, taps := 0#8 }).setPState 1 .resuming).bringUpAll (rectFields 2 0 1 1) [finding0]).firstDown (rectFields 2 0 1 1) = none := by
  decide
theorem test_witness_parcel_messages : own0.fromPrincipal rq0 = true ∧ (own0.parcel 0).live = true ∧ (own0.parcel 0).busy = false ∧ (own0.parcel 0).pour.serving = false ∧ own0.fromEither rq0 0 = true ∧
    (own0.parcel 0).st = .idle ∧ own0.fromOwner rq0 0 = true ∧ (own0.parcel 0).image.isSome = true := by decide
theorem test_witness_image_info : (own0.parcelRegions 0).length ≤ 165 := by decide +kernel
def parked0 : State := withParcel mod0 { par0 with st := .parked, image := some image0, parkedBy := some .trellis }
theorem test_witness_parcel_resume : parked0.fromEither rq0 0 = true ∧ (parked0.parcel 0).st = .parked ∧ (parked0.received rq0).stillHot 0 = false ∧
    (parked0.received rq0).raisedCount + (parked0.parcel 0).fields.length ≤ parked0.licFields ∧ (withParcel mod0 (withInv inv0)).fromEither rq0 0 = true := by decide

/- Witnesses: casks, runs and vintages. -/
def caskAt (k : Cask) : State := own0.setCask 0 k
def weighted : State := caskAt { Cask.init with rails := true, regions := [{ region0 .weight with closing := true }] }
theorem test_witness_windows : own0.fromOwner rq0 0 = true ∧ ((own0.parcel 0).absCask 1).isSome = true ∧ ((own0.parcel 0).absCask 2).isSome = false ∧ own0.fromPort rq1 = true := by decide
theorem test_witness_cut_entry : ({ addr := 0, kind := 1#8, eflag := 0#8, len := 64, haddr := 0, daddr := 0, rsvZero := true, data := [], dmaOk := true, beats := [] } : CutEntry).kind = 1#8 ∧
    (own0.received rq0).entryHeld 0 { addr := 0, kind := 1#8, eflag := 0#8, len := 64, haddr := 0, daddr := 0, rsvZero := true, data := [], dmaOk := true, beats := [] } = false := by decide
set_option maxRecDepth 100000 in
theorem test_witness_cut_entry_waits : ((withParcel mod0 { withInv inv0 with image := some image0 }).received rq0).entryHeld 0
    { addr := 0, kind := 1#8, eflag := 0#8, len := 64, haddr := 0, daddr := 0, rsvZero := true, data := [], dmaOk := true, beats := [] } = true := by decide
theorem test_witness_region_close : (own0.parcel 0).absCask 0 = some 0 ∧ ((weighted.cask 0).weightAt 0).isSome = true ∧ ((weighted.cask 0).weightAt 0).all (fun r => r.closing) = true ∧ weighted.waits = [] := by decide
theorem test_witness_staves : own0.fromPrincipal rq0 = true ∧ (((own0.received rq0).staveFails 19 15).cask 19).copying = some 15 ∧ (own0.parcel 0).casks.contains 0 = true ∧ own0.fromEither rq0 0 = true ∧
    ((caskAt { Cask.init with copying := some 3 }).cask 0).copying = some 3 := by decide
def run1 : State := withParcel mod0 { withInv inv0 with image := some image0 }
theorem test_witness_rest_and_scrub : run1.fieldRuns 0 = true ∧ 4096 < 4097 ∧ (own0.field (fieldOf b0)).supply.vfab = true ∧ own0.fieldRuns (fieldOf b0) = false ∧ 32 * chanSpan - 1 < 32 * chanSpan ∧
    (weighted.cask 0).rails = true ∧ weighted.restNow 0 = true ∧ run1.restNow 0 = false := by decide
theorem test_witness_rest_starved :
    let s := run1.setCask 0 { Cask.init with ledger := 4097 }
    let t := run1.setCask 0 { Cask.init with forced := true }
    s.fieldRuns 0 = true ∧ (s.cask 0).forced = false ∧ 4096 < (s.cask 0).ledger ∧ t.fieldRuns 0 = true ∧ (t.cask 0).forced = true ∧ own0.fieldRuns 0 = false := by decide
theorem test_witness_runs : own0.fromOwner rq0 0 = true ∧ (own0.parcel 0).image = some image0 ∧ (own0.parcel 0).busy = false ∧ (own0.parcel 0).pour.serving = false ∧ (own0.parcel 0).st = .idle ∧
    parked0.fromOwner rq0 0 = true ∧ (parked0.parcel 0).image = some image0 ∧ (parked0.parcel 0).st = .parked ∧ (parked0.parcel 0).parkedBy = some .trellis ∧
    run1.fromOwner rq0 0 = true ∧ (run1.parcel 0).inv = some inv0 ∧ inv0.ofPour = false ∧ (run1.parcel 0).running = true ∧ (run1.parcel 0).st ≠ .parked := by decide
def rec0 : Completion :=
  { serial := 1, status := 0, faultCode := 0, labelState := 0, flags := 0, pegno := 0, fabricCount := 0, prologueCount := 0, holdCount := 0, startNs := 0, endNs := 0, rollbacks := 0, label := [], signed := true }
theorem test_witness_records :
    let s := withParcel mod0 { par0 with records := [rec0] }
    s.fromOwner rq0 0 = true ∧ (s.parcel 0).records.find? (fun r => decide (r.serial = 1) && r.signed) = some rec0 ∧ (s.parcel 0).records.find? (fun r => decide (r.serial = 2) && r.signed) = none := by decide
theorem test_witness_export :
    let s := withParcel mod0 { par0 with vint := [{ Vintage.none with valid := true }] }
    s.fromOwner rq0 0 = true ∧ (s.parcel 0).running = false ∧ (s.parcel 0).newest = some { Vintage.none with valid := true } := by decide

/- Witnesses: power, soundings and the fault messages. -/
theorem test_witness_caps : own0.fromPrincipal rq0 = true ∧ (1#32 : Word).toNat < 2 ∧ (900 ≤ 3600 ∧ 3600 ≤ own0.licPower) ∧ (own0.parcel 0).live = true ∧ own0.capOk 900 = true ∧
    own0.takes rqs = true ∧ ({ own0 with trellis := { Trellis.init with sideEid := 8 } } : State).trellis.sideEid = 8 := by decide
theorem test_witness_contract : ({ own0 with trellis := { Trellis.init with started := true, power := 1000 } } : State).contractRefusal 1000 10 (10 ^ 12) = 0 := by decide
theorem test_witness_messages : own0.takes rq0 = true ∧ own0.fromPort rq0 = true ∧ 255 < 256 ∧ 1 ≤ 62 ∧ own0.fromEither rq0 0 = true ∧ (own0.unitCounters 0 1 0 0 0).isSome = true := by decide
def sound0 : SoundF := { kind := 5#8, sflag := 0#8, a := 12, b := 0, c := 0, pass := true }
theorem test_witness_sounding : soundWell sound0 = true ∧ own0.fromPrincipal rq0 = true ∧ (own0.received rq0).soundTarget 0 sound0 = some (.lath 12) ∧ (own0.received rq0).soundHeld (.lath 12) = false ∧
    (own0.received rq0).destructiveOk sound0 (.lath 12) = true ∧ (((own0.received rq0).targetParcel 0 (.lath 12)).any (fun k => ((own0.received rq0).parcel k).running)) = false := by decide

/- Witnesses: taps, rack transport and Pour. -/
def rackF0 : RackOpenF := { stream := 0, tap := 0x18#8, key := 0xFF, peer := 1, peerPort := 9, localPort := 8, rcask := 0, off := 0, len := 8193, object := 0 }
def rack0 : Rack :=
  { f := rackF0, state := 1, session := 7#64, landed := [], arrived := [(1, [0#8])], retry := [], credit := 2, sentCredit := 2, unsacked := [], busy := true, retries := EvCnt.init, crcErrors := EvCnt.init }
def tap0 : Tap := { Tap.init with mode := 3, mtu := 8292, ipv4 := 0x0A000001#32, ipv6 := 1#128, subs := [(3, { SubLink.init with link := true })] }
def tapped (q : Parcel) : State := (withParcel mod0 { q with taps := 1#8 }).setTap 0 tap0
def streaming : State := tapped { par0 with racks := [(0, rack0)] }
theorem test_witness_rack_open : (tapped par0).fromOwner rq0 0 = true ∧ tapOf rackF0.tap = some (0, 3) ∧ rackF0.key = 0xFF ∧ (tapped par0).rack 0 0 = none ∧ ((tapped par0).received rq0).rackTapOk 0 0 3 = true ∧
    (((tapped par0).setCask 0 { Cask.init with regions := [region0 .landing] }).received rq0).rackRegionOk 0 rackF0 = true ∧ streaming.rack 0 0 = some rack0 := by decide
theorem test_witness_tap_config : (7#8 : BitVec 8).toNat < 8 ∧ (tapped par0).fromOwner rq0 0 = true ∧ ((tapped par0).parcel 0).taps.getLsbD 0 = true ∧ (3#8 : BitVec 8).toNat ≤ 3 ∧ 1500 ≤ 9216 ∧
    (tapped par0).sealU.halted = false ∧ tapOf 0x18#8 = some (0, 3) := by decide
def decl0 : PourDecl :=
  { stepCount := 8192, rows := 1, prefillRows := 1, slots := 1, vocab := 16, maxPos := 64, rowsPerPage := 16, maxBlocks := 4, nsets := 1, sampler := 0, stepTable := 0, pageMap := 0, records := 0, tokenBlock := 0,
    pool := [(0, 4)], setCask := [0] }
def pourImage : Image := { image0 with pourClass := true, pour := some decl0 }
def seq0 : PourSeq :=
  { id := 3, st := .incomplete, seed := 0, temp := 0, topP := 0x3F800000, topK := 0, maxNew := 1, nprompt := 2, stop := [], head := [], src := .cutList 0, replyIp := 1, replyPort := 9, prompt := [], got := 0, tokens := [],
    done := 0, slot := 0, served := 0, admitted := 0, pages := [], rowAt := none, holds := 0, digestsHeld := true, cancelled := false, reason := 0, label := none, waits := false }
def pouring (seqs kept : List PourSeq) : State :=
  withParcel mod0 { par0 with image := some pourImage, pour := { Pour.init with serving := true, maxSeq := 1, seqs := seqs, kept := kept } }
def ended0 : PourSeq := { seq0 with st := .ended, label := some [0#8] }
theorem test_witness_pour_messages : own0.hasFeature 0 = true ∧ Parcel.pourRefusal { par0 with image := some pourImage } 1 0#8 = 0 ∧ (pouring [seq0] [ended0]).fromOwner rq0 0 = true ∧
    ((pouring [seq0] [ended0]).parcel 0).pour.serving = true ∧ ((pouring [seq0] []).parcel 0).stepping = false ∧ [4] ≠ ([] : List Nat) ∧ [4].contains seq0.id = false ∧
    ((pouring [seq0] []).parcel 0).pour.seqs.filter (fun z => [seq0.id].contains z.id) = [seq0] ∧
    ((pouring [] [ended0]).parcel 0).pour.kept.reverse.find? (fun z => decide (z.id = 3)) = some ended0 ∧ ended0.waits = false ∧ ended0.label = some [0#8] := by decide
theorem test_witness_seal_messages : own0.takes rqs = true ∧ own0.sealU.halted = false ∧ own0.fromPort rq1 = true ∧ own0.fromPrincipal rq0 = true ∧ (3#32 : Word).toNat < 4 ∧ own0.sealU.keys.length < 16 ∧
    own0.sealU.keys.any (fun k => decide (k.id = 5)) = false ∧ ({ own0.sealU with keys := [key0] } : Seal).keys.any (fun k => decide (k.id = 5)) = true := by decide
set_option maxRecDepth 100000 in
theorem test_witness_key_point : keyPointOk (pointBytes bpG) = true := by decide
theorem test_witness_perturb : own0.fromEither rq0 0 = true ∧ own0.hasFeature 2 = true ∧ (own0.parcel 0).busy = false ∧ (own0.parcel 0).test = false ∧
    (withParcel mod0 { par0 with test := true }).fromEither rq0 0 = true ∧ fieldBits (0#32) 2 1 = 0 ∧ fieldBits (6#32) 2 1 ≠ 0 := by decide

theorem test_witness_sub_links : ((State.reset.setTap 7 tap0).subLink 7 2).link = false ∧ ((on0.setTap 7 tap0).mayLink 7 2) = true ∧ ((tapped par0).subLink 0 3).link = true ∧ (tapped par0).mayLink 0 3 = true ∧
    ((tapped par0).tap 0).ipv4 ≠ 0#32 ∧ ((tapped par0).tap 0).ipv6 ≠ 0#128 := by decide
def frame0 (len : Nat) : Frame :=
  { tap := 0, sub := 3, fcsOk := true, fecCorrected := 0, fecUncorrected := 0, vlan := false, len := len, dst := BitVec.allOnes 48, src := 0, etherType := 0x0806#16, ipOk := true, fragment := false, extHeader := false,
    udpChecksumOk := true, srcIp := 0, dstIp := 0, isUdp := false, srcPort := 0, dstPort := 0, payload := [] }
theorem test_witness_frames : (frame0 64).fcsOk = true ∧ (tapped par0).macDiscards (frame0 64) = false ∧ ((tapped par0).tap 0).accepts 64 = true ∧ ((tapped par0).tap 0).accepts 63 = false ∧
    ((tapped par0).tap 0).accepts 8310 = true ∧ ((tapped par0).tap 0).accepts 8311 = false ∧ (frame0 64).etherType = 0x0806#16 := by decide
def hdrOf (type flag : BitVec 8) (len seq arg : Nat) : RackHdr :=
  let h : RackHdr := { magic := 0x524B#16, version := 1#8, type := type, rflag := flag, key := 0xFF#8, len := len, session := 7#64, seq := seq, arg := arg, rsv := 0#32, hcrc := 0#32 }
  { h with hcrc := crc32c (hdrBytes h) }
def peer0 : PeerAddr := { tap := 0, sub := 3, ip := 1, sport := 9, dport := 8 }
set_option maxRecDepth 100000 in
theorem test_witness_datagrams : hdrCrcOk (hdrOf 4#8 0#8 0 0 0) = true ∧ hdrFormOk (hdrOf 4#8 0#8 0 0 0) = true ∧ hdrFormOk (hdrOf 7#8 0#8 0 0 0) = false ∧ hdrFormOk (hdrOf 6#8 0#8 0 0 0) = true ∧ hdrFormOk (hdrOf 0#8 0#8 0 0 0) = false ∧
    (tapped par0).sessions 7#64 = [] ∧ (streaming.sessions 7#64).find? (fun x => addrMatches x.2 peer0) = some (.stream 0 0, rackF0) := by decide
def body1 : Bytes := 0#8 :: natLe 4 (crc32c [0#8]).toNat
theorem test_witness_data : (Rack.accepts { rack0 with arrived := [] } (hdrOf 2#8 2#8 1 1 0) body1) = true ∧ (streaming.parcel 0).segData rack0 (hdrOf 2#8 2#8 1 1 0) body1 = some [0#8] ∧
    (streaming.parcel 0).segData rack0 (hdrOf 2#8 2#8 1 1 0) (zeroBytes 5) = none ∧ (hdrOf 2#8 2#8 1 1 0).type = 2#8 ∧ (hdrOf 5#8 0#8 0 0 4).arg = 4 := by decide
def exp0 (n : Nat) (started : Bool) : Export :=
  { stream := 0, f := rackF0, session := 9#64, bytes := [0#8], offers := n, started := started, credit := 0, requested := [], rq := rq0, park := false }
def exporting (n : Nat) (started : Bool) : State := tapped { par0 with racks := [(0, rack0)], exp := some (exp0 n started) }
theorem test_witness_export_datagrams : ((exporting 1 true).sessions 9#64).find? (fun x => addrMatches x.2 peer0) = some (.export_ 0, rackF0) ∧ (hdrOf 4#8 4#8 0 0 1).rflag.getLsbD 2 = true ∧
    ((exporting 1 true).parcel 0).exp = some (exp0 1 true) ∧ segCount (exp0 1 true).bytes.length ≤ (hdrOf 3#8 4#8 0 0 1).arg ∧ (exp0 1 true).offers ≠ 0 ∧ 0 + 1 ≤ segCount (exp0 1 true).bytes.length := by decide
theorem test_witness_rack_timers : rack0.arrived.find? (fun e => e.1 = 1) = some (1, [0#8]) ∧ (streaming.parcel 0).absCask rackF0.rcask = some 0 ∧ streaming.gwOpen 0 = true ∧ (withParcel mod0 { withInv inv0 with racks := [(0, rack0)], image := some image0 }).gwOpen 0 = false ∧ rack0.state = 1 ∧ streaming.rackUp rackF0 = true ∧
    rack0.hasLanded 1 = false ∧ 1 < segCount rackF0.len ∧ Sparse.get 0 rack0.retry 1 < 16 ∧ 16 ≤ Sparse.get 0 [(1, 16)] 1 ∧ rack0.busy = true ∧ (exp0 0 false).started = false ∧ (exp0 0 false).bytes ≠ [] ∧ (exp0 99 false).offers < 100 ∧
    100 ≤ (exp0 100 false).offers := by decide

def pframe (type id : Nat) (body : Bytes) : Bytes :=
  let h := natLe 2 0x5250 ++ natLe 1 1 ++ natLe 1 type ++ natLe 4 body.length ++ natLe 8 id ++ body
  h ++ natLe 4 (crc32c h).toNat
def reqBody (n : Nat) : Bytes := natLe 8 0 ++ natLe 4 0 ++ natLe 4 0x3F800000 ++ natLe 4 0 ++ natLe 4 1 ++ natLe 4 2 ++ zeroBytes 20 ++ natLe 16 1 ++ zeroBytes 4 ++ natLe 4 n ++ zeroBytes (4 * n)
set_option maxRecDepth 100000 in
theorem test_witness_pour_request : sourceOk (.cutList 3) = true ∧ ((pouring [] []).parcel 0).decl = some decl0 ∧ (pouring [] []).pourHears 0 (.cutList 0) = true ∧ State.reset.pourHears 0 (.cutList 0) = false ∧
    pourParse (pframe 1 3 (reqBody 1)) (srcMaxLen (.cutList 0)) = some { type := 1, id := 3, body := reqBody 1 } ∧ pourParse [] 16 = none ∧
    ((pouring [] []).parcel 0).pour.requestReason decl0 (.cutList 0) { type := 1, id := 3, body := reqBody 1 } = (0, 0) ∧
    ((pouring [seq0] []).parcel 0).pour.requestReason decl0 (.cutList 0) { type := 1, id := 3, body := reqBody 1 } = (2, 0) := by decide +kernel
def running3 : PourSeq := { seq0 with st := .decode, tokens := [7] }
set_option maxRecDepth 100000 in
theorem test_witness_pour_frames : ((pouring [seq0] []).parcel 0).pour.appendReason decl0 (.cutList 0) { type := 2, id := 3, body := natLe 4 1 ++ natLe 4 1 ++ natLe 4 5 } = (0, 0) ∧
    pourParse (pframe 3 3 []) 16 = some { type := 3, id := 3, body := [] } ∧ ((pouring [running3] []).parcel 0).pour.named 3 (.cutList 0) = some running3 ∧ running3.st ≠ .ended ∧
    pourParse (pframe 4 3 (zeroBytes 8)) 16 = some { type := 4, id := 3, body := zeroBytes 8 } ∧ allZero ((zeroBytes 8).drop 4) = true ∧ (zeroBytes 8).leAt 0 4 ≤ running3.tokens.length ∧
    ((pouring [seq0] []).parcel 0).pour.find seq0.id = some seq0 ∧ seq0.st = .incomplete := by decide
theorem test_witness_pour_step : ((pouring [] []).parcel 0).image = some pourImage ∧ ((pouring [] []).parcel 0).pour.stopping = false ∧ ((pouring [] []).parcel 0).inv = none ∧ ((pouring [] []).parcel 0).st = .idle ∧
    ((pouring [] []).parcel 0).fields.all (fun f => decide (((pouring [] []).field f).st = .raised)) = true := by decide
def stepped : State := withParcel mod0 { withInv { inv0 with endSeen := true, ofPour := true } with image := some pourImage, pour := { Pour.init with serving := true, maxSeq := 1 } }
theorem test_witness_pour_step_end : (stepped.parcel 0).inv = some { inv0 with endSeen := true, ofPour := true } ∧ (stepped.parcel 0).image = some pourImage ∧ inv0.started = true ∧ inv0.fault = none ∧ inv0.parkReq = false := by decide
set_option maxRecDepth 100000 in
theorem test_witness_pour_step_settles :
    let u := ((stepped.settleBays 0).settleData inv0).1
    let t := (u.parcel 0).casks.foldl (fun (u : State) c => u.modCask c (fun k => k.commit none)) u
    (t.parcel 0).inv = some { inv0 with endSeen := true, ofPour := true } := by decide
theorem test_witness_labels : ({ mod0 with sealU := { Seal.init with halted := true } } : State).sealU.halted = true ∧ (pouring [] [{ ended0 with waits := true }]).waitingLabels = [(0, 0, true, 3)] ∧
    (withParcel mod0 { par0 with records := [{ rec0 with signed := false }] }).waitingLabels = [(0, 0, false, 1)] := by decide

/- Witnesses: the raise, the host ports, invocations, the trellis, counters and the drain. -/
def claimed (r : Raising) : State := { mod0 with raising := { r with owner := some 0 } }
def rz : Raising := Raising.init
theorem test_witness_claim : owned.portLive 0 = false ∧ mod0.portLive 0 = true ∧ ({ mod0 with raising := rz } : State).raising.owner = none ∧ (claimed rz).raising.owner ≠ some 1 ∧
    (claimed { rz with stage := 1 }).raising.stage = 1 ∧ (claimed { rz with stage := 1 }).raising.locked = false ∧ (claimed rz).raising.cmd = none ∧ (claimed rz).raiseRefusal 1 0#10 = 0x0F02 := by decide
theorem test_witness_raise_commands : (claimed { rz with stage := 1, fwLen := 352 }).raiseRefusal 1 0#10 = 0 ∧ (claimed { rz with stage := 2 }).raiseRefusal 2 0#10 = 0 ∧ (claimed { rz with stage := 3 }).raiseRefusal 3 0#10 = 0 ∧
    (claimed { rz with stage := 4, grainOk := true }).raiseRefusal 4 0x200#10 = 0 ∧ (claimed { rz with stage := 5, grainOk := true }).raiseRefusal 4 0x200#10 = 0 ∧
    ((claimed { rz with stage := 4, grainOk := true }).setField 9 { Field.init with st := .parked }).raiseRefusal 6 0x200#10 = 0 ∧ (claimed { rz with stage := 4 }).raising.stage = 4 ∧
    ((claimed { rz with stage := 4, grainOk := true }).setField 0 { Field.init with st := .raised }).raiseRefusal 5 1#10 = 0 := by decide
theorem test_witness_cmst_ready : (claimed { rz with cmd := some { op := 2, port := 0, fields := 0#10, memtest := false, atNs := 0 } }).raising.cmd = some { op := 2, port := 0, fields := 0#10, memtest := false, atNs := 0 } := by decide
theorem test_witness_raise_step_timeout :
    let s := (claimed { rz with stage := 4 }).setField 9 { Field.init with st := .raising }
    (s.field 9).st = .raising ∧ (s.field 9).fast = false ∧ s.raising.errCode = 0 ∧ Sparse.wf Field.init s.fields = true := by decide
def landing : State := own0.setCask 0 { Cask.init with rails := true, regions := [region0 .landing] }
def seg0 (kind : BitVec 8) : CutEntry := { addr := 64, kind := kind, eflag := 0#8, len := 64, haddr := 0, daddr := 0, rsvZero := true, data := zeroBytes 64, dmaOk := true, beats := [] }
set_option maxRecDepth 100000 in
theorem test_witness_segments : mod0.raising.done = true ∧ (landing.parcel 0).live = true ∧ (landing.parcel 0).owner = 0 ∧ landing.entryHeld 0 (seg0 1#8) = false ∧ cutOk (seg0 1#8) false = true ∧
    (landing.parcel 0).absCask (daddrCask (seg0 1#8).daddr) = some 0 ∧ (landing.gwWrite 0 0 (zeroBytes 64) true []).isSome = true ∧ (landing.gwRead 0 0 64).any (fun x => !x.2) = true ∧
    ({ seg0 1#8 with rsvZero := false } : CutEntry).rsvZero = false := by decide
def windowed : State := landing.setPort 0 { livePort with win := [(255, 0x80000000#32)] }
def closed0 (s : State) : State := withParcel s { withInv inv0 with image := some image0 }
theorem test_witness_bar2 : ([0#8] : Bytes) ≠ [] ∧ (256 * gib - 1) % gib + 1 ≤ gib ∧ 256 * gib - 1 + 1 ≤ 256 * gib ∧ windowed.bar2At 0 (255 * gib) = some (some 0, 0) ∧ windowed.gwOpen 0 = true ∧
    ((windowed.modPort 0 (fun q => { q with posted := [(255 * gib, [0#8], [])] })).gwWrite 0 0 [0#8] true []).isSome = true ∧ (windowed.gwRead 0 0 1).any (fun x => !x.2) = true ∧ windowed.bar2At 0 0 = none ∧
    Sparse.wf Port.init windowed.ports = true ∧ (windowed.port 0).posted = [] ∧ (windowed.port 0).reads = [] ∧ windowed.gwOrder = [] ∧ windowed.noCredits 0 = false ∧ windowed.writeHeld 0 = false := by decide
/- A port out of credits, one whose buffer is full, and requests that wait (17 R355, R356, R367). -/
def queued : State := own0.modPort 0 (fun q => { q with posted := [(0, [0#8], [])] })
theorem test_witness_waiting : (own0.holdWrite 0 (.flr 0)).writeHeld 0 = true ∧ (own0.holdWrite 0 (.flr 0)).portLive 0 = true ∧ queued.hears (.slot 0 5 7#64) = true ∧ queued.writeHeld 0 = false ∧ queued.raising.done = true ∧
    queued.mustQueue (some 0) (queued.reqKeys (.slot 0 5 7#64) miSysInfo 255) (msgNow miSysInfo.code) = true ∧ own0.mustQueue (some 0) (own0.reqKeys (.slot 0 5 7#64) miCreate 0) (msgNow miCreate.code) = false ∧
    (own0.holdReq (some 1) (some 0) [0] false (.flr 0)).mustQueue (some 0) [0, 255] false = true ∧ (own0.holdReq (some 1) (some 0) [0] false (.flr 0)).mustQueue (some 0) [1] false = false ∧
    ([seg0 1#8] : List CutEntry) ≠ [] := by decide
theorem test_witness_full : 262144 ≤ 256 * gib ∧ (own0.modPort 0 (fun q => { q with posted := [(0, List.replicate 262144 0#8, [])] })).postedFull 0 1 = true := by
  refine ⟨by decide, ?_⟩
  have e : ((own0.modPort 0 (fun q => { q with posted := [(0, List.replicate 262144 0#8, [])] })).port 0).posted = [(0, List.replicate 262144 0#8, [])] := rfl
  simp only [State.postedFull, e, List.foldl_cons, List.foldl_nil, List.length_replicate]; decide
set_option maxRecDepth 100000 in
theorem test_witness_bar2_waits : (closed0 windowed).bar2At 0 (255 * gib) = some (some 0, 0) ∧ (closed0 windowed).gwOpen 0 = false ∧
    ((windowed.modPort 0 (fun q => { q with reads := [(5, 8)] })).port 0).reads.contains (5, 8) = true ∧ (windowed.port 0).reads.contains (5, 8) = false := by decide
def armed0 : Prt := { Prt.init with ctrl := 0x10000001#32, armed := some { pegSeen := true }, injTgt := 0#32, injCtrl := 0x10000000#32 }
theorem test_witness_host_ports : (0x80000000#32 : Word).getLsbD 31 = true ∧ ({ own0 with trellis := { Trellis.init with fastDue := some 5 } } : State).trellis.fastDue = some 5 ∧
    (withParcel { mod0 with prt := armed0 } { par0 with test := true }).prtWriter 0 0 = true ∧ own0.prtWriter 1 3 = false ∧ own0.prt.armed = none ∧
    (withParcel { mod0 with prt := armed0 } { par0 with test := true }).prtFor 0 = true := by decide
theorem test_witness_inject_bay :
    let s := withParcel { mod0 with prt := armed0 } { withInv inv0 with test := true }
    (s.parcel 0).running = true ∧ (s.parcel 0).bayAt (fieldBits s.prt.injTgt 27 22) (fieldBits s.prt.injTgt 21 17) = b0 ∧ (s.parcel 0).holds (fieldOf b0) = true ∧ fieldBits s.prt.injTgt 31 28 = 0 ∧
      fieldBits s.prt.injCtrl 29 28 = 1 ∧ s.prt.injCtrl.getLsbD 30 = false := by decide

def deciding (i : Machine.Inv) (n : Int) : State := withParcel (mod0.setBay b0 { Bay.init with seq := { Seq.init with body := true, count := n, ticked := n } }) { withInv i with image := some image0 }
set_option maxRecDepth 100000 in
theorem test_witness_stop_decisions : image0.pegCount 1 = some 0 ∧ inv0.started = true ∧ ((0 : Nat) : Int) ≤ (deciding inv0 0).parcelCount 0 + 1024 ∧ ((deciding inv0 0).stopWhy 0 1 inv0 image0).any = false ∧
    ((deciding { inv0 with vintageReq := true } 0).stopWhy 0 1 { inv0 with vintageReq := true } image0).any = true ∧ inv0.stop = none ∧
    ({ image0 with runs := [{ first := 2048, interval := 4096, repeat_ := 1 }] } : Image).pegCount 1 = some 2048 ∧ (deciding inv0 1023).parcelCount 0 + 1024 < 2048 ∧
    countPast ((deciding inv0 1).islandCount 0) 0 = true ∧ countPast ((deciding inv0 0).islandCount 0) 0 = false ∧ Sparse.wf Parcel.init (deciding inv0 0).parcels = true := by decide +kernel
def halted0 (t : Stop) : State := withParcel powered { withInv { inv0 with stop := some t } with image := some image0 }
theorem test_witness_stops : (halted0 stop0).atStop 0 stop0 = true ∧ (halted0 stop0).atStop 0 { stop0 with count := 64 } = false ∧ (halted0 stop0).mayRestart 0 { inv0 with stop := some stop0 } stop0 = true ∧
    (halted0 stop0).mayRestart 0 inv0 { stop0 with z := some 1 } = false ∧ stop0.why.forced = false ∧ stop0.reached = true ∧ (halted0 { stop0 with z := some 0 }).stopOver 0 { stop0 with z := some 0 } = false ∧ ({ halted0 stop0 with tNs := 1000 } : State).stopOver 0 { stop0 with z := some 0 } = true ∧ stop0.why.abort = false ∧
    ({ stop0 with reached := false } : Stop).reached = false ∧ inv0.fault = none ∧ inv0.abortReq = false := by decide +kernel
def why0 : StopWhy := { hold := false, vintage := true, park := true, forced := false, fault := false, abort := false }
def fault0 : FaultRec := { code := 0x0901, unit := 2, x := 0, y := 0, idx := 0, peg := 0, seq := 1, cask := none, stave := none, injected := false }
theorem test_witness_vintages : (halted0 { stop0 with why := why0 }).parcel 0 = { withInv { inv0 with stop := some { stop0 with why := why0 } } with image := some image0 } ∧ why0.vintage = true ∧ why0.park = true ∧
    stop0.drawn = false ∧ ({ stop0 with drawn := true } : Stop).drawn = true ∧ ((halted0 stop0).parcel 0).exp = none ∧ ({ inv0 with fault := some fault0 } : Machine.Inv).fault = some fault0 := by decide +kernel
theorem test_witness_invocation_start :
    let s := withParcel mod0 { par0 with image := some image0, inv := some { inv0 with started := false } }
    (s.parcel 0).inv = some { inv0 with started := false } ∧ (s.parcel 0).image = some image0 ∧ (s.parcel 0).firstLanded = true ∧ (s.parcel 0).st = .idle ∧
      (s.parcel 0).fields.all (fun f => decide ((s.field f).st = .raised)) = true := by decide
set_option maxRecDepth 100000 in
theorem test_witness_invocation_complete :
    let i := { inv0 with endSeen := true }
    let s := withParcel mod0 { withInv i with image := some image0 }
    let u := ((s.settleBays 0).settleData i).1
    let t := (u.parcel 0).casks.foldl (fun (u : State) c => u.modCask c (fun k => k.commit none)) u
    i.started = true ∧ i.fault = none ∧ i.ofPour = false ∧ (t.parcel 0).inv = some i := by decide
theorem test_witness_units_fail : 3 < 4 ∧ cm0.plate.cmstRunning = true ∧ cm0.plate.cmstPairs = [] ∧ cm0.sealU.halted = false ∧ cm0.plate.plateReset = false ∧ cm0.sealU.entropyFails < 2 ∧
    2 ≤ ({ Seal.init with entropyFails := 2 } : Seal).entropyFails ∧ ({ Seal.init with halted := true } : Seal).halted = true := by decide

def looped (t : Trellis) : State := { mod0 with trellis := { t with started := true } }
def tin0 : TrellisInputs := { powerW := 1000, vin := 480, iin := 20, rails := [], bayT := [], sillT := [], plateT := [], inletT := some 20, outletT := none, copiesAgree := true }
theorem test_witness_trellis : State.reset.trellis.started = false ∧ (looped Trellis.init).trellis.failed = false ∧ (looped Trellis.init).trellis.reloading = false ∧ tin0.copiesAgree = true ∧
    ({ tin0 with copiesAgree := false } : TrellisInputs).copiesAgree = false ∧ (looped { Trellis.init with reloading := true }).trellis.reloading = true ∧
    ((looped { Trellis.init with reloading := true, mismatches := [0, 0] }).trellis.mismatches.filter (fun a => decide (mod0.tNs < a + 1000000000))).length < 3 ∧
    3 ≤ ((looped { Trellis.init with reloading := true, mismatches := [0, 0, 0] }).trellis.mismatches.filter (fun a => decide (mod0.tNs < a + 1000000000))).length ∧
    (looped Trellis.init).trellis.wins.length < 2 ∧ (looped { Trellis.init with power := 900 }).trellis.power ≤ (looped { Trellis.init with power := 900 }).effCap + 25 ∧
    (looped Trellis.init).trellis.bins = [] := by decide
def hinted : State := { withParcel mod0 { withInv inv0 with image := some image0, tr := { (withInv inv0).tr with share := 5000 } } with trellis := { Trellis.init with started := true } }
theorem test_witness_phases : (hinted.parcel 0).live = true ∧ (hinted.parcel 0).image.isSome = true ∧ hinted.trellis.started = true ∧ (hinted.parcel 0).running = true ∧ hinted.trellis.failed = false ∧
    ((hinted.parcel 0).phaseEnt 5 (hinted.parcelTemp (hinted.parcel 0))).forecastMw (hinted.fcode (hinted.parcel 0)) (hinted.parcel 0).tr.beta (hinted.parcelTemp (hinted.parcel 0)) ≤ 1000 * (hinted.parcel 0).tr.share := by decide +kernel
def occ0 (until_ : Nat) : Occurrence := { phase := 5#8, sinceNs := 0, untilNs := until_, n := 1, dyn := 1000, leak := 0, cask := 0, temp := 60, amps := 500, before := none }
theorem test_witness_occurrences : (hinted.parcel 0).tr.occEnd = none ∧ (0 < (occ0 100000).n) ∧ (occ0 99999).untilNs < (occ0 99999).sinceNs + 100000 ∧ (occ0 100000).sinceNs + 100000 ≤ (occ0 100000).untilNs := by decide +kernel
def contract0 (lessee : Bool) : Contract := { target := 1000, rateUp := 10, deadline := 5, p0 := 900, arrived := 0, state := 1, reason := 0, lessee := lessee, level := 900, win := 0, sum := 0, cnt := 0, seen := [] }
theorem test_witness_contracts : (looped { Trellis.init with lease := some (1000, 5, 0) }).trellis.lease = some (1000, 5, 0) ∧ (looped { Trellis.init with contractP := some (contract0 false) }).trellis.contractP = some (contract0 false) ∧
    (contract0 false).lessee = false ∧ (looped { Trellis.init with contractL := some (contract0 true) }).trellis.contractL = some (contract0 true) ∧ (contract0 true).lessee = true := by decide

theorem test_witness_latches : Sparse.wf 0#32 mod0.plate.latches = true ∧ mod0.portLive 0 = true ∧ mod0.plate.cmstRunning = true ∧ (4 < 5 ∧ 1 < 2) ∧ ((3, 1) : Nat × Nat) ≠ (3, 0) := by decide
theorem test_witness_counters : ({ n := 2 ^ 48 - 1, sat := true } : EvCnt).n < 2 ^ 48 ∧ (0 < 1) ∧ b0.ok = true ∧ Sparse.wf Bay.init State.reset.bays = true ∧ Sparse.wf EvCnt.init (State.reset.bay b0).counters = true ∧
    counterOk (.subLink 7 3 5) = false ∧ counterOk (.subLink 7 3 4) = true ∧ counterOk (.cask 19 28) = true ∧ counterOk (.bay { x := 59, y := 23 } 8) = true ∧ counterOk (.hub 9 3) = true ∧ counterOk (.island 9 4) = true := by decide
def tun1 : Tun := { Tun.empty with v := 1#128, anchor := -200 }
theorem test_witness_zero_drains : fmtOk 1#4 = true ∧ tun1.tn = false ∧ tun1.tr = false ∧ tun1.tp = false ∧ tun1.tm = false ∧ Tun.empty.v = 0#128 ∧ tun1.v ≠ 0#128 ∧ (fmtP 1#4).isInt = false ∧
    roundInt 1 (-200 - ((-126) - 7)) 0#2 0 = 0 ∧ (fmtP 0xA#4).isInt = true ∧ roundInt 1 (-200) 0#2 0 = 0 ∧ (fmtP 5#4).isMx = true ∧ (fmtP 5#4).isInt = false ∧
    roundInt 1 (-200 - (max (0 + -200) (1 - (fmtP 5#4).bias) - (fmtP 5#4).mbits)) 0#2 0 = 0 := by decide
theorem test_witness_special_drains : ({ Tun.empty with tn := true } : Tun).tn = true ∧ ({ Tun.empty with tp := true } : Tun).tp = true ∧ ({ Tun.empty with tm := true } : Tun).tm = true ∧ Tun.empty.tn = false ∧ Tun.empty.tr = false := by
  decide
theorem test_witness_soundness : on0.Sound ∧ on0.pending = [] ∧ (match step on0 with | .next _ => true | _ => false) = true :=
  ⟨⟨⟨rfl, rfl, rfl, rfl, rfl, rfl, rfl⟩, fun _ => rfl, by simp [FaultLog.Sound, on0, State.reset, FaultLog.init], rfl⟩, rfl, by decide +kernel⟩
theorem test_witness_queue : State.reset.pending = [] ∧ State.reset.plate.plateReset = true ∧ State.reset.held = [] ∧ (on0.idle.takeHeld [] on0.idle.held).isNone = true ∧ ((own0.holdWrite 0 (.flr 0)).idle.takeHeld [] (own0.holdWrite 0 (.flr 0)).idle.held).isSome = true := by decide +kernel

/- The units of every command, at the last number of each kind and beyond it. -/
theorem test_witness_units : unitsExist (.pegOverdue { x := 59, y := 23 }) = true ∧ unitsExist (.pegOverdue { x := 60, y := 0 }) = false ∧ unitsExist (.pegCheck 3) = true ∧ unitsExist (.pegCheck 4) = false ∧
    unitsExist (.switched 9) = true ∧ unitsExist (.switched 10) = false ∧ unitsExist (.align 12 0) = true ∧ unitsExist (.align 13 0) = false ∧ unitsExist (.slotWrite 3 63 0 []) = true ∧ unitsExist (.slotWrite 3 64 0 []) = false ∧
    unitsExist (.staveSpared 19) = true ∧ unitsExist (.staveSpared 20) = false ∧ unitsExist (.tapLinkChange 7 3 true) = true ∧ unitsExist (.tapLinkChange 7 4 true) = false ∧ unitsExist (.sysInfo (.slot 3 63 0#64)) = true ∧
    unitsExist (.sysInfo (.slot 4 0 0#64)) = false ∧ unitsExist (.trimDegraded 9 11 13) = true ∧ unitsExist (.trimDegraded 9 12 0) = false ∧ unitsExist (.phaseDegraded 9 23) = true ∧ unitsExist (.phaseDegraded 9 24) = false ∧
    unitsExist (.counterSatClear (.cask 19 28) false) = true ∧ unitsExist (.refLoss (.pcie 4)) = false ∧ unitsExist .hvEnAssert = true := by decide

/- Results worked out by hand from the spec. -/
/-- 00 R8: counts compare modulo 2^64: 2 lies after 2^64 - 3 and not before it. -/
theorem test_counts_wrap : countReached 2 (2 ^ 64 - 3) = true ∧ countReached (2 ^ 64 - 3) 2 = false ∧ countPast 5 5 = false ∧ countPast 6 5 = true := by decide
/-- 06 R123: the check value of the CRC-32C over the nine ASCII digits (it follows from its polynomial, bit order and initial value, with the final complement). -/
theorem test_crc32c : crc32c [0x31#8, 0x32#8, 0x33#8, 0x34#8, 0x35#8, 0x36#8, 0x37#8, 0x38#8, 0x39#8] = 0xE3069283#32 := by decide +kernel
/-- 02 R33: 3 x 2^-1 drains to 1.5, and -1 to -1, in FP32 and BF16. -/
theorem test_drain_values : (drainTun { Tun.empty with v := 3#128, anchor := -1 } 0#4 0#2 false 0 0).code = 0x3FC00000 ∧ (drainTun { Tun.empty with v := 3#128, anchor := -1 } 1#4 0#2 false 0 0).code = 0x3FC0 ∧
    (drainTun { Tun.empty with v := -1#128 } 0#4 0#2 false 0 0).code = 0xBF800000 := by decide
/-- 02 R33: 257 lies midway between two BF16 values and goes to the even one, 256; 259 goes to 260. -/
theorem test_drain_ties_to_even : (drainTun { Tun.empty with v := 257#128 } 1#4 0#2 false 0 0).code = 0x4380 ∧ (drainTun { Tun.empty with v := 259#128 } 1#4 0#2 false 0 0).code = 0x4382 := by decide
/-- 02 R35: the E4M3 code of a value above 448 under SAT is 0x7E, without it NaN. -/
theorem test_drain_overflow : (drainTun { Tun.empty with v := 1000#128 } 3#4 0#2 true 0 0).code = 0x7E ∧ (drainTun { Tun.empty with v := 1000#128 } 3#4 0#2 false 0 0).code = 0x7F := by decide
/-- 01 R12: bay (59, 23) stands in field 9 and bent 11, bay (12, 0) in field 1. -/
theorem test_fields : fieldOf { x := 59, y := 23 } = 9 ∧ bentOf { x := 59, y := 23 } = 11 ∧ fieldOf { x := 12, y := 0 } = 1 := by decide
/-- The model's own (log entry 1): an idle step is 10 ns, one cycle of CD14 (12 R250). -/
theorem test_idle : (match step on0 with | .next t => decide (t.tNs = 10) | _ => false) = true := by decide +kernel
/-- 17 R357: MBX_DROPPED counts a write of a device-owned slot and the port shows the error. -/
theorem test_slot_not_owned : (match exec (.slotWrite 0 0 0 [1#8]) (own0.setPort 0 { livePort with own := 1#64 }) with
    | .next t => decide ((t.port 0).dropped.n = 1) && decide ((t.port 0).err = 0x10#5) | _ => false) = true := by decide

end Sys2Proof.Tests
end

section
/-! Event counters and the latches through which they are read (00 R7, R9, R10). -/

namespace Sys2Proof.Machine
open Sys2Proof

/-- What counting does to the number: it saturates (R9). -/
theorem EvCnt.add_n (x : EvCnt) {k : Nat} (hk : 0 < k) : (x.add k).n = min (x.n + k) (2 ^ 48 - 1) := by
  unfold EvCnt.add
  split
  · omega
  · split
    · next hs => simp only [Nat.min_eq_right hs]
    · next hs => simp only [Nat.min_eq_left (Nat.le_of_not_le hs)]

/-- What counting does to SAT: it is sticky and set at saturation (R9). -/
theorem EvCnt.add_sat (x : EvCnt) {k : Nat} (hk : 0 < k) : (x.add k).sat = true ↔ x.sat = true ∨ 2 ^ 48 - 1 ≤ x.n + k := by
  unfold EvCnt.add
  split
  · omega
  · split
    · next hs => simp only [hs, or_true]
    · next hs => simp only [hs, or_false]

theorem EvCnt.low_toNat (x : EvCnt) : x.low.toNat = x.n % 2 ^ 32 := BitVec.toNat_ofNat _ _

/-- The high word of a counter below 2^48: SAT above COUNT[47:32]. -/
theorem EvCnt.high_toNat (x : EvCnt) (h : x.n < 2 ^ 48) : x.high.toNat = 2 ^ 31 * b1 x.sat + x.n / 2 ^ 32 := by
  have hb : b1 x.sat ≤ 1 := by unfold b1; split <;> omega
  simp only [EvCnt.high, packBits, List.foldl_cons, List.foldl_nil, BitVec.toNat_ofNat]
  omega

/-- The bits of the high word: COUNT[47:32] below bit 31, SAT in it. -/
theorem EvCnt.high_bit (x : EvCnt) (h : x.n < 2 ^ 48) (i : Nat) :
    x.high.getLsbD i = if i < 31 then (x.n / 2 ^ 32).testBit i else (b1 x.sat).testBit (i - 31) := by
  rw [BitVec.getLsbD, EvCnt.high_toNat x h, Nat.testBit_two_pow_mul_add _ (by omega)]

theorem EvCnt.high_sat (x : EvCnt) (h : x.n < 2 ^ 48) : x.high.getLsbD 31 = x.sat := by
  rw [EvCnt.high_bit x h]
  cases x.sat <;> rfl

theorem EvCnt.high_reserved (x : EvCnt) (h : x.n < 2 ^ 48) {i : Nat} (hi : 16 ≤ i) (hi' : i < 31) : x.high.getLsbD i = false := by
  have hq : x.n / 2 ^ 32 < 2 ^ i := Nat.lt_of_lt_of_le (by omega : x.n / 2 ^ 32 < 2 ^ 16) (Nat.pow_le_pow_right (by omega) hi)
  rw [EvCnt.high_bit x h, if_pos hi', Nat.testBit_lt_two_pow hq]

/-- A cleared counter counts the event of its cycle (R10). -/
theorem EvCnt.cleared_eq (e : Bool) : EvCnt.cleared e = { n := if e then 1 else 0, sat := false } := by cases e <;> rfl

/-- A write of 1 to the SAT of MBX_DROPPED clears that counter of its port (R9, 17 R359). -/
theorem counterSatClear_dropped (s : State) (p : Nat) (ev : Bool) (hp : p < 4) :
    exec (.counterSatClear (.mbxDropped p) ev) s = .next (s.modPort p (fun q => { q with dropped := EvCnt.cleared ev })) := by
  change execCounterSatClear (.mbxDropped p) ev s = _
  simp [execCounterSatClear, counterOk, hp]

/-- A counter that no register shows keeps its value. -/
theorem counterSatClear_other (s : State) (u : CounterUnit) (ev : Bool) (hu : counterOk u = true) (hd : ∀ p, u ≠ .mbxDropped p) :
    exec (.counterSatClear u ev) s = .next s := by
  change execCounterSatClear u ev s = _
  cases u with
  | mbxDropped p => exact absurd rfl (hd p)
  | _ => simp [execCounterSatClear, hu]

theorem counterSatClear_refused (s : State) (u : CounterUnit) (ev : Bool) (hu : counterOk u = false) :
    exec (.counterSatClear u ev) s = .refused .noSuchUnit := by
  change execCounterSatClear u ev s = _
  simp [execCounterSatClear, hu]

/-- Settles O53: the counter's own equations, and the clear of each kind of counter. -/
theorem eventCounters : Obligations.EventCounters := by
  unfold Obligations.EventCounters
  refine ⟨fun x k _ hk => ⟨EvCnt.add_n x hk, EvCnt.add_sat x hk⟩, fun x h => ⟨x.low_toNat, x.high_sat h, fun i hi hi' => x.high_reserved h hi hi', ?_⟩,
    fun s p ev hp => ?_, counterSatClear_other, counterSatClear_refused⟩
  · rw [x.high_toNat h]; omega
  · rw [counterSatClear_dropped s p ev hp, EvCnt.cleared_eq]

/-- Two latches of the five readers (the ports 0 to 3 and the Cellarmaster) share a key only when reader and counter are the same (R7). -/
theorem latchKey_inj {r c r' c' : Nat} (hc : c < 2) (hc' : c' < 2) (h : latchKey r c = latchKey r' c') : (r, c) = (r', c') := by
  simp only [latchKey] at h
  have hr : r = r' := by omega
  have hcc : c = c' := by omega
  rw [hr, hcc]

/-- A latch keeps what a low-word read stores in it. -/
theorem State.keepLatch_latch (s : State) (k j : Nat) (w : Word) (h : Sparse.wf 0#32 s.plate.latches = true) :
    (s.keepLatch k w).latch j = if j = k then w else s.latch j :=
  Sparse.get_set 0#32 s.plate.latches k j w h
theorem State.keepLatch_other (s : State) {k j : Nat} (w : Word) (h : Sparse.wf 0#32 s.plate.latches = true) (hj : j ≠ k) :
    (s.keepLatch k w).latch j = s.latch j := by rw [s.keepLatch_latch k j w h, if_neg hj]
theorem State.keepLatch_same (s : State) (k : Nat) (w : Word) (h : Sparse.wf 0#32 s.plate.latches = true) : (s.keepLatch k w).latch k = w := by
  rw [s.keepLatch_latch k k w h, if_pos rfl]
/-- A low-word read writes the latches and nothing else. -/
theorem State.keepLatch_frame (s : State) (k : Nat) (w : Word) :
    s.keepLatch k w = { s with plate := { s.plate with latches := (s.keepLatch k w).plate.latches } } := rfl
/-- The latch of another reader or another counter keeps its value. -/
theorem State.keepLatch_key_other (s : State) {r c r' c' : Nat} (w : Word) (h : Sparse.wf 0#32 s.plate.latches = true) (hc : c < 2) (hc' : c' < 2)
    (hne : (r, c) ≠ (r', c')) : (s.keepLatch (latchKey r' c') w).latch (latchKey r c) = s.latch (latchKey r c) :=
  s.keepLatch_other w h (fun e => hne (latchKey_inj hc hc' e))

/-- The high words that a port reads come from its own latches (R7). -/
theorem State.readTel_high (s : State) (p : Nat) : s.readTel p 0x14 = s.latch (latchKey p 0) := rfl
theorem State.readMailbox_high (s : State) (p : Nat) : s.readMailbox p 0x24 = s.latch (latchKey p 1) := rfl

/-- What a low-word read of each reader stores (R7). -/
theorem counterLowRead_port_energy (s : State) (p : Nat) (hp : p < 4) (hl : s.portLive p = true) :
    exec (.counterLowRead (.port p) .telEnergy) s = .next (s.keepLatch (latchKey p 0) (BitVec.ofNat 32 (s.energyMj / 2 ^ 32))) := by
  change execCounterLowRead (.port p) .telEnergy s = _
  simp [execCounterLowRead, State.onPort, hp, hl]
theorem counterLowRead_port_dropped (s : State) (p : Nat) (hp : p < 4) (hl : s.portLive p = true) :
    exec (.counterLowRead (.port p) .mbxDropped) s = .next (s.keepLatch (latchKey p 1) (s.port p).dropped.high) := by
  change execCounterLowRead (.port p) .mbxDropped s = _
  simp [execCounterLowRead, State.onPort, hp, hl]
theorem counterLowRead_cellarmaster_energy (s : State) (hr : s.plate.cmstRunning = true) :
    exec (.counterLowRead .cellarmaster .telEnergy) s = .next (s.keepLatch (latchKey 4 0) (BitVec.ofNat 32 (s.energyMj / 2 ^ 32))) := by
  change execCounterLowRead .cellarmaster .telEnergy s = _
  simp [execCounterLowRead, hr]
theorem counterLowRead_cellarmaster_unit (s : State) (u : CounterUnit) (hr : s.plate.cmstRunning = true) (hu : counterOk u = true) :
    exec (.counterLowRead .cellarmaster (.unit u)) s = .next (s.keepLatch (unitKey u) (s.unitCounter u).high) := by
  change execCounterLowRead .cellarmaster (.unit u) s = _
  simp [execCounterLowRead, hr, hu]

/-- Settles O52: every low-word read is one write of the reader's own latch. -/
theorem countersAreReadThroughLatches : Obligations.CountersAreReadThroughLatches := by
  unfold Obligations.CountersAreReadThroughLatches
  intro s hw
  refine ⟨fun p hp hl => ⟨?port_energy, ?port_dropped⟩, fun hr => ?cm_energy, fun hr u hu => ?cm_unit, fun p => ⟨s.readTel_high p, s.readMailbox_high p⟩, fun _ => rfl⟩
  case port_energy =>
    exact ⟨_, counterLowRead_port_energy s p hp hl, s.keepLatch_frame _ _, s.keepLatch_same _ _ hw,
      fun r c hrc hne => s.keepLatch_key_other _ hw hrc.2 (by omega) hne⟩
  case port_dropped =>
    exact ⟨_, counterLowRead_port_dropped s p hp hl, s.keepLatch_frame _ _, s.keepLatch_same _ _ hw,
      fun r c hrc hne => s.keepLatch_key_other _ hw hrc.2 (by omega) hne⟩
  case cm_energy =>
    exact ⟨_, counterLowRead_cellarmaster_energy s hr, s.keepLatch_frame _ _, s.keepLatch_same _ _ hw,
      fun r c hrc hne => s.keepLatch_key_other _ hw hrc.2 (by omega) hne⟩
  case cm_unit =>
    exact ⟨_, counterLowRead_cellarmaster_unit s u hr hu, s.keepLatch_frame _ _, s.keepLatch_same _ _ hw, fun k hk => s.keepLatch_other _ hw hk⟩

end Sys2Proof.Machine
end

section
/-! Every command answers: a next state where the module has the units that the command names, the refusal noSuchUnit where it does not
(00 R11, 17 R357). -/

namespace Sys2Proof.Machine
open Sys2Proof

/-- What an outcome is for a command whose units exist, or do not: a next state, or the refusal noSuchUnit. -/
def Answers (ok : Bool) (o : Host.Outcome State Fault Refusal) : Prop :=
  (ok = true → ∃ t, o = .next t) ∧ (ok = false → o = .refused .noSuchUnit)

/-- A command that names no unit always goes on. -/
theorem Answers.next (t : State) : Answers true (.next t) := ⟨fun _ => ⟨t, rfl⟩, nofun⟩

/-- A command that refuses in case c and else does what o says. -/
theorem Answers.guard {c : Prop} [Decidable c] {ok ok' : Bool} {o : Host.Outcome State Fault Refusal} (h : ¬c → Answers ok o)
    (hok : ok' = (!decide c && ok)) : Answers ok' (if c then .refused .noSuchUnit else o) := by
  subst hok
  by_cases hc : c
  · simp [Answers, hc]
  · simpa [hc] using h hc

/-- A command that goes on in case c and is refused in every other. -/
theorem Answers.only {c : Prop} [Decidable c] {ok : Bool} {t : State} (hok : ok = decide c) : Answers ok (if c then .next t else .refused .noSuchUnit) := by
  subst hok
  by_cases hc : c <;> simp [Answers, hc]

/-- A command that names one unit by its number. -/
theorem Answers.below (n x : Nat) (t : State) : Answers (decide (x < n)) (if n ≤ x then .refused .noSuchUnit else .next t) :=
  Answers.guard (fun _ => Answers.next t) (by simp only [← decide_not, Nat.not_le, Bool.and_true])
/-- A command that names a unit by two numbers, or two units. -/
theorem Answers.below_below (n x m y : Nat) {o : Host.Outcome State Fault Refusal} (h : x < n → y < m → Answers true o) :
    Answers (decide (x < n) && decide (y < m)) (if n ≤ x ∨ m ≤ y then .refused .noSuchUnit else o) :=
  Answers.guard (fun hc => h (by omega) (by omega)) (by simp only [← decide_not, not_or, Nat.not_le, Bool.decide_and, Bool.and_true])
/-- A command whose units are told by a test. -/
theorem Answers.unless (ok : Bool) {o : Host.Outcome State Fault Refusal} (h : Answers true o) : Answers ok (if !ok then .refused .noSuchUnit else o) :=
  Answers.guard (fun _ => h) (by simp)
/-- Both branches of a choice by the state's own values go on. -/
theorem Answers.either {c : Prop} [Decidable c] {o o' : Host.Outcome State Fault Refusal} (h : Answers true o) (h' : Answers true o') :
    Answers true (if c then o else o') := by
  split
  · exact h
  · exact h'

/- The shared forms of the commands. -/
theorem State.bayOp_answers (s : State) (b : BayId) (wf : Bool) (f : BCtx → BayM → BayM) : Answers b.ok (s.bayOp b wf f) := Answers.only (by simp)
theorem State.onParcel_answers (s : State) (p : Nat) (f : State → State) : Answers (decide (p < 4)) (s.onParcel p f) := Answers.only rfl
theorem State.onField_answers (s : State) (f : Nat) (g : State → State) : Answers (decide (f < 10)) (s.onField f g) := Answers.only rfl
theorem State.onSeam_answers (s : State) (n : Nat) (g : State → State) : Answers (decide (n < 13)) (s.onSeam n g) := Answers.only rfl
theorem State.onPort_answers (s : State) (p : Nat) (g : State → State) : Answers (decide (p < 4)) (s.onPort p g) := Answers.only rfl
theorem State.barWrite_answers (s : State) (p : Nat) (i : Instr) (g : State → State) : Answers (decide (p < 4)) (s.barWrite p i g) := s.onPort_answers p _
theorem State.raiseWrite_answers (s : State) (p : Nat) (i : Instr) (g : State → State) : Answers (decide (p < 4)) (s.raiseWrite p i g) := s.onPort_answers p _
theorem State.deliver_answers (s : State) (rq : Requester) (m : MsgInfo) (p : Nat) (i : Instr) (f : State → State) :
    Answers (requesterOk rq) (s.deliver rq m p i f) := Answers.unless _ (Answers.next _)
theorem State.request_answers (s : State) (rq : Requester) (m : MsgInfo) (p : Nat) (h : Handler) (i : Instr) :
    Answers (requesterOk rq) (s.request rq m p h i) := s.deliver_answers rq m p i _
theorem State.rackIn_answers (s : State) (a : PeerAddr) (h : RackHdr) (type : Nat) (f : RackTo → State → State) :
    Answers (decide (a.tap < 8) && decide (a.sub < 4)) (s.rackIn a h type f) := Answers.below_below _ _ _ _ (fun _ _ => Answers.next _)
theorem State.pourFrameRow_answers (s : State) (p : Nat) (src : PourSource) (frame : Bytes) (type : Nat) :
    Answers (decide (p < 4) && sourceOk src) (s.pourFrameRow p src frame type) := Answers.guard (fun _ => Answers.next _) (by simp [← decide_not])

/- The commands with a form of their own. -/
theorem bundleIssue_answers (b : BayId) (ecc : IssueFound) (pegEcc : Ecc) (s : State) : Answers b.ok (execBundleIssue b ecc pegEcc s) :=
  Answers.unless _ (Answers.either (Answers.next _) (Answers.next _))
theorem lathMessageReceive_answers (node : LathNode) (m : LathMsg) (ecc : List Ecc) (s : State) :
    Answers (lathNodeOk node) (execLathMessageReceive node m ecc s) :=
  Answers.unless _ (Answers.either (Answers.next _) (Answers.next _))
/-- What the MAC passes up from a sub-link that exists is taken, whichever protocol it carries (19 R406, R407). -/
theorem State.rackFrame_answers (s : State) (f : Frame) (ht : f.tap < 8) (hu : f.sub < 4) : Answers true (s.rackFrame f) := by
  have rack := fun h type g => s.rackIn_answers { tap := f.tap, sub := f.sub, ip := f.srcIp, sport := f.srcPort, dport := f.dstPort } h type g
  simp only [ht, hu, decide_true, Bool.and_self] at rack
  unfold State.rackFrame
  refine Answers.either (Answers.next _) ?_
  split <;> exact rack _ _ _
theorem State.udpIn_answers (s : State) (f : Frame) (ht : f.tap < 8) (hu : f.sub < 4) : Answers true (s.udpIn f) := by
  unfold State.udpIn
  split
  · exact Answers.next _
  · exact Answers.either (s.rackFrame_answers f ht hu) (Answers.next _)
theorem State.frameUp_answers (s : State) (f : Frame) (ht : f.tap < 8) (hu : f.sub < 4) : Answers true (s.frameUp f) :=
  Answers.either (Answers.next _) (Answers.either (Answers.next _) (Answers.either (Answers.next _) (Answers.either (Answers.next _) (s.udpIn_answers f ht hu))))
theorem frameReceive_answers (f : Frame) (s : State) : Answers (decide (f.tap < 8) && decide (f.sub < 4)) (execFrameReceive f s) :=
  Answers.below_below _ _ _ _ (fun ht hu =>
    Answers.either (Answers.next _) (Answers.either (Answers.next _) (Answers.either (Answers.next _) (State.frameUp_answers _ f ht hu))))
theorem labelSigned_answers (s : State) : Answers true (execLabelSigned s) := Answers.either (Answers.next _) (Answers.next _)
theorem park_answers (t : ParkTarget) (s : State) : Answers (unitsExist (.park t)) (execPark t s) := by
  cases t with
  | parcel p => dsimp only [unitsExist, execPark]; exact s.onParcel_answers p _
  | fields mask => exact Answers.next _
theorem refLoss_answers (r : Ref) (s : State) : Answers (unitsExist (.refLoss r)) (execRefLoss r s) := by
  cases r with
  | pcie p => dsimp only [unitsExist, execRefLoss]; exact s.onPort_answers p _
  | ref25 | ref156 | oscillator => exact Answers.next _
theorem refRestored_answers (r : Ref) (s : State) : Answers (unitsExist (.refRestored r)) (execRefRestored r s) := by
  cases r with
  | pcie p => dsimp only [unitsExist, execRefRestored]; exact s.onPort_answers p _
  | ref25 | ref156 | oscillator => exact Answers.next _
theorem thermtripN_answers (src : TripSource) (s : State) : Answers (unitsExist (.thermtripN src)) (execThermtripN src s) := by
  cases src with
  | bay | sill | external => dsimp only [unitsExist, execThermtripN]; exact Answers.only (by simp)
theorem crossingOverrun_answers (link : ScarfLink) (sigma : Int) (s : State) :
    Answers (decide (link.line < 12) && decide (link.seam < 13)) (execCrossingOverrun link sigma s) := by
  by_cases hl : link.line < 12
  · simp only [execCrossingOverrun, hl, decide_true, Bool.true_and, if_true]
    exact s.onSeam_answers link.seam _
  · simp [Answers, execCrossingOverrun, hl]
theorem phaseDegraded_answers (field phase : Nat) (s : State) :
    Answers (decide (field < 10) && decide (phase < 24)) (execPhaseDegraded field phase s) :=
  Answers.guard (fun _ => s.onField_answers field _) (by simp only [← decide_not, Nat.not_le, Bool.and_comm])
theorem trimDegraded_answers (field bent slice : Nat) (s : State) :
    Answers (decide (field < 10) && decide (bent < 12) && decide (slice < 14)) (execTrimDegraded field bent slice s) :=
  Answers.guard (fun _ => s.onField_answers field _) (by simp only [← decide_not, not_or, Nat.not_le, Bool.decide_and, Bool.and_assoc, Bool.and_comm])
theorem bentRetired_answers (field bent slice : Nat) (s : State) :
    Answers (decide (field < 10) && decide (bent < 12) && decide (slice < 14)) (execBentRetired field bent slice s) :=
  Answers.guard (fun _ => s.onField_answers field _) (by simp only [← decide_not, not_or, Nat.not_le, Bool.decide_and, Bool.and_assoc, Bool.and_comm])
theorem counterLowRead_answers (r : Reader) (c : CounterName) (s : State) :
    Answers (unitsExist (.counterLowRead r c)) (execCounterLowRead r c s) := by
  cases r with
  | port p => dsimp only [unitsExist, execCounterLowRead]; exact s.onPort_answers p _
  | cellarmaster => cases c with
    | telEnergy | mbxDropped => exact Answers.next _
    | unit u => exact Answers.unless _ (Answers.next _)

/-- Every command answers by its units, whatever the state and its other operands. -/
theorem exec_answers (i : Instr) (s : State) : Answers (unitsExist i) (exec i s) := by
  cases i with
  | loop | peg | endPlan | crush | iset | iseth | istep | ild | qset | qmask | qiter | pegOverdue | lda | ldb | setup | kstep | cellAccumulate | shim
  | drain | drainr | drainRowCapture | taste | tasteRowCompare | mode | clrf | iadd | isub | imul | iand | ior | ixor | ishl | ishr | isra | imin
  | imax | icmpEq | icmpLt | icmpLtu | mov | sel | bcast | movc | fabs | fneg | fadd | fsub | fmul | ffma | fmin | fmax | fcmpEq | fcmpLt | fcmpLe
  | cvtI2f | cvtF2i | cvtUnpack | cvtPack | frcp | fsqrt | frsqrt | fexp | fexp2 | flog | flog2 | ftanh | fsigm | fsilu | fgelus | fgelut | rsum
  | rmax | tclr | tacc | tmac | xsum | tsum | tloadc | tstore | tdrain | cgen | lfrd | lfclr | vld | vst | latheResultLand | vfillPattern | vfillTun
  | vcopy | vmode | vpower | bankSleep | bankWake | crd | cwr | cbw | crdDelivery | gather | scatter | scatterAdd | dotSweep | softblend | digest
  | fill | copy | sillOpResult | send | recv | flitArrive =>
    dsimp only [unitsExist, exec]
    exact s.bayOp_answers _ _ _
  | sysInfo | sysPrincipalMove | parcelCreate | parcelDelete | parcelAssign | parcelPark | parcelResume | parcelStatus | imageLoad | imageUnload
  | imageInfo | caskWindowSet | caskWindowClear | caskRegionClose | caskStaveFail | caskStatus | rackOpen | rackClose | rackStatus | runStart
  | runAbort | runResult | vintageDrawRequest | vintageExport | vintageRestore | vintageStatus | powerCapSet | powerShareSet | powerLeaseSet
  | powerContractSet | powerForecast | powerStatus | powerSidebandSet | soundRun | faultLog | faultSummary | faultLogClear | faultCounters
  | tapConfig | tapKeySet | tapStatus | pourStart | pourStop | pourSubmit | pourCancel | pourStatus | pourLabel | sealAttest | sealCertGet
  | sealLicenceInstall | sealKeysAdd | sealKeysRemove | sealKeysList | sealDebugUnlock | perturbEnable | perturbDisable =>
    dsimp only [unitsExist, exec]
    exact s.request_answers _ _ _ _ _
  | caskTransfer =>
    dsimp only [unitsExist, exec]
    exact s.deliver_answers _ _ _ _ _
  | pourIncompleteTimeout | pourStepStart | pourStepEnd | stopDecision | parcelStop | restart | stopResume | vintageValid | invocationStart
  | invocationComplete | rollback =>
    dsimp only [unitsExist, exec]
    exact s.onParcel_answers _ _
  | raiseStepTimeout | switch | cancel | epochLoad | switchUnlocked | switchAtCount | switched | stretchLocal | stretchWave | fallbackActive
  | verticalDegraded | crackCheck | fieldShort | fieldSupplyLost =>
    dsimp only [unitsExist, exec]
    exact s.onField_answers _ _
  | align | alignCheck =>
    dsimp only [unitsExist, exec]
    exact s.onSeam_answers _ _
  | perstN | flr | bar2Write | bar2Read | bar2ReadTimeout | linkUp | d3hot =>
    dsimp only [unitsExist, exec]
    exact s.onPort_answers _ _
  | registerWrite | trlFastCap | prtFsw | prtInjGo | stagingWindowWrite =>
    dsimp only [unitsExist, exec]
    exact s.barWrite_answers _ _ _
  | claim | verifyFw | startCmst | verifyConfig | raise | unpark | raiseDone =>
    dsimp only [unitsExist, exec]
    exact s.raiseWrite_answers _ _ _
  | readReq | data | sack | credit | fail =>
    dsimp only [unitsExist, exec]
    exact s.rackIn_answers _ _ _ _
  | request | append | cancelFrame | fetch =>
    dsimp only [unitsExist, exec]
    exact s.pourFrameRow_answers _ _ _ _
  | pegtab | micro | cmstReady | fastCapEffect | injection | setEndpointId | hvEnHoldEnd | jtagInstruction | setdasa | sealLockstep
  | entropyHealthFail | ptmExchange | hvEnAssert | hvEnDeassert | plateResetExit | modResetN | inputReturned | inputRestored | rideThroughEnd
  | busCollapse | plateLathLost | trellisControlLoop | trellisReload | forecastPublish | leaseExpired | contractMissed | plan | summaryWrite
  | stretchInjection | inputLoss | insulationCheck =>
    dsimp only [unitsExist, exec]
    exact Answers.next _
  | pegCheck | staveSpared | offer | segmentLanded | rackCreditTimer | rackRerequest | rackBusyRetry | offerResend | pluggablePresence | cmstLockstep
  | converterDegraded | phaseLearn | crushHint | regionDigestDone | restStarved =>
    dsimp only [unitsExist, exec]
    exact Answers.below _ _ _
  | give | segIn | segOut | msg | staveFailing | patrolScrub | tapLinkChange | arpRequest | neighbourSolicitation | echoRequest | slotWrite =>
    dsimp only [unitsExist, exec]
    exact Answers.below_below _ _ _ _ (fun _ _ => Answers.next _)
  | counterSatClear | vatRetentionScrub | planScrub | regExchangeRetry =>
    dsimp only [unitsExist, exec]
    exact Answers.unless _ (Answers.next _)
  | strutInject =>
    dsimp only [unitsExist, exec]
    exact Answers.only (by simp)
  | bundleIssue => exact bundleIssue_answers _ _ _ s
  | lathMessageReceive => exact lathMessageReceive_answers _ _ _ s
  | frameReceive => exact frameReceive_answers _ s
  | labelSigned => exact labelSigned_answers s
  | park => exact park_answers _ s
  | refLoss => exact refLoss_answers _ s
  | refRestored => exact refRestored_answers _ s
  | thermtripN => exact thermtripN_answers _ s
  | crossingOverrun => exact crossingOverrun_answers _ _ s
  | phaseDegraded => exact phaseDegraded_answers _ _ s
  | trimDegraded => exact trimDegraded_answers _ _ _ s
  | bentRetired => exact bentRetired_answers _ _ _ s
  | counterLowRead => exact counterLowRead_answers _ _ s

/-- Settles O60: the two halves of how every command answers. -/
theorem everyCommandCompletes : Obligations.EveryCommandCompletes := by
  unfold Obligations.EveryCommandCompletes
  exact exec_answers

end Sys2Proof.Machine
end

section
/-! What the host ports' commands do, and what they leave alone (17 R351 to R368, 15 R326 to R328, 14 R285). -/

namespace Sys2Proof
variable {α : Type}

/-- A later write of a key takes the place of an earlier one. -/
theorem Sparse.set_setFrom [DecidableEq α] (d : α) : ∀ (m : Sparse α) (lo k : Nat) (v w : α), Sparse.wfFrom d lo m = true →
    Sparse.set d (Sparse.set d m k v) k w = Sparse.set d m k w
  | [], _, k, v, w, _ => by by_cases hv : v = d <;> simp [Sparse.set, hv]
  | (a, u) :: r, lo, k, v, w, h => by
    simp only [Sparse.wfFrom, Bool.and_eq_true] at h
    have hr : Sparse.wfFrom d (a + 1) r = true := h.2
    rcases Nat.lt_trichotomy k a with hk | hk | hk
    · by_cases hv : v = d <;> simp [Sparse.set, hk, hv]
    · subst hk
      by_cases hv : v = d
      · simp only [Sparse.set, hv, lt_irrefl, if_false, if_true]
        cases r with
        | nil => simp [Sparse.set]
        | cons e r =>
          simp only [Sparse.wfFrom, Bool.and_eq_true, decide_eq_true_eq] at hr
          have he : k < e.1 := hr.1.1
          simp [Sparse.set, he]
      · simp [Sparse.set, hv]
    · have hne : k ≠ a := by omega
      have hlt : ¬k < a := by omega
      simp only [Sparse.set, hne, hlt, if_false, Sparse.set_setFrom d r (a + 1) k v w hr]
theorem Sparse.set_set [DecidableEq α] (d : α) (m : Sparse α) (k : Nat) (v w : α) (h : Sparse.wf d m = true) :
    Sparse.set d (Sparse.set d m k v) k w = Sparse.set d m k w := Sparse.set_setFrom d m 0 k v w h

/-- Writing what a key reads as changes nothing. -/
theorem Sparse.set_getFrom [DecidableEq α] (d : α) : ∀ (m : Sparse α) (lo k : Nat), Sparse.wfFrom d lo m = true →
    Sparse.set d m k (Sparse.get d m k) = m
  | [], _, _, _ => by simp [Sparse.set, Sparse.get]
  | (a, u) :: r, lo, k, h => by
    simp only [Sparse.wfFrom, Bool.and_eq_true, Bool.not_eq_true', decide_eq_false_iff_not] at h
    obtain ⟨⟨_, hu⟩, hr⟩ := h
    rcases Nat.lt_trichotomy k a with hk | hk | hk
    · simp [Sparse.set, Sparse.get, hk]
    · subst hk; simp [Sparse.set, Sparse.get, hu]
    · have hne : k ≠ a := by omega
      have hlt : ¬k < a := by omega
      simp only [Sparse.set, Sparse.get, hne, hlt, if_false, Sparse.set_getFrom d r (a + 1) k hr]
theorem Sparse.set_get [DecidableEq α] (d : α) (m : Sparse α) (k : Nat) (h : Sparse.wf d m = true) :
    Sparse.set d m k (Sparse.get d m k) = m := Sparse.set_getFrom d m 0 k h

end Sys2Proof

namespace Sys2Proof.Machine
open Sys2Proof

/- Reading a port after a change of it. -/
theorem State.port_modPort (s : State) (p : Nat) (g : Port → Port) (h : Sparse.wf Port.init s.ports = true) (k : Nat) :
    (s.modPort p g).port k = if k = p then g (s.port p) else s.port k := s.port_setPort p _ h k
theorem State.port_modPort_same (s : State) (p : Nat) (g : Port → Port) (h : Sparse.wf Port.init s.ports = true) :
    (s.modPort p g).port p = g (s.port p) := by rw [s.port_modPort p g h, if_pos rfl]
/-- Two changes of one port are one. -/
theorem State.modPort_modPort (s : State) (p : Nat) (g g' : Port → Port) (h : Sparse.wf Port.init s.ports = true) :
    (s.modPort p g).modPort p g' = s.modPort p (fun q => g' (g q)) := by
  rw [State.modPort, s.port_modPort_same p g h]
  simp only [State.modPort, State.setPort, Sparse.set_set Port.init s.ports p _ _ h]
/-- A change that gives a port the value it has changes nothing. -/
theorem State.modPort_id (s : State) (p : Nat) (g : Port → Port) (h : Sparse.wf Port.init s.ports = true) (hg : g (s.port p) = s.port p) :
    s.modPort p g = s := by
  rw [State.modPort, hg]
  simp only [State.setPort, State.port, Sparse.set_get Port.init s.ports p h]
/-- Two changes that agree on the port's value are the same. -/
theorem State.modPort_congr (s : State) (p : Nat) {g g' : Port → Port} (hg : g (s.port p) = g' (s.port p)) : s.modPort p g = s.modPort p g' := by
  rw [State.modPort, State.modPort, hg]

/-- From s to t every port keeps the reads that wait for the gateway. -/
def State.ReadsKept (s t : State) : Prop :=
  Sparse.wf Port.init s.ports = true → Sparse.wf Port.init t.ports = true ∧ ∀ k, (t.port k).reads = (s.port k).reads

namespace State.ReadsKept

theorem refl (s : State) : s.ReadsKept s := fun h => ⟨h, fun _ => rfl⟩
theorem trans {s t u : State} (h : s.ReadsKept t) (h' : t.ReadsKept u) : s.ReadsKept u := fun hw =>
  have ht := h hw
  have hu := h' ht.1
  ⟨hu.1, fun k => (hu.2 k).trans (ht.2 k)⟩
/-- What leaves the ports alone keeps them. -/
theorem of_ports {s t : State} (h : t.ports = s.ports) : s.ReadsKept t := fun hw => ⟨by rw [h]; exact hw, fun k => by simp only [State.port, h]⟩
theorem foldl {β : Type} (f : State → β → State) (hf : ∀ (u : State) x, u.ReadsKept (f u x)) : ∀ (l : List β) (s : State), s.ReadsKept (l.foldl f s)
  | [], s => refl s
  | x :: l, s => (hf s x).trans (foldl f hf l (f s x))
/-- So does a change of a port's other fields. -/
theorem modPort (s : State) (p : Nat) (g : Port → Port) (hg : ∀ q, (g q).reads = q.reads) : s.ReadsKept (s.modPort p g) := fun hw =>
  ⟨Sparse.wf_set _ _ _ _ hw, fun k => by
    rw [s.port_modPort p g hw]
    split
    · next hk => rw [hg, hk]
    · rfl⟩
theorem emitPort (s : State) (p : Nat) (o : OutEv) : s.ReadsKept (s.emitPort p o) := by
  unfold State.emitPort
  split
  · exact modPort s p _ (fun _ => rfl)
  · exact of_ports rfl
theorem vector (s : State) (p v : Nat) : s.ReadsKept (s.vector p v) := by
  simp only [State.vector]
  split
  · exact modPort s p _ (fun _ => rfl)
  · exact emitPort s p _
theorem event (s : State) (p k : Nat) : s.ReadsKept (s.event p k) := by
  simp only [State.event]
  split
  · exact refl s
  · split
    · exact trans (modPort s p (fun q => { q with evtPend := q.evtPend ||| BitVec.ofNat 16 (2 ^ k) }) (fun _ => rfl)) (vector _ p _)
    · exact modPort s p _ (fun _ => rfl)
theorem logEntry (s : State) (r : Report) (sec : Bool) : s.ReadsKept (s.logEntry r sec) := by
  have hlog : ∀ l : FaultLog, s.ReadsKept { s with flog := l } := fun _ => of_ports rfl
  simp only [State.logEntry]
  split
  · exact (hlog _).trans (event _ _ 0)
  · exact (hlog _).trans (foldl _ (fun u p => event u p 0) _ _)
/-- A report's event and its log entry leave the reads alone. -/
theorem report (s : State) (r : Report) : s.ReadsKept (s.report r) := by
  have plain := fun sec => logEntry s r sec
  unfold State.report
  split
  · split
    · split
      · split
        · exact plain true
        · exact (plain false).trans (of_ports rfl)
      · exact plain false
    · exact plain false
  · exact plain false
theorem touchRegion (s : State) (c : Nat) (r : Region) : s.ReadsKept (s.touchRegion c r) := by
  have clear : ∀ (u : State) (p : Nat), u.ReadsKept (u.clearResident p) := fun u p =>
    foldl _ (fun v b => by dsimp only; split <;> exact of_ports rfl) _ u
  simp only [State.touchRegion]
  split
  · split
    · split
      · exact .trans (of_ports (by rfl)) (clear _ _)
      · exact of_ports rfl
    · exact of_ports rfl
  · exact refl s
theorem beatsMet (s : State) (c off count : Nat) (beats : List Ecc) : s.ReadsKept (s.beatsMet c off count beats) := by
  simp only [State.beatsMet]
  split
  · exact of_ports rfl
  · refine .trans ?_ (report _ _)
    exact of_ports rfl
theorem gwBeats (s : State) (c : Nat) (r : Region) (off len : Nat) (beats : List Ecc) : s.ReadsKept (s.gwBeats c r off len beats) := by
  have met : ∀ (ok : Bool) (u : State) (o : Nat) (bs : List Ecc), u.ReadsKept (if ok then u else u.beatsMet c o 0 bs) := fun ok u o bs => by
    cases ok
    · exact beatsMet u c o 0 bs
    · exact refl u
  refine foldl _ (fun u e => ?_) _ s
  dsimp only
  split
  · exact (met _ u _ _).trans (of_ports rfl)
  · exact met _ u _ _
/-- A gateway write moves no read. -/
theorem gwWrite {s t : State} {c off : Nat} {data : Bytes} {landNow : Bool} {beats : List Ecc} (h : s.gwWrite c off data landNow beats = some t) :
    s.ReadsKept t := by
  have landed : ∀ (u : State) (n : Nat), u.ReadsKept (u.landed c off n) := fun u n => by
    unfold State.landed; split <;> exact of_ports rfl
  unfold State.gwWrite at h
  split at h
  · split at h
    · cases h
      have stored := fun r => ((touchRegion s c r).trans (of_ports rfl)).trans (gwBeats ((s.touchRegion c r).modCask c (fun x => x.putBytes r off data)) c r off data.length beats)
      split
      · exact (stored _).trans (landed _ _)
      · exact stored _
    · cases h
  · cases h

end State.ReadsKept

end Sys2Proof.Machine
end

section
/-! The rows of the host ports, clause by clause (17 R351 to R368, 15 R326 to R328, 14 R285, R303). -/

namespace Sys2Proof.Machine
open Sys2Proof

/- Port resets (17 R368). -/
theorem exec_perstN (s : State) (port : Nat) (k : PortReset) (hp : port < 4) :
    exec (.perstN port k) s = .next (if k = .perst then (s.portDown port).modPort port (fun q => { q with perst := true }) else s.portDown port) := by
  change execPerstN port k s = _
  simp only [execPerstN, State.onPort, if_pos hp]
theorem exec_flr (s : State) (port : Nat) (hp : port < 4) :
    exec (.flr port) s = .next (if s.portLive port then s.portClear port else s) := by
  change execFlr port s = _
  simp only [execFlr, State.onPort, if_pos hp]

/-- No write of a port that does not decode its BARs waits. -/
theorem State.writeHeld_dead (s : State) (p : Nat) (h : s.portLive p = false) : s.writeHeld p = false := by
  simp only [State.writeHeld, h, Bool.and_false, Bool.false_and]

/- Writes of slots, GIVE and registers (17 R357, R358, 00 R5). -/
theorem exec_slotWrite (s : State) (port n off : Nat) (bs : Bytes) (hp : port < 4) (hn : n < 64) :
    exec (.slotWrite port n off bs) s = .next (if s.writeHeld port then s.holdWrite port (.slotWrite port n off bs)
      else if s.portLive port && decide (off < 4096) then s.slotPut port n off bs else s) := by
  have hu : ¬(4 ≤ port ∨ 64 ≤ n) := by omega
  change execSlotWrite port n off bs s = _
  simp only [execSlotWrite, if_neg hu]
theorem exec_give (s : State) (port n : Nat) (hm : List (Nat × Byte)) (hp : port < 4) (hn : n < 64) (hl : s.portLive port = true) :
    exec (.give port n hm) s = .next (if s.writeHeld port then s.holdWrite port (.give port n hm) else s.giveSlot port n hm) := by
  have hu : ¬(4 ≤ port ∨ 64 ≤ n) := by omega
  change execGive port n hm s = _
  simp only [execGive, if_neg hu, hl, Bool.not_true, Bool.false_eq_true, if_false]
theorem exec_registerWrite (s : State) (port off : Nat) (v : Word) (hp : port < 4) :
    exec (.registerWrite port off v) s = .next (if s.writeHeld port then s.holdWrite port (.registerWrite port off v)
      else if s.portLive port && decide (off % 4 = 0) then s.writeReg port off v else s) := by
  change execRegisterWrite port off v s = _
  simp only [execRegisterWrite, State.barWrite, State.onPort, if_pos hp]
/-- TEL_PORT_ERR is a register of RW1C bits (17 R353). -/
theorem State.writeReg_err (s : State) (port : Nat) (v : Word) : s.writeReg port 8 v = s.modPort port (fun q => { q with err := q.err &&& ~~~(v.setWidth 5) }) := rfl

/-- GIVE takes a slot that the host owns (17 R357). -/
theorem State.takeSlot_host (s : State) (p n : Nat) (hd : s.raising.done = true) (ho : (s.port p).own.getLsbD n = false) :
    s.takeSlot p n = (s.modPort p (fun q => { q with own := q.own ||| BitVec.ofNat 64 (2 ^ n) }), true) := by
  simp [State.takeSlot, hd, ho]

/- The entries of a list (17 R362). -/
theorem exec_msg (s : State) (port n : Nat) (e : CutEntry) (hp : port < 4) (hn : n < 64) (hl : s.portLive port = true) (hd : s.raising.done = true) :
    exec (.msg port n e) s = .next (s.runEntry port n e).1 := by
  have hu : ¬(4 ≤ port ∨ 64 ≤ n) := by omega
  change execMsg port n e s = _
  simp only [execMsg, if_neg hu, hl, hd, Bool.and_self, if_true]

section
variable (s : State) (port p : Nat) (e : CutEntry)

/-- A port that runs moves data for a parcel that it owns. -/
theorem State.entryLive_owner (hl : s.portLive port = true) (hd : s.raising.done = true) (hv : (s.parcel p).live = true) (ho : (s.parcel p).owner = port) :
    s.entryLive port p = true := by
  simp [State.entryLive, hl, hd, hv, ho]
theorem exec_segIn (hp : port < 4) (hq : p < 4) (hv : s.entryLive port p = true) (hh : s.entryHeld p e = false) :
    exec (.segIn port p e) s = .next (State.entryEnds (s.segIn p e) port e) := by
  have hu : ¬(4 ≤ port ∨ 4 ≤ p) := by omega
  change execSegIn port p e s = _
  simp only [execSegIn, if_neg hu, hv, hh, Bool.not_true, Bool.or_self, Bool.false_eq_true, if_false]
theorem exec_segOut (hp : port < 4) (hq : p < 4) (hv : s.entryLive port p = true) (hh : s.entryHeld p e = false) :
    exec (.segOut port p e) s = .next (State.entryEnds (s.segOut port p e) port e) := by
  have hu : ¬(4 ≤ port ∨ 4 ≤ p) := by omega
  change execSegOut port p e s = _
  simp only [execSegOut, if_neg hu, hv, hh, Bool.not_true, Bool.or_self, Bool.false_eq_true, if_false]

/-- A well-formed entry moves its bytes where the gateway writes or reads them. -/
theorem State.segIn_moves {t : State} {c : Nat} (hc : cutOk e false = true) (hm : e.dmaOk = true) (ha : (s.parcel p).absCask (daddrCask e.daddr) = some c)
    (hk : e.kind = 1#8) (hw : s.gwWrite c (daddrOff e.daddr) ((e.data ++ zeroBytes e.len).take e.len) true e.beats = some t) :
    s.segIn p e = (t, 0, e.len) := by
  simp [State.segIn, hc, hm, ha, hk, hw]
theorem State.segOut_moves {bs : Bytes} {c : Nat} (hc : cutOk e false = true) (hm : e.dmaOk = true)
    (ha : (s.parcel p).absCask (daddrCask e.daddr) = some c) (hk : e.kind = 2#8) (hr : s.gwRead c (daddrOff e.daddr) e.len = some (bs, false)) :
    s.segOut port p e = (s.emitPort port (.dmaWrite port e.haddr bs), 0, e.len) := by
  simp [State.segOut, hc, hm, ha, hk, hr]
/-- An entry with a reserved bit set ends with E_CUT_FORM and moves nothing. -/
theorem State.segIn_reserved (hr : e.rsvZero = false) : s.segIn p e = (s, 0x0E06, 0) := by
  simp [State.segIn, cutOk, hr]
end

/- BAR2 (17 R354 to R356). -/

/-- An access that stays in one page has one part. -/
theorem pageParts_one (off len : Nat) (h0 : 0 < len) (h : off % gib + len ≤ gib) : pageParts off len = [(off, len)] := by
  have hk : min len (gib - off % gib) = len := by omega
  have hz : len ≠ 0 := by omega
  simp [pageParts, hk, hz]

/-- An empty buffer has room for every write (R355). -/
theorem State.postedFull_empty (s : State) (port len : Nat) (h : (s.port port).posted = []) : s.postedFull port len = false := by
  simp [State.postedFull, h]

theorem exec_bar2Write_full (s : State) (port off : Nat) (d : HostWrite) (hp : port < 4) (hl : s.portLive port = true) (hr : off + d.data.length ≤ 256 * gib)
    (hw : s.writeHeld port = true ∨ s.postedFull port d.data.length = true) :
    exec (.bar2Write port off d) s = .next (s.holdWrite port (.bar2Write port off d)) := by
  have hr' : ¬256 * gib < off + d.data.length := by omega
  change execBar2Write port off d s = _
  simp only [execBar2Write, State.onPort, if_pos hp, hl, hr']
  rcases hw with hw | hw <;> simp [hw]

/-- Where an offset leads does not depend on what waits for the gateway. -/
theorem State.bar2At_modPort (s : State) (port off : Nat) (g : Port → Port) (hg : ∀ q, (g q).win = q.win) (hw : Sparse.wf Port.init s.ports = true) :
    (s.modPort port g).bar2At port off = s.bar2At port off := by
  simp only [State.bar2At, s.port_modPort_same port g hw, hg, State.modPort_parcel]

/-- With no read waiting, and with a posted write before them, a port's reads do nothing (R356). -/
theorem State.portReads_none (s : State) (port : Nat) (h : (s.port port).reads = []) : s.portReads port = s := by
  simp [State.portReads, h]
theorem State.portReads_behind (s : State) (port : Nat) (h : (s.port port).posted ≠ []) : s.portReads port = s := by
  simp [State.portReads, h]
/-- A write to a mapped cask that the gateway performs. -/
theorem State.bar2Put_mapped {s t : State} {port off c o : Nat} {bs : Bytes} {beats : List Ecc} (ha : s.bar2At port off = some (some c, o))
    (hw : s.gwWrite c o bs true beats = some t) : s.bar2Put port off bs beats = t := by
  simp [State.bar2Put, ha, hw]
theorem State.bar2Held_mapped {s : State} {port off c o : Nat} (ha : s.bar2At port off = some (some c, o)) : s.bar2Held port off = !s.gwOpen c := by
  simp [State.bar2Held, ha]

end Sys2Proof.Machine
end

section
/-! BAR2 (17 R354 to R356), continued: an access with nothing before it, served at once or kept until its cask is open. -/

namespace Sys2Proof.Machine
open Sys2Proof

/-- The state in which one write of a port has been posted. -/
def State.posting (s : State) (port : Nat) (w : Nat × Bytes × List Ecc) : State := s.modPort port (fun q => { q with posted := [w] })
/-- The state in which these reads of a port wait. -/
def State.readsWait (s : State) (port : Nat) (rs : List (Nat × Nat)) : State := s.modPort port (fun q => { q with reads := rs })
/-- The state with another order of arrival at the gateway. -/
def State.ordered (s : State) (ps : List Nat) : State := { s with gwOrder := ps }

@[simp] theorem State.ordered_port (s : State) (ps : List Nat) (k : Nat) : (s.ordered ps).port k = s.port k := rfl
theorem State.ordered_self (s : State) {ps : List Nat} (h : s.gwOrder = ps) : s.ordered ps = s := by subst h; rfl

/- Reading a port back in these states. -/
section
variable (s : State) (port : Nat) (w : Nat × Bytes × List Ecc) (rs : List (Nat × Nat)) (hw : Sparse.wf Port.init s.ports = true)
include hw
theorem State.posting_wf : Sparse.wf Port.init (s.posting port w).ports = true := Sparse.wf_set _ _ _ _ hw
theorem State.posting_posted : ((s.posting port w).port port).posted = [w] := by rw [State.posting, s.port_modPort_same port _ hw]
theorem State.posting_reads : ((s.posting port w).port port).reads = (s.port port).reads := by rw [State.posting, s.port_modPort_same port _ hw]
theorem State.posting_bar2At (off : Nat) : (s.posting port w).bar2At port off = s.bar2At port off :=
  s.bar2At_modPort port off (fun q => { q with posted := [w] }) (fun _ => rfl) hw
theorem State.readsWait_port : (s.readsWait port rs).port port = { s.port port with reads := rs } := by
  rw [State.readsWait, s.port_modPort_same port _ hw]
theorem State.readsWait_readsWait (rs' : List (Nat × Nat)) : (s.readsWait port rs).readsWait port rs' = s.readsWait port rs' := by
  rw [State.readsWait, State.readsWait, s.modPort_modPort port _ _ hw]; rfl
theorem State.readsWait_self (h : (s.port port).reads = rs) : s.readsWait port rs = s := by
  rw [State.readsWait, s.modPort_id port _ hw (by rw [← h])]
end
@[simp] theorem State.posting_gwOpen (s : State) (port : Nat) (w : Nat × Bytes × List Ecc) (c : Nat) : (s.posting port w).gwOpen c = s.gwOpen c := rfl

/-- A write that stays in one page joins the gateway's buffer (R355, R356). -/
theorem exec_bar2Write_alone (s : State) (port off : Nat) (bs : Bytes) (beats : List Ecc) (hp : port < 4) (hl : s.portLive port = true)
    (hh : s.writeHeld port = false) (hposted : (s.port port).posted = []) (horder : s.gwOrder = []) (h0 : bs ≠ []) (hpage : off % gib + bs.length ≤ gib)
    (hr : off + bs.length ≤ 256 * gib) :
    exec (.bar2Write port off { data := bs, beats := beats }) s = .next (((s.posting port (off, bs, beats)).ordered [port]).portServe port) := by
  have hr' : ¬256 * gib < off + bs.length := by omega
  have hone := pageParts_one off bs.length (List.length_pos_iff.mpr h0) hpage
  have hpost : s.modPort port (fun q => { q with posted := q.posted ++ [(off, bs, beats)] }) = s.posting port (off, bs, beats) :=
    s.modPort_congr port (by simp only [hposted, List.nil_append])
  change execBar2Write port off { data := bs, beats := beats } s = _
  simp [execBar2Write, State.onPort, hp, hl, hh, hr', s.postedFull_empty port _ hposted, hone, hpost, horder, State.ordered]

/-- A read that stays in one page joins the reads that wait (R355). -/
theorem exec_bar2Read_alone (s : State) (port off n : Nat) (hp : port < 4) (hl : s.portLive port = true) (hreads : (s.port port).reads = [])
    (h0 : 0 < n) (hpage : off % gib + n ≤ gib) (hr : off + n ≤ 256 * gib) :
    exec (.bar2Read port off n) s = .next ((s.readsWait port [(off, n)]).portServe port) := by
  have hr' : ¬256 * gib < off + n := by omega
  have hread : s.modPort port (fun q => { q with reads := q.reads ++ [(off, n)] }) = s.readsWait port [(off, n)] :=
    s.modPort_congr port (by simp only [hreads, List.nil_append])
  change execBar2Read port off n s = _
  simp [execBar2Read, State.onPort, hp, hl, hr', pageParts_one off n h0 hpage, hread]

/-- The only write of the buffer goes out when its cask is open, and stays first when it is not (R356). -/
theorem State.servePosted_one (s : State) (port : Nat) (w : Nat × Bytes × List Ecc) (hposted : (s.port port).posted = [w]) :
    (s.ordered [port]).servePosted = if s.bar2Held port w.1 then s.ordered [port]
      else ((s.ordered []).modPort port (fun q => { q with posted := [] })).bar2Put port w.1 w.2.1 w.2.2 := by
  have hserve : (s.ordered [port]).servePosted = State.serveWrites [port] [] (s.ordered []) := rfl
  rw [hserve, State.serveWrites, State.ordered_port, hposted]
  rfl
theorem State.servePosted_empty (s : State) (horder : s.gwOrder = []) : s.servePosted = s := by
  rw [State.servePosted, horder, State.serveWrites]
  exact s.ordered_self horder

section
variable (s : State) (port : Nat) (hw : Sparse.wf Port.init s.ports = true) (horder : s.gwOrder = [])
include hw

include horder in
/-- A posted write whose cask is open is performed at once; the port's reads are as they were. -/
theorem State.portServe_posting_open {off c o : Nat} {bs : Bytes} {beats : List Ecc} {t : State} (hreads : (s.port port).reads = [])
    (ha : s.bar2At port off = some (some c, o)) (ho : s.gwOpen c = true)
    (ht : ((s.posting port (off, bs, beats)).modPort port (fun q => { q with posted := [] })).gwWrite c o bs true beats = some t) :
    ((s.posting port (off, bs, beats)).ordered [port]).portServe port = t := by
  have hat : (s.posting port (off, bs, beats)).bar2At port off = some (some c, o) := (s.posting_bar2At port _ hw off).trans ha
  have hu := s.posting_wf port (off, bs, beats) hw
  have hserved : ((s.posting port (off, bs, beats)).ordered [port]).servePosted = t := by
    rw [State.servePosted_one _ port _ (s.posting_posted port _ hw), State.bar2Held_mapped hat, State.posting_gwOpen, ho,
      Bool.not_true, if_neg Bool.false_ne_true, State.ordered_self (s.posting port (off, bs, beats)) horder]
    exact State.bar2Put_mapped ((State.bar2At_modPort _ port off (fun q => { q with posted := [] }) (fun _ => rfl) hu).trans hat) ht
  have hkept : (t.port port).reads = [] := by
    have hreach := State.ReadsKept.trans (.modPort (s.posting port (off, bs, beats)) port (fun q => { q with posted := [] }) (fun _ => rfl)) (.gwWrite ht)
    rw [(hreach hu).2 port, s.posting_reads port _ hw, hreads]
  rw [State.portServe, hserved, t.portReads_none port hkept]

/-- One whose cask is closed waits in the buffer (R355). -/
theorem State.portServe_posting_closed {off c o : Nat} {bs : Bytes} {beats : List Ecc} (ha : s.bar2At port off = some (some c, o)) (ho : s.gwOpen c = false) :
    ((s.posting port (off, bs, beats)).ordered [port]).portServe port = (s.posting port (off, bs, beats)).ordered [port] := by
  have hposted := s.posting_posted port (off, bs, beats) hw
  have hat : (s.posting port (off, bs, beats)).bar2At port off = some (some c, o) := (s.posting_bar2At port _ hw off).trans ha
  rw [State.portServe, State.servePosted_one _ port _ hposted, State.bar2Held_mapped hat, State.posting_gwOpen, ho,
    Bool.not_false, if_pos rfl]
  exact State.portReads_behind _ port (by rw [State.ordered_port, hposted]; exact List.cons_ne_nil _ _)

include horder in
/-- A read with nothing before it is served at once, unless its cask is closed: then it waits (R355, R356). -/
theorem State.portServe_reading {off n : Nat} (hposted : (s.port port).posted = []) (hreads : (s.port port).reads = []) (hcred : s.noCredits port = false) :
    (s.readsWait port [(off, n)]).portServe port = if s.bar2Held port off then s.readsWait port [(off, n)] else s.bar2Get port off n := by
  have hcred' : (s.readsWait port [(off, n)]).noCredits port = false := hcred
  have hback : (s.readsWait port [(off, n)]).modPort port (fun q => { q with reads := [] }) = s :=
    (s.readsWait_readsWait port _ hw []).trans (s.readsWait_self port [] hw hreads)
  have hagain : s.modPort port (fun q => { q with reads := q.reads ++ [(off, n)] }) = s.readsWait port [(off, n)] :=
    s.modPort_congr port (by simp only [hreads, List.nil_append])
  rw [State.portServe, State.servePosted_empty (s.readsWait port [(off, n)]) horder, State.portReads, s.readsWait_port port _ hw]
  simp only [hposted, hcred', List.isEmpty_nil, List.isEmpty_cons, Bool.not_false, Bool.and_self, if_true, State.serveReads, hback, hagain]
end

theorem State.bar2Held_unmapped {s : State} {port off : Nat} (ha : s.bar2At port off = none) : s.bar2Held port off = false := by
  simp [State.bar2Held, ha]
/-- What a read of one page gives: its bytes, or Unsupported Request where no page is mapped (R354, R355). -/
theorem State.bar2Get_mapped {s : State} {port off n c o : Nat} {bs : Bytes} (ha : s.bar2At port off = some (some c, o)) (hr : s.gwRead c o n = some (bs, false)) :
    s.bar2Get port off n = s.emit (.readData port bs false) := by
  simp [State.bar2Get, ha, hr]
theorem State.bar2Get_unmapped {s : State} {port off n : Nat} (ha : s.bar2At port off = none) :
    s.bar2Get port off n = (s.modPort port (fun q => { q with err := q.err ||| 1#5 })).emit (.unsupported port) := by
  simp only [State.bar2Get, ha]; rfl

/-- The timeout of a read that waits ends it with Completer Abort; one that has been served has none (R355). -/
theorem exec_bar2ReadTimeout (s : State) (port off n : Nat) (hp : port < 4) (hl : s.portLive port = true) :
    exec (.bar2ReadTimeout port off n) s = .next (if (s.port port).reads.contains (off, n) then
      ((s.modPort port (fun q => { q with reads := q.reads.erase (off, n) })).portErr port 2).emit (.completerAbort port) else s) := by
  change execBar2ReadTimeout port off n s = _
  simp only [execBar2ReadTimeout, State.onPort, if_pos hp, hl, Bool.true_and]

end Sys2Proof.Machine
end

section
/-! The fast cap and the perturbation block (14 R285, R303, 15 R326 to R328), and the statement about the host ports' commands. -/

namespace Sys2Proof.Machine
open Sys2Proof

/-- A write of a field leaves the bits outside its mask (00 R5). -/
theorem rwField_bit_outside (old w : Word) (hi lo i : Nat) (ok : Nat → Bool) (h : (maskBits hi lo).getLsbD i = false) (hlt : i < 32) :
    (rwField old w hi lo ok).getLsbD i = old.getLsbD i := by
  unfold rwField
  split
  · simp only [BitVec.getLsbD_or, BitVec.getLsbD_and, BitVec.getLsbD_not, h, hlt, decide_true, Bool.not_false, Bool.and_true, Bool.and_false, Bool.or_false]
  · rfl
/-- A field with no reserved encoding takes the bits written (00 R5, R6). -/
theorem rwField_bit_inside (old w : Word) (hi lo i : Nat) (h : (maskBits hi lo).getLsbD i = true) :
    (rwField old w hi lo anyVal).getLsbD i = w.getLsbD i := by
  simp [rwField, anyVal, h]

/-- A write of TRL_FAST_CAP with EN takes effect 100 µs later (14 R285). -/
theorem State.writeFastCap_enabled (s : State) (v : Word) (hv : v.getLsbD 31 = true) :
    (s.writeFastCap v).trellis.fastDue = some (s.tNs + 100000) ∧ (s.writeFastCap v).trellis.fastActive = s.trellis.fastActive := by
  have hen : (rwField (rwField s.trellis.fastCap v 31 31 anyVal) v 15 0 (fun x => decide (x = 0) || decide (900 ≤ x))).getLsbD 31 = true := by
    rw [rwField_bit_outside _ _ _ _ _ _ (by decide) (by decide), rwField_bit_inside _ _ _ _ _ (by decide), hv]
  simp only [State.writeFastCap, hen, if_true]
  exact ⟨rfl, rfl⟩

theorem exec_trlFastCap (s : State) (port : Nat) (v : Word) (hp : port < 4) (hl : s.portLive port = true) (hh : s.writeHeld port = false)
    (ho : s.raising.owner = some port) : exec (.trlFastCap port v) s = .next (s.writeFastCap v) := by
  have hown : s.isPrincipal port = true := by simp [State.isPrincipal, ho]
  change execTrlFastCap port v s = _
  simp only [execTrlFastCap, s.barWrite_free port _ _ hp hh, hl, hown, Bool.and_self, if_true]
theorem exec_fastCapEffect (s : State) {n : Nat} (hd : s.trellis.fastDue = some n) :
    exec .fastCapEffect s = .next { s with trellis := { s.trellis with fastActive := s.trellis.fastCap, fastDue := none } } := by
  change execFastCapEffect s = _
  simp only [execFastCapEffect, hd]; rfl

/- The perturbation block: the principal's writes and those of the owner of the parcel it names act, and no other's (15 R326). -/
theorem exec_prtFsw (s : State) (port : Nat) (v : Word) (hp : port < 4) (hl : s.portLive port = true) (hh : s.writeHeld port = false) :
    exec (.prtFsw port v) s = .next (if s.prtWriter port s.prt.parcel then s.writeFsw v else s) := by
  change execPrtFsw port v s = _
  simp only [execPrtFsw, s.barWrite_free port _ _ hp hh, hl, Bool.true_and]
theorem exec_prtInjGo (s : State) (port : Nat) (v : Word) (hp : port < 4) (hl : s.portLive port = true) (hh : s.writeHeld port = false) :
    exec (.prtInjGo port v) s = .next (if s.prtWriter port s.prt.parcel then s.writeInjCtrl v else s) := by
  change execPrtInjGo port v s = _
  simp only [execPrtInjGo, s.barWrite_free port _ _ hp hh, hl, Bool.true_and]
/-- GO arms an injection for an armed parcel in test mode (15 R328). -/
theorem State.writeInjCtrl_go (s : State) (v : Word) (hv : v.getLsbD 31 = true) (hf : s.prtFor s.prt.parcel = true) :
    (s.writeInjCtrl v).prt.armed = some { pegSeen := false } := by
  have hf' : (s.modPrt (fun t => t.writeInj v)).prtFor (s.modPrt (fun t => t.writeInj v)).prt.parcel = true := hf
  simp only [State.writeInjCtrl, hv, hf', Bool.and_self, if_true]; rfl

/-- With nothing armed no injection comes (15 R326). -/
theorem exec_injection_none (s : State) (h : s.prt.armed = none) : exec .injection s = .next s := by
  change execInjection s = _
  simp only [execInjection, h]
/-- One flipped bit of a vat's word waits in its bank for the next access, and the injection is over (15 R328). -/
theorem exec_injection_vat (s : State) {a : _} {b : BayId} (ha : s.prt.armed = some a) (hs : a.pegSeen = true) (hf : s.prtFor s.prt.parcel = true)
    (hr : (s.parcel s.prt.parcel).running = true) (hb : b = (s.parcel s.prt.parcel).bayAt (fieldBits s.prt.injTgt 27 22) (fieldBits s.prt.injTgt 21 17))
    (hok : b.ok = true) (hh : (s.parcel s.prt.parcel).holds (fieldOf b) = true) (hunit : fieldBits s.prt.injTgt 31 28 = 0)
    (hn : fieldBits s.prt.injCtrl 29 28 = 1) (hper : s.prt.injCtrl.getLsbD 30 = false) :
    exec .injection s = .next ((s.modPrt (fun t => { t.flag 6 with armed := none })).modBay b
      (fun x => { x with vat := { x.vat with inject := some (fieldBits s.prt.injTgt 16 11, 2) } })) := by
  subst hb
  have hstate : s.modPrt (fun t => { t.flag 6 with armed := if t.injCtrl.getLsbD 30 then t.armed else none }) =
      s.modPrt (fun t => { t.flag 6 with armed := none }) := by
    simp only [State.modPrt, hper, Bool.false_eq_true, if_false]
  change execInjection s = _
  simp only [execInjection, ha, hs, hf, hr, hok, hh, hunit, hn, hstate, State.injectOne]
  simp

/-- Settles O49: clause by clause, what the row of each command does. -/
theorem hostPortCommands : Obligations.HostPortCommands := by
  unfold Obligations.HostPortCommands
  intro s port hp
  refine ⟨fun k => exec_perstN s port k hp, fun hl => ⟨?flr_dead, fun off v => ?write_dead⟩, fun hl hh => ⟨fun n off bs hn => ?held_slot, fun n hm hn => ?held_give,
    fun off d hr => ?held_bar2, fun off v => ?held_register⟩, fun hl hh => ?live, fun n hd => exec_fastCapEffect s hd, fun e => ?clear,
    exec_injection_none s, fun a b ha hs hf hr hb hok hholds hunit hn hper => exec_injection_vat s ha hs hf hr hb hok hholds hunit hn hper⟩
  case flr_dead => rw [exec_flr s port hp, hl]; rfl
  case write_dead => rw [exec_registerWrite s port off v hp, s.writeHeld_dead port hl, hl]; rfl
  case held_slot => rw [exec_slotWrite s port n off bs hp hn, hh]; rfl
  case held_give => rw [exec_give s port n hm hp hn hl, hh]; rfl
  case held_bar2 => exact exec_bar2Write_full s port off d hp hl hr (.inl hh)
  case held_register => rw [exec_registerWrite s port off v hp, hh]; rfl
  case clear => rw [counterSatClear_dropped s port e hp]; rfl
  case live =>
    refine ⟨?flr, fun n off bs hn ho hown => ?slot_stored, fun n off bs hn ho hown => ?slot_dropped, fun n hm hn hd hown => ?give,
      fun n e hn hd => exec_msg s port n e hp hn hl hd, fun p e hq hd hv hown heh => ?entries, fun off d hr hfull => exec_bar2Write_full s port off d hp hl hr (.inr hfull),
      fun hw hposted hreads horder hcred => ⟨fun off bs beats c o h0 hpage hr ha => ⟨fun ho t ht => ?write_open, fun ho => ?write_closed⟩,
        fun off n c o h0 hpage hr ha => ⟨fun bs ho hrd => ?read_open, fun ho => ?read_closed⟩, fun off n h0 hpage hr ha => ?read_unmapped⟩,
      fun off n hc => ?timeout_waits, fun off n hc => ?timeout_served, counterLowRead_port_energy s port hp hl, fun off v hal => ?register, fun v => ?err,
      fun v ho hv => ?fast_cap, fun v hwr => ⟨?fsw, fun hv hf => ?go⟩, fun v hwr => ⟨?fsw_other, ?go_other⟩⟩
    case flr => rw [exec_flr s port hp, hl]; rfl
    case slot_stored => rw [exec_slotWrite s port n off bs hp hn, hh, hl]; simp [ho, State.slotPut, hown]
    case slot_dropped => rw [exec_slotWrite s port n off bs hp hn, hh, hl]; simp [ho, State.slotPut, hown, State.strayWrite]
    case give =>
      dsimp only
      rw [exec_give s port n hm hp hn hl, hh]
      refine ⟨fun hq => ?_, fun hq => ?_⟩
      · simp [State.giveSlot, s.takeSlot_host port n hd hown, hq]
      · simp [State.giveSlot, s.takeSlot_host port n hd hown, hq] <;> rfl
    case entries =>
      have hlive := s.entryLive_owner port p hl hd hv hown
      refine ⟨fun c t hc hm ha => ⟨fun hk hw => ?_, fun bs hk hr => ?_⟩, fun hrsv => ?_⟩
      · rw [exec_segIn s port p e hp hq hlive heh, s.segIn_moves p e hc hm ha hk hw]; rfl
      · rw [exec_segOut s port p e hp hq hlive heh, s.segOut_moves port p e hc hm ha hk hr]; rfl
      · rw [exec_segIn s port p e hp hq hlive heh, s.segIn_reserved p e hrsv]; rfl
    case write_open =>
      rw [exec_bar2Write_alone s port off bs beats hp hl hh hposted horder h0 hpage hr, s.portServe_posting_open port hw horder hreads ha ho ht]
    case write_closed =>
      rw [exec_bar2Write_alone s port off bs beats hp hl hh hposted horder h0 hpage hr, s.portServe_posting_closed port hw ha ho]; rfl
    case read_open =>
      rw [exec_bar2Read_alone s port off n hp hl hreads h0 hpage hr, s.portServe_reading port hw horder hposted hreads hcred, State.bar2Held_mapped ha, ho,
        State.bar2Get_mapped ha hrd]; rfl
    case read_closed =>
      rw [exec_bar2Read_alone s port off n hp hl hreads h0 hpage hr, s.portServe_reading port hw horder hposted hreads hcred, State.bar2Held_mapped ha, ho]; rfl
    case read_unmapped =>
      rw [exec_bar2Read_alone s port off n hp hl hreads h0 hpage hr, s.portServe_reading port hw horder hposted hreads hcred, State.bar2Held_unmapped ha,
        State.bar2Get_unmapped ha]; rfl
    case timeout_waits => rw [exec_bar2ReadTimeout s port off n hp hl, hc]; rfl
    case timeout_served => rw [exec_bar2ReadTimeout s port off n hp hl, hc]; rfl
    case register => rw [exec_registerWrite s port off v hp, hh, hl]; simp [hal]
    case err => rw [exec_registerWrite s port 8 v hp, hh, hl]; exact congrArg Host.Outcome.next (s.writeReg_err port v)
    case fast_cap => exact ⟨_, exec_trlFastCap s port v hp hl hh ho, s.writeFastCap_enabled v hv⟩
    case fsw => rw [exec_prtFsw s port v hp hl hh, if_pos hwr]
    case go => exact ⟨_, by rw [exec_prtInjGo s port v hp hl hh, if_pos hwr], s.writeInjCtrl_go v hv hf⟩
    case fsw_other => rw [exec_prtFsw s port v hp hl hh, hwr]; rfl
    case go_other => rw [exec_prtInjGo s port v hp hl hh, hwr]; rfl

end Sys2Proof.Machine
end

section
/-! What a drain gives, case by case (02 R33, R36, R37, R39): a special tun, a zero tun, and a tun whose rounded value is zero. -/

namespace Sys2Proof.Machine
open Sys2Proof

/-- The exponent of the result's least significant bit when n × 2^e is rounded into a floating-point format (q of R33). -/
def lsbExponent (fmt : BitVec 4) (n e : Int) : Int :=
  max ((Nat.log2 n.natAbs : Int) + e) (1 - (fmtP fmt).bias) - (fmtP fmt).mbits

section Drain
variable {t : Tun} {fmt : BitVec 4} {rm : BitVec 2} {sat : Bool} {dsc : Int} {r16 : Nat}

/-- The first line of R33. -/
theorem drainTun_nan (h : t.tn = true ∨ t.tr = true ∨ (t.tp = true ∧ t.tm = true)) : drainTun t fmt rm sat dsc r16 = specialNan fmt := by
  have hspecial : (t.tn || t.tr || (t.tp && t.tm)) = true := by simpa [or_assoc] using h
  rw [drainTun, if_pos hspecial]

/-- The second line of R33. -/
theorem drainTun_posInf (htn : t.tn = false) (htr : t.tr = false) (htp : t.tp = true) (htm : t.tm = false) :
    drainTun t fmt rm sat dsc r16 = specialInf fmt false sat := by
  simp [drainTun, htn, htr, htp, htm]

/-- The third line of R33. -/
theorem drainTun_negInf (htn : t.tn = false) (htr : t.tr = false) (htp : t.tp = false) (htm : t.tm = true) :
    drainTun t fmt rm sat dsc r16 = specialInf fmt true sat := by
  simp [drainTun, htn, htr, htp, htm]

/-- R33 from its fourth line on: a tun with no special flag. -/
theorem drainTun_finite (htn : t.tn = false) (htr : t.tr = false) (htp : t.tp = false) (htm : t.tm = false) :
    drainTun t fmt rm sat dsc r16 =
      if t.v = 0#128 then { code := 0, dx := false, dov := false, dv := false } else roundFinite fmt t.v.toInt (t.anchor + dsc) rm sat r16 := by
  simp [drainTun, htn, htr, htp, htm]

end Drain

section Round
variable {fmt : BitVec 4} {n e : Int} {rm : BitVec 2} {sat : Bool} {r16 : Nat}

/-- Zero lies within the clamp of an integer format. -/
theorem roundFinite_code_int_zero (hint : (fmtP fmt).isInt = true) (hzero : roundInt n e rm r16 = 0) : (roundFinite fmt n e rm sat r16).code = 0 := by
  have hhi : ¬ (0 : Int) > (2 ^ ((fmtP fmt).width - 1) : Nat) - 1 := by
    have := Nat.one_le_two_pow (n := (fmtP fmt).width - 1)
    omega
  have hlo : ¬ (0 : Int) < -(2 ^ ((fmtP fmt).width - 1) : Nat) := by omega
  simp only [roundFinite, hint, hzero, if_neg hhi, if_neg hlo, if_true]
  simp

/-- A floating-point result that rounds to zero keeps the sign of the value. -/
theorem roundFinite_code_float_zero (hfloat : (fmtP fmt).isInt = false) (hzero : roundInt n (e - lsbExponent fmt n e) rm r16 = 0) :
    (roundFinite fmt n e rm sat r16).code = if n < 0 then 2 ^ ((fmtP fmt).width - 1) else 0 := by
  have hlsb : (if (Nat.log2 n.natAbs : Int) + e > 1 - (fmtP fmt).bias then (Nat.log2 n.natAbs : Int) + e else 1 - (fmtP fmt).bias) - (fmtP fmt).mbits
      = lsbExponent fmt n e := by
    rw [lsbExponent]
    split <;> omega
  simp [roundFinite, hfloat, hlsb, hzero]

/-- MXINT8 is the one MX format with integer elements (R18). -/
theorem isInt_iff_of_isMx : (fmtP fmt).isMx = true → ((fmtP fmt).isInt = true ↔ fmt = 0xC#4) := by
  decide +revert

@[simp] theorem mxElem_zero : mxElem fmt 0 e rm r16 = (0, false) := by simp [mxElem]

/-- An element of a floating-point MX format is a drain's rounding under saturation (R39). -/
theorem mxElem_code_float (hn : n ≠ 0) (hfmt : fmt ≠ 0xC#4) : (mxElem fmt n e rm r16).1 = (roundFinite fmt n e rm true r16).code := by
  simp [mxElem, mxElemFmt, hn, hfmt]

theorem mxElem_code_int_zero (hn : n ≠ 0) (hzero : roundInt n (e + 6) rm r16 = 0) : (mxElem 0xC#4 n e rm r16).1 = 0 := by
  simp [mxElem, hn, hzero]

end Round

/-- Settles O54: a zero tun by R33's fourth line, a rounded zero by roundFinite's two kinds of format; an MX element reduces to the same rounding. -/
theorem zeroDrains : Obligations.ZeroDrains := by
  unfold Obligations.ZeroDrains
  intro t fmt rm sat dsc r16 _
  refine ⟨fun htn htr htp htm => ?_, fun n e hmx => ?_⟩
  · rw [drainTun_finite htn htr htp htm]
    refine ⟨fun hv => ?_, fun hv hfloat hzero => ?_, fun hv hint hzero => ?_⟩
    · rw [if_pos hv]
    · rw [if_neg hv]
      exact roundFinite_code_float_zero hfloat hzero
    · rw [if_neg hv]
      exact roundFinite_code_int_zero hint hzero
  · have hmxInt := isInt_iff_of_isMx hmx
    refine ⟨fun hn => ?_, fun hn hfloat hzero => ?_, fun hn hint hzero => ?_⟩
    · rw [hn, mxElem_zero]
    · have hfmt : fmt ≠ 0xC#4 := by simpa [hfloat] using hmxInt
      rw [mxElem_code_float hn hfmt]
      exact roundFinite_code_float_zero hfloat hzero
    · obtain rfl := hmxInt.mp hint
      exact mxElem_code_int_zero hn hzero

/-- Settles O55: the three special lines of R33 pick the column, and R36's table is then evaluated format by format. -/
theorem specialDrains : Obligations.SpecialDrains := by
  unfold Obligations.SpecialDrains
  intro t rm sat dsc r16
  refine ⟨fun hnan => ?nan, fun ⟨htn, htr, htp, htm⟩ => ?posInf, fun ⟨htn, htr, htp, htm⟩ => ?negInf⟩
  case nan =>
    simp only [drainTun_nan hnan]
    decide
  case posInf =>
    simp only [drainTun_posInf htn htr htp htm]
    cases sat <;> decide
  case negInf =>
    simp only [drainTun_negInf htn htr htp htm]
    cases sat <;> decide

end Sys2Proof.Machine
end

section
/-! What an instruction of a bay does to the state when it changes its bay alone, and when it ends in the bay's first schedule breach (03 R54). -/

namespace Sys2Proof.Machine
open Sys2Proof

/-- The bay once it has kept its first breach (03 R54); one of the prologue is noted in the vat (05 R103). -/
def Bay.breached (x : Bay) (cause : Nat) (count : Int) (unit : Nat) : Bay :=
  { x with breach := { cause := cause, count := count, unit := unit }, vat := { x.vat with proFault := x.vat.proFault || !x.seq.body } }

@[simp] theorem Bay.breached_seq (x : Bay) (cause : Nat) (count : Int) (unit : Nat) : (x.breached cause count unit).seq = x.seq := rfl

/-- A bay without a breach keeps this one and sends a token for it. -/
theorem BayM.breach_first (x : Bay) (cause : Nat) (count : Int) (unit : Nat) (h : x.breach.cause = 0) :
    BayM.breach { bay := x, out := [] } cause count unit = { bay := x.breached cause count unit, out := [.breach cause count unit] } := by
  cases hbody : x.seq.body <;> simp [BayM.breach, BayM.proFault, BayM.upd, BayM.emit, Bay.breached, h, hbody]

section
variable {s : State} {b : BayId} {f : BCtx → BayM → BayM} {g : Bay → Bay}

/-- An operation that only changes its bay. -/
theorem State.bayOp_upd (hb : b.ok = true) (hf : f (s.bctx b) { bay := s.bay b, out := [] } = BayM.upd { bay := s.bay b, out := [] } g)
    (hg : (g (s.bay b)).seq = (s.bay b).seq) : s.bayOp b true f = .next (s.modBay b g) := by
  have hquiet := s.runBay_quiet b f (by rw [hf]; rfl) (by rw [hf]; exact congrArg Seq.ticked hg)
  rw [s.bayOp_ok b true f hb, if_pos rfl, hquiet, hf]
  rfl

/-- An operation that changes its bay and then meets the bay's first breach. -/
theorem State.bayOp_breach {cause : Nat} {count : Int} {unit : Nat} (hb : b.ok = true)
    (hf : f (s.bctx b) { bay := s.bay b, out := [] } = (BayM.upd { bay := s.bay b, out := [] } g).breach cause count unit)
    (hg : (g (s.bay b)).seq = (s.bay b).seq) (hc : (g (s.bay b)).breach.cause = 0) :
    s.bayOp b true f = .next ((s.modBay b (fun x => (g x).breached cause count unit)).bayBreach b cause count unit) := by
  have hfirst : f (s.bctx b) { bay := s.bay b, out := [] } = { bay := (g (s.bay b)).breached cause count unit, out := [.breach cause count unit] } :=
    hf.trans (BayM.breach_first _ cause count unit hc)
  have hstill := s.runBay_still b f (by rw [hfirst]; exact congrArg Seq.ticked hg)
  rw [s.bayOp_ok b true f hb, if_pos rfl, hstill, hfirst]
  rfl
end

@[simp] theorem modeOk_iff (p : Press) (sel : PressSel) : modeOk p sel = true ↔ p.quart = sel.qe := beq_iff_eq
theorem modeOk_eq_false (p : Press) (sel : PressSel) : modeOk p sel = false ↔ p.quart ≠ sel.qe := beq_eq_false_iff_ne

end Sys2Proof.Machine
end

section
/-! LDA, LDB, SETUP, KSTEP, SHIM, MODE and CLRF at issue: what each starts, and where it is the breach MODE_CONFLICT (03 R46, R51, R54, R55, 07 R135 to R140, R143). -/

namespace Sys2Proof.Machine
open Sys2Proof

/-- The panel load that LDA or LDB puts on its feed port (07 R137). -/
def Bay.panelLoad (x : Bay) (u : Int) (opB on : Bool) (sel : PressSel) (f : LoadF) : LoadRun :=
  { u := u, pr := sel.pr.toNat, opB := opB, half := if f.half then 1 else 0, qe := sel.qe, q := selQ sel, fmt := f.fmt
    base := x.vatAddr f.i.toNat (64 * f.off.toNat) 64, b := panelBytes f.fmt sel.qe
    sbase := x.vatAddr f.i.toNat (16 * f.soff.toNat) 16, s := scaleBytes f.fmt sel.qe, on := on, next := 0 }
/-- The load occupies its feed port; an off one delivers nothing. -/
def Bay.occupyFeed (x : Bay) (u : Int) (opB on : Bool) (sel : PressSel) (f : LoadF) : Bay :=
  { x with loads := x.loads ++ [x.panelLoad u opB on sel f] }
/-- The load starts: its half begins at u + 3 and, when the load is on, is valid once the last byte has landed (03 R46). -/
def Bay.startLoad (x : Bay) (u : Int) (opB on : Bool) (sel : PressSel) (f : LoadF) : Bay :=
  let ctl := ctlIx opB (if f.half then 1 else 0) (selQ sel)
  let y := (x.occupyFeed u opB on sel f).due (u + 3) 2 (.halfBegin sel.pr.toNat ctl f.fmt on)
  if on then y.due (u + 3 + ((panelBytes f.fmt sel.qe + scaleBytes f.fmt sel.qe + 63) / 64 : Nat)) 2 (.halfValid sel.pr.toNat ctl) else y

theorem Bay.startLoad_seq (x : Bay) (u : Int) (opB on : Bool) (sel : PressSel) (f : LoadF) : (x.startLoad u opB on sel f).seq = x.seq := by
  cases on <;> rfl

/-- What SETUP arms: its own anchor or the default one of the pair (07 R138). -/
def armedSetup (f : SetupF) : Setup :=
  { fmtA := f.fmtA, fmtB := f.fmtB, anchor := if f.dflt then (defaultAnchor f.fmtA f.fmtB).getD 0 else f.anch.toInt, panels := f.npM1.toNat + 1, auto := f.auto }

/-- The cells q of press pr run a shim. -/
def Bay.putShim (x : Bay) (pr q : Nat) (h : Shim) : Bay :=
  x.setPress pr ((x.press pr).setQuarter q { (x.press pr).quarter q with shim := some h })
/-- The cells q of press pr are occupied by a panel that adds nothing (07 R135). -/
def Bay.putVoidRun (x : Bay) (u : Int) (pr q ha hb : Nat) : Bay :=
  x.setPress pr ((x.press pr).setQuarter q
    { (x.press pr).quarter q with
      run := some { start := u, dur := ((x.press pr).quarter q).panelFc, ha := ha, hb := hb, setup := none, first := false, last := false } })

section
variable (m : BayM) (u : Int) (sel : PressSel)

theorem issueLoad_match (opB on : Bool) (f : LoadF) (h : modeOk (m.bay.press sel.pr.toNat) sel = true) :
    issueLoad m u opB on sel f = m.upd (fun x => x.startLoad u opB on sel f) := by
  simp only [issueLoad, h, Bool.and_true]
  rfl
theorem issueLoad_mismatch (opB on : Bool) (f : LoadF) (h : modeOk (m.bay.press sel.pr.toNat) sel = false) :
    issueLoad m u opB on sel f = (m.upd (fun x => x.occupyFeed u opB false sel f)).breach brModeConflict u sel.pr.toNat := by
  simp only [issueLoad, h, Bool.and_false]
  rfl

theorem issueSetup_match (f : SetupF) (h : modeOk (m.bay.press sel.pr.toNat) sel = true) :
    issueSetup m u sel f = m.upd (fun x => x.due (u + 1) 0 (.arm sel.pr.toNat (selQ sel) (armedSetup f))) := by
  simp only [issueSetup, h]
  rfl
theorem issueSetup_mismatch (f : SetupF) (h : modeOk (m.bay.press sel.pr.toNat) sel = false) :
    issueSetup m u sel f = m.breach brModeConflict u sel.pr.toNat := by
  simp only [issueSetup, h]
  rfl

theorem issueKstep_busy (ha hb : Bool) (h : (m.bay.press sel.pr.toNat).busy (selQ sel) u = true) :
    issueKstep m u sel ha hb = m.breach brModeConflict u sel.pr.toNat := by
  simp only [issueKstep, h, if_true]
theorem issueKstep_mismatch (ha hb : Bool) (hfree : (m.bay.press sel.pr.toNat).busy (selQ sel) u = false)
    (h : modeOk (m.bay.press sel.pr.toNat) sel = false) :
    issueKstep m u sel ha hb =
      (m.upd (fun x => x.putVoidRun u sel.pr.toNat (selQ sel) (if ha then 1 else 0) (if hb then 1 else 0))).breach brModeConflict u sel.pr.toNat := by
  simp only [issueKstep, hfree, h]
  rfl

theorem issueShim_match (l nom min : Nat) (hfree : (m.bay.press sel.pr.toNat).busy (selQ sel) u = false)
    (h : modeOk (m.bay.press sel.pr.toNat) sel = true) :
    issueShim m u sel l nom min =
      m.upd (fun x => x.putShim sel.pr.toNat (selQ sel) { stop := u + (l : Int) + 1, nom := nom + 1, min := min + 1 }) := by
  simp only [issueShim, hfree, h]
  rfl
theorem issueShim_busy (l nom min : Nat) (h : (m.bay.press sel.pr.toNat).busy (selQ sel) u = true) :
    issueShim m u sel l nom min = m.breach brModeConflict u sel.pr.toNat := by
  simp only [issueShim, h, if_true]
theorem issueShim_mismatch (l nom min : Nat) (hfree : (m.bay.press sel.pr.toNat).busy (selQ sel) u = false)
    (h : modeOk (m.bay.press sel.pr.toNat) sel = false) :
    issueShim m u sel l nom min =
      (m.upd (fun x => x.putShim sel.pr.toNat (selQ sel) { stop := u + (l : Int) + 1, nom := 0, min := 0 })).breach brModeConflict u sel.pr.toNat := by
  simp only [issueShim, hfree, h]
  rfl

theorem issueMode_may (pr : Nat) (quart : Bool) (h : modeMay m.bay pr u = true) :
    issueMode m u pr quart = m.upd (fun x => x.due (u + 1) 0 (.mode pr quart)) := if_pos h
theorem issueMode_mayNot (pr : Nat) (quart : Bool) (h : modeMay m.bay pr u = false) :
    issueMode m u pr quart = m.breach brModeConflict u pr := if_neg (by simp [h])
end

section
variable (s : State) (b : BayId) (sel : PressSel)

/- Well-formed slots on a bay of the grid run their operation. -/
theorem exec_load (p : Pred) (f : LoadF) (opB : Bool) (hb : b.ok = true) (hf : f.ok sel = true) :
    exec (if opB then .ldb b p sel f else .lda b p sel f) s =
      s.bayOp b true (fun _ m => issueLoad m m.bay.seq.count opB (m.bay.isOn p) sel f) := by
  have hok : (b.ok && f.ok sel) = true := Bool.and_eq_true_iff.mpr ⟨hb, hf⟩
  cases opB
  · have hwf : (Instr.lda b p sel f).wf = true := hok
    change execLda b p sel f s = _
    rw [execLda, hwf]
  · have hwf : (Instr.ldb b p sel f).wf = true := hok
    change execLdb b p sel f s = _
    rw [execLdb, hwf]
theorem exec_setup (f : SetupF) (hb : b.ok = true) (hf : f.ok sel = true) :
    exec (.setup b sel f) s = s.bayOp b true (fun _ m => issueSetup m m.bay.seq.count sel f) := by
  have hwf : (Instr.setup b sel f).wf = true := Bool.and_eq_true_iff.mpr ⟨hb, hf⟩
  change execSetup b sel f s = _
  rw [execSetup, hwf]
theorem exec_kstep (ha hb' : Bool) (hb : b.ok = true) (hs : sel.ok = true) :
    exec (.kstep b sel ha hb') s = s.bayOp b true (fun _ m => issueKstep m m.bay.seq.count sel ha hb') := by
  have hwf : (Instr.kstep b sel ha hb').wf = true := Bool.and_eq_true_iff.mpr ⟨hb, hs⟩
  change execKstep b sel ha hb' s = _
  rw [execKstep, hwf]
theorem exec_shim (l : BitVec 6) (nom min : BitVec 4) (hb : b.ok = true) (hs : sel.ok = true) (hle : min.toNat ≤ nom.toNat) :
    exec (.shim b sel l nom min) s = s.bayOp b true (fun _ m => issueShim m m.bay.seq.count sel l.toNat nom.toNat min.toNat) := by
  have hwf : (Instr.shim b sel l nom min).wf = true :=
    Bool.and_eq_true_iff.mpr ⟨Bool.and_eq_true_iff.mpr ⟨hb, hs⟩, decide_eq_true hle⟩
  change execShim b sel l nom min s = _
  rw [execShim, hwf]
theorem exec_mode (w : BitVec 2) (quart : Bool) (hb : b.ok = true) :
    exec (.mode b w quart) s = s.bayOp b true (fun _ m => issueMode m m.bay.seq.count w.toNat quart) := by
  have hwf : (Instr.mode b w quart).wf = true := hb
  change execMode b w quart s = _
  rw [execMode, hwf]
theorem exec_clrf (pm : BitVec 4) (vf : Bool) (hb : b.ok = true) :
    exec (.clrf b pm vf) s = s.bayOp b true (fun _ m => m.upd (fun x => x.due (m.bay.seq.count + 1) 0 (.clrf pm vf))) := by
  have hwf : (Instr.clrf b pm vf).wf = true := hb
  change execClrf b pm vf s = _
  rw [execClrf, hwf]
end

/-- Settles O6: each instruction's issue either changes its bay alone or is the bay's first breach. -/
theorem pressInstructionsStartOrBreach : Obligations.PressInstructionsStartOrBreach := by
  unfold Obligations.PressInstructionsStartOrBreach
  refine ⟨fun s b sel hb => ?starts, fun s b sel hb hc => ?breaches⟩
  case starts =>
    refine ⟨fun p f opB hf hq => ?load, fun f hf hq => ?setup, fun l nom min hs hle hq hfree => ?shim, fun w quart hmay => ?mode, fun pm vf => ?clrf⟩
    case load =>
      rw [exec_load s b sel p f opB hb hf]
      exact State.bayOp_upd hb (issueLoad_match _ _ sel opB _ f ((modeOk_iff _ _).mpr hq)) (Bay.startLoad_seq _ _ _ _ _ _)
    case setup =>
      rw [exec_setup s b sel f hb hf]
      exact State.bayOp_upd hb (issueSetup_match _ _ sel f ((modeOk_iff _ _).mpr hq)) rfl
    case shim =>
      rw [exec_shim s b sel l nom min hb hs hle]
      exact State.bayOp_upd hb (issueShim_match _ _ sel _ _ _ hfree ((modeOk_iff _ _).mpr hq)) rfl
    case mode =>
      rw [exec_mode s b w quart hb]
      exact State.bayOp_upd hb (issueMode_may _ _ _ quart hmay) rfl
    case clrf =>
      rw [exec_clrf s b pm vf hb]
      exact State.bayOp_upd hb rfl rfl
  case breaches =>
    refine ⟨fun d f opB hf hq => ?load, fun f hf hq => ?setup, fun ha hb' hs => ⟨fun hbusy => ?kstep_busy, fun hfree hq => ?kstep⟩,
      fun l nom min hs hle => ⟨fun hbusy => ?shim_busy, fun hfree hq => ?shim⟩, fun w quart hmay => ?mode⟩
    case load =>
      rw [exec_load s b sel d f opB hb hf]
      exact State.bayOp_breach hb (issueLoad_mismatch _ _ sel opB _ f ((modeOk_eq_false _ _).mpr hq)) rfl hc
    case setup =>
      rw [exec_setup s b sel f hb hf]
      exact State.bayOp_breach (g := id) hb (issueSetup_mismatch _ _ sel f ((modeOk_eq_false _ _).mpr hq)) rfl hc
    case kstep_busy =>
      rw [exec_kstep s b sel ha hb' hb hs]
      exact State.bayOp_breach (g := id) hb (issueKstep_busy _ _ sel ha hb' hbusy) rfl hc
    case kstep =>
      rw [exec_kstep s b sel ha hb' hb hs]
      exact State.bayOp_breach hb (issueKstep_mismatch _ _ sel ha hb' hfree ((modeOk_eq_false _ _).mpr hq)) rfl hc
    case shim_busy =>
      rw [exec_shim s b sel l nom min hb hs hle]
      exact State.bayOp_breach (g := id) hb (issueShim_busy _ _ sel _ _ _ hbusy) rfl hc
    case shim =>
      rw [exec_shim s b sel l nom min hb hs hle]
      exact State.bayOp_breach hb (issueShim_mismatch _ _ sel _ _ _ hfree ((modeOk_eq_false _ _).mpr hq)) rfl hc
    case mode =>
      rw [exec_mode s b w quart hb]
      exact State.bayOp_breach (g := id) hb (issueMode_mayNot _ _ _ quart hmay) rfl hc

end Sys2Proof.Machine
end

section
/-! DRAIN, DRAINR and TASTE at issue on presses in their mode (03 R48, R49, R62, 07 R141, R142). -/

namespace Sys2Proof.Machine
open Sys2Proof

/-- The drain that DRAIN starts, with its addresses and strides (07 R141). -/
def Bay.roundedDrain (x : Bay) (u : Int) (on : Bool) (sel : PressSel) (f : DrainF) : DrainRun :=
  let base := x.vatAddr f.i.toNat (64 * f.off.toNat) 64
  { d := u, pr := sel.pr.toNat, qe := sel.qe, q := selQ sel, recd := false, fmt := f.fmt, rm := f.rm, sat := f.sat, dsc := f.dsc.toInt, base := base
    rb := if f.str = 0#8 then rowBytes f.fmt (if sel.qe then 16 else 32) else 64 * f.str.toNat
    sbase := base + 32 * f.soff.toNat, on := on, next := 0, scales := [], body := x.seq.body }
/-- The drain that DRAINR starts (07 R141). -/
def Bay.recordDrain (x : Bay) (u : Int) (on : Bool) (sel : PressSel) (f : DrainRF) : DrainRun :=
  { d := u, pr := sel.pr.toNat, qe := sel.qe, q := selQ sel, recd := true, fmt := 0#4, rm := 0#2, sat := false, dsc := 0
    base := x.vatAddr f.i.toNat (64 * f.off.toNat) 64, rb := if f.str = 0#8 then 32 * (if sel.qe then 16 else 32) else 64 * f.str.toNat
    sbase := 0, on := on, next := 0, scales := [], body := x.seq.body }

section
variable (m : BayM) (u : Int) (sel : PressSel)

/-- A drain in its press's mode, with the unit free and its window open, joins the drains as it is. -/
theorem issueDrainRun_starts (r : DrainRun) (h : modeOk (m.bay.press sel.pr.toNat) sel = true) (hfree : drainUnitBusy m.bay sel.pr.toNat u = false)
    (hlegal : drainLegal u (if r.recd then 4 else 1) (selQ sel) (m.bay.press sel.pr.toNat).ends = true) :
    issueDrainRun m u sel r = m.upd (fun x => { x with drains := x.drains ++ [r] }) := by
  simp [issueDrainRun, h, hfree, hlegal]

/-- A comparison of presses in their mode, with the comparator free and both windows open, starts. -/
theorem issueTaste_starts (prb qb : Nat) (h : modeOk (m.bay.press sel.pr.toNat) sel = true) (hb : modeOk (m.bay.press prb) sel = true)
    (hfree : m.bay.taste = none) (hlegal : drainLegal u 1 (selQ sel) (m.bay.press sel.pr.toNat).ends = true)
    (hlegal' : drainLegal u 1 (if sel.qe then qb else wholeIx) (m.bay.press prb).ends = true) :
    issueTaste m u sel prb qb = m.upd (fun x =>
      { x with taste := some { d := u, pr := sel.pr.toNat, prb := prb, qe := sel.qe, q := selQ sel, qb := if sel.qe then qb else wholeIx
                               next := 0, found := false, on := true } }) := by
  simp [issueTaste, h, hb, hfree, hlegal, hlegal']
end

section
variable (s : State) (b : BayId) (sel : PressSel)

theorem exec_drain (p : Pred) (f : DrainF) (hb : b.ok = true) (hf : f.ok sel = true) :
    exec (.drain b p sel f) s =
      s.bayOp b true (fun _ m => issueDrainRun m m.bay.seq.count sel (m.bay.roundedDrain m.bay.seq.count (m.bay.isOn p) sel f)) := by
  have hwf : (Instr.drain b p sel f).wf = true := Bool.and_eq_true_iff.mpr ⟨hb, hf⟩
  change execDrain b p sel f s = _
  rw [execDrain, hwf]
  rfl
theorem exec_drainr (p : Pred) (f : DrainRF) (hb : b.ok = true) (hs : sel.ok = true) :
    exec (.drainr b p sel f) s =
      s.bayOp b true (fun _ m => issueDrainRun m m.bay.seq.count sel (m.bay.recordDrain m.bay.seq.count (m.bay.isOn p) sel f)) := by
  have hwf : (Instr.drainr b p sel f).wf = true := Bool.and_eq_true_iff.mpr ⟨hb, hs⟩
  change execDrainr b p sel f s = _
  rw [execDrainr, hwf]
  rfl
theorem exec_taste (prb qb : BitVec 2) (hb : b.ok = true) (hs : sel.ok = true) (hne : prb ≠ sel.pr) (hq : sel.qe = true ∨ qb = 0#2) :
    exec (.taste b sel prb qb) s = s.bayOp b true (fun _ m => issueTaste m m.bay.seq.count sel prb.toNat qb.toNat) := by
  have hquarter : (sel.qe || qb == 0#2) = true := Bool.or_eq_true_iff.mpr (hq.imp_right beq_iff_eq.mpr)
  have hother : (prb != sel.pr) = true := bne_iff_ne.mpr hne
  have hwf : (Instr.taste b sel prb qb).wf = true :=
    Bool.and_eq_true_iff.mpr ⟨Bool.and_eq_true_iff.mpr ⟨Bool.and_eq_true_iff.mpr ⟨hb, hs⟩, hquarter⟩, hother⟩
  change execTaste b sel prb qb s = _
  rw [execTaste, hwf]
end

/-- Settles O8: on free units each of the three only adds its own work to the bay. -/
theorem drainsAndTastesStart : Obligations.DrainsAndTastesStart := by
  unfold Obligations.DrainsAndTastesStart
  intro s b sel hb u pr q n e hmode
  have hok : modeOk ((s.bay b).press sel.pr.toNat) sel = true := (modeOk_iff _ _).mpr hmode
  refine ⟨fun p f hf hfree hlegal => ?drain, fun p f hs hfree hlegal => ?drainr, fun prb qb hs hne hq hmodeB hfree hlegal hlegalB => ?taste⟩
  case drain =>
    rw [exec_drain s b sel p f hb hf]
    exact State.bayOp_upd hb (issueDrainRun_starts _ _ sel _ hok hfree hlegal) rfl
  case drainr =>
    rw [exec_drainr s b sel p f hb hs]
    exact State.bayOp_upd hb (issueDrainRun_starts _ _ sel _ hok hfree hlegal) rfl
  case taste =>
    rw [exec_taste s b sel prb qb hb hs hne hq]
    exact State.bayOp_upd hb (issueTaste_starts _ _ sel _ _ hok ((modeOk_iff _ _).mpr hmodeB) hfree hlegal hlegalB) rfl

end Sys2Proof.Machine
end

section
/-! A k-step's wave over the cells of a press (03 R47, R59). -/

namespace Sys2Proof.Machine
open Sys2Proof

/-- A wave of count v reaches cell (i, j) of its cells at v + 4 + i + j, once (03 R47). -/
theorem mem_waveCells (w : Wave) (c : Int) (i j : Nat) :
    (i, j) ∈ waveCells w c ↔ i < w.n ∧ j < w.n ∧ c = w.v + 4 + (i : Int) + (j : Int) ∧ 32 * i + j ∉ w.done := by
  unfold waveCells
  dsimp only
  split
  · next hd => simp only [List.not_mem_nil, false_iff]; omega
  · next hd =>
    simp only [List.mem_filterMap, List.mem_range, Option.ite_none_right_eq_some, Option.some.injEq, Prod.mk.injEq, Bool.and_eq_true, decide_eq_true_eq,
      Bool.not_eq_true', List.contains_eq_mem, decide_eq_false_iff_not]
    constructor
    · rintro ⟨k, hk, ⟨⟨hle, hlt⟩, hdone⟩, rfl, hj⟩
      rw [hj] at hlt hdone
      exact ⟨hk, hlt, by omega, hdone⟩
    · rintro ⟨hi, hj, hc, hdone⟩
      have hdiff : (c - w.v - 4).toNat - i = j := by omega
      rw [← hdiff] at hj hdone
      exact ⟨i, hi, ⟨⟨by omega, hj⟩, hdone⟩, rfl, hdiff⟩

/-- The press after one of its cells has taken a product: the cell's tun accumulates it, and its residue follows (R26, R59). -/
def Press.takeProduct (p : Press) (key : Nat) (a c : Exact × Nat) : Press :=
  let t := Sparse.get Tun.empty p.tuns key
  let prod := formProductE a.1 a.2 c.1 c.2
  { p with
    tuns := Sparse.set Tun.empty p.tuns key (t.accumulate prod).1
    rho := Sparse.set 0 p.rho key (residueAdd (Sparse.get 0 p.rho key) a.1 c.1 prod t) }

/-- A product of an inner k-step that the tun admits changes its cell's tun and residue. -/
theorem absorbCell_inner (c : Int) (w : Wave) (m : BayM) (i j : Nat) (a d : Exact × Nat) (hfirst : w.first = false) (hlast : w.last = false)
    (ha : w.a[i]? = some a) (hd : w.b[j]? = some d)
    (hadm : ((Sparse.get Tun.empty (m.bay.press w.pr).tuns (32 * (w.r0 + i) + w.c0 + j)).accumulate (formProductE a.1 a.2 d.1 d.2)).2 = false) :
    absorbCell c w m i j = m.upd (fun x => x.setPress w.pr ((m.bay.press w.pr).takeProduct (32 * (w.r0 + i) + w.c0 + j) a d)) := by
  simp only [absorbCell, hfirst, hlast, List.getD_eq_getElem?_getD, ha, hd, Option.getD_some, hadm, Bool.false_eq_true, if_false]
  rfl

/-- A breach leaves the waves alone. -/
@[simp] theorem BayM.breach_waves (m : BayM) (cause : Nat) (c : Int) (unit : Nat) : (m.breach cause c unit).bay.waves = m.bay.waves := by
  unfold BayM.breach BayM.proFault
  dsimp only
  split <;> split <;> rfl
/-- So does a cell's product. -/
@[simp] theorem absorbCell_waves (c : Int) (w : Wave) (m : BayM) (i j : Nat) : (absorbCell c w m i j).bay.waves = m.bay.waves := by
  simp only [absorbCell, BayM.upd, Bay.setPress, apply_ite BayM.bay, apply_ite Bay.waves, BayM.breach_waves, ite_self]

/-- A bay's only wave at a cell of the whole press that it reaches now: the cell takes the product, and the wave is marked. -/
theorem cellNow_one (m : BayM) (c : Int) (w : Wave) (i j : Nat) (hw : m.bay.waves = [w]) (hr : w.r0 = 0) (hc : w.c0 = 0) (hmem : (i, j) ∈ waveCells w c) :
    cellNow m c w.pr i j = (absorbCell c w m i j).upd (fun x => { x with waves := [{ w with done := w.done ++ [32 * i + j] }] }) := by
  simp [cellNow, BayM.upd, hw, hr, hc, hmem]

theorem exec_cellAccumulate (s : State) (b : BayId) (pr i j : Nat) (hpr : pr < 4) :
    exec (.cellAccumulate b (BitVec.ofNat 2 pr) i j) s = s.bayOp b true (fun _ m => cellNow m m.bay.seq.ticked pr i j) := by
  have hpr' : (BitVec.ofNat 2 pr).toNat = pr := by rw [BitVec.toNat_ofNat]; omega
  change execCellAccumulate b (BitVec.ofNat 2 pr) i j s = _
  simp only [execCellAccumulate, hpr']

/-- Settles O9: the only wave reaches the cell now, and an inner product that the tun admits changes that cell alone. -/
theorem kstepReachesACell : Obligations.KstepReachesACell := by
  unfold Obligations.KstepReachesACell
  intro s b i j w a c hb hi hj hwaves hr0 hc0 hn hpr hdone hfirst hlast hticked ha hc p key t prod hadm
  have hmem : (i, j) ∈ waveCells w (s.bay b).seq.ticked :=
    (mem_waveCells w _ i j).mpr ⟨by omega, by omega, hticked, by simp [hdone]⟩
  have hkey : 32 * (w.r0 + i) + w.c0 + j = key := by simp only [hr0, hc0, key]; omega
  have habsorb := absorbCell_inner (s.bay b).seq.ticked w { bay := s.bay b, out := [] } i j a c hfirst hlast ha hc (by rw [hkey]; exact hadm)
  rw [hkey] at habsorb
  rw [exec_cellAccumulate s b w.pr i j hpr]
  refine State.bayOp_upd hb ?_ rfl
  rw [cellNow_one _ _ w i j hwaves hr0 hc0 hmem, habsorb, hdone]
  rfl

end Sys2Proof.Machine
end

section
/-! The last row of a comparison that found no difference (03 R62, 15 R313). -/

namespace Sys2Proof.Machine
open Sys2Proof

/-- No residue of a row disagrees when each agrees (R60). -/
theorem residues_any_disagrees {l : List (Tun × Nat)} (h : l.all (fun v => residueOk v.1 v.2) = true) : l.any (fun v => !residueOk v.1 v.2) = false := by
  rwa [List.all_eq_not_any_not, Bool.not_eq_true'] at h

/-- The last row of a comparison, due now and equal to its counterpart like every row before it: the comparison has passed, which both presses keep (15 R313), and ends. -/
theorem tasteFc_passes (m : BayM) (c : Int) (t : TasteRun) (ht : m.bay.taste = some t) (hon : t.on = true) (hlast : t.next + 1 = if t.qe then 16 else 32)
    (hfound : t.found = false) (hdue : t.d + (t.next : Int) ≤ c)
    (hx : (latchRow (m.bay.press t.pr) t.qe t.q t.next).all (fun v => residueOk v.1 v.2) = true)
    (hy : (latchRow (m.bay.press t.prb) t.qe t.qb t.next).all (fun v => residueOk v.1 v.2) = true)
    (heq : (latchRow (m.bay.press t.pr) t.qe t.q t.next).map (fun v => tunRecord v.1) = (latchRow (m.bay.press t.prb) t.qe t.qb t.next).map (fun v => tunRecord v.1)) :
    tasteFc m c = m.upd (fun x => { x.tastePassed t with taste := none }) := by
  have hrow : tasteRow m c t = (m, false) := by simp [tasteRow, heq, residues_any_disagrees hx, residues_any_disagrees hy]
  have hlt : t.next < if t.qe then 16 else 32 := by omega
  simp only [tasteFc, ht, hon, hlast, hlt, hfound, hdue, hrow, decide_true, Bool.and_self, Bool.not_false, if_true, Nat.lt_irrefl, if_false]
  rfl

theorem exec_tasteRowCompare (s : State) (b : BayId) :
    exec (.tasteRowCompare b) s = s.bayOp b true (fun _ m => tasteFc m m.bay.seq.ticked) := rfl

/-- A comparison of the presses 0 and 1 of which only the last row is left, due at count 0. -/
def lastRow : TasteRun := { d := -31, pr := 0, prb := 1, qe := false, q := wholeIx, qb := wholeIx, next := 31, found := false, on := true }
/-- A bay one peg into its plan that makes this comparison of latches that hold nothing. -/
def lastRowBay : Bay := { Bay.init with seq := { Seq.init with pegno := 1 }, taste := some lastRow }

/-- Refutes O10: the last row of a comparison that finds no difference does more than end it, since both presses keep PEGNO as that of the last comparison
passed (15 R313). The bay of the counterexample stands at PEGNO 1 and its presses have passed none. -/
theorem not_drainAndTasteRows : ¬ Obligations.DrainAndTasteRows := by
  unfold Obligations.DrainAndTasteRows
  intro ⟨_, htaste⟩
  let b : BayId := { x := 0, y := 0 }
  let s : State := State.reset.setBay b lastRowBay
  have hwf : Sparse.wf Bay.init s.bays = true := Sparse.wf_set _ _ _ _ rfl
  have hbay : s.bay b = lastRowBay := by rw [State.bay_setBay _ _ _ rfl, if_pos rfl]
  have hx : (latchRow (lastRowBay.press 0) false wholeIx 31).all (fun v => residueOk v.1 v.2) = true := by decide
  have hclaim := htaste s b lastRow rfl (by rw [hbay]; rfl) rfl (by decide) (by rw [hbay]; rfl) (by rw [hbay]; exact hx) (by rw [hbay]; exact hx)
  have hmodel : exec (.tasteRowCompare b) s = .next (s.modBay b (fun x => { x.tastePassed lastRow with taste := none })) := by
    rw [exec_tasteRowCompare]
    exact State.bayOp_upd rfl (tasteFc_passes _ _ lastRow (by rw [hbay]; rfl) rfl rfl rfl (by rw [hbay]; decide) (by rw [hbay]; exact hx) (by rw [hbay]; exact hx)
      (by rw [hbay]; rfl)) rfl
  have hpassed := congrArg (fun t : State => ((t.bay b).press 0).passed) (Host.Outcome.next.inj (hmodel.symm.trans hclaim))
  simp only [State.modBay, State.bay_setBay _ _ _ hwf, hbay] at hpassed
  revert hpassed
  decide

end Sys2Proof.Machine
end

section
/-! What a lathe result writes where it lands (04 R64, R65, R67, R79), and the landing of all that is due (05 R103, 15 R307). -/

namespace Sys2Proof.Machine
open Sys2Proof

section
variable {x : Lathe} {mask : BitVec 128}

/-- Lane l of V register r in a store of the V file, where the mask has it. -/
def putLane (r : Nat) (mask : BitVec 128) (vals : List Word) (v : Sparse Word) (l : Nat) : Sparse Word :=
  if mask.getLsbD l then Sparse.set 0#32 v (128 * r + l) (vals.getD l 0#32) else v

theorem Lathe.setVec_v (r : Nat) (vals : List Word) : (x.setVec r mask vals).v = (List.range 128).foldl (putLane r mask vals) x.v := by
  unfold Lathe.setVec putLane
  rfl

theorem wf_putLane {v : Sparse Word} (r : Nat) (vals : List Word) (l : Nat) (h : Sparse.wf 0#32 v = true) : Sparse.wf 0#32 (putLane r mask vals v l) = true := by
  unfold putLane
  split
  · exact Sparse.wf_set _ _ _ _ h
  · exact h

theorem get_putLane {v : Sparse Word} (r : Nat) (vals : List Word) (l k : Nat) (h : Sparse.wf 0#32 v = true) :
    Sparse.get 0#32 (putLane r mask vals v l) k = if mask.getLsbD l = true ∧ k = 128 * r + l then vals.getD l 0#32 else Sparse.get 0#32 v k := by
  unfold putLane
  split
  · next hl => simp only [Sparse.get_set _ _ _ _ _ h, hl, true_and]
  · next hl => simp only [hl, false_and, if_false, Bool.false_eq_true]

/-- Writing lanes one after another writes each that the mask has, and no other word. -/
theorem get_foldl_putLane (r : Nat) (vals : List Word) (k : Nat) : ∀ (ls : List Nat) (v : Sparse Word), Sparse.wf 0#32 v = true →
    Sparse.get 0#32 (ls.foldl (putLane r mask vals) v) k =
      if 128 * r ≤ k ∧ k - 128 * r ∈ ls ∧ mask.getLsbD (k - 128 * r) = true then vals.getD (k - 128 * r) 0#32 else Sparse.get 0#32 v k
  | [], v, _ => by simp
  | l :: ls, v, h => by
    rw [List.foldl_cons, get_foldl_putLane r vals k ls _ (wf_putLane r vals l h), get_putLane r vals l k h]
    by_cases hk : k = 128 * r + l
    · subst hk
      by_cases hm : mask.getLsbD l = true <;> simp [hm]
    · have hne : 128 * r ≤ k → k - 128 * r ≠ l := by omega
      by_cases hle : 128 * r ≤ k
      · simp [hk, hle, hne hle]
      · simp [hk, hle]

/-- A vector result writes the unmasked lanes of its register (R65, R67). -/
theorem Lathe.lane_setVec (vd : Nat) (vals : List Word) (r : Nat) {l : Nat} (hl : l < 128) (h : Sparse.wf 0#32 x.v = true) :
    (x.setVec vd mask vals).lane r l = if r = vd ∧ mask.getLsbD l = true then vals.getD l 0#32 else x.lane r l := by
  rw [Lathe.lane, Lathe.setVec_v, get_foldl_putLane vd vals _ _ _ h, Lathe.lane]
  by_cases hr : r = vd
  · subst hr
    simp [hl]
  · have hout : ¬ (128 * vd ≤ 128 * r + l ∧ 128 * r + l - 128 * vd < 128) := by omega
    simp only [List.mem_range, ← and_assoc, hout, false_and, if_false, hr]

/-- Where a mask chooses between the bits of two words. -/
theorem getLsbD_mix (old bits : BitVec 128) (l : Nat) :
    ((old &&& ~~~mask) ||| (bits &&& mask)).getLsbD l = if mask.getLsbD l = true then bits.getLsbD l else old.getLsbD l := by
  simp only [BitVec.getLsbD_or, BitVec.getLsbD_and, BitVec.getLsbD_not]
  by_cases hl : l < 128
  · cases hm : mask.getLsbD l <;> simp [hl]
  · simp [BitVec.getLsbD_of_ge _ _ (Nat.le_of_not_lt hl)]

/-- A mask result writes the unmasked bits of its register; M0 reads as all ones (R64, R67). -/
theorem Lathe.mask_setMask (k j : Nat) (bits : BitVec 128) (l : Nat) (h : Sparse.wf 0#128 x.m = true) :
    ((x.setMask k mask bits).mask j).getLsbD l =
      if j = 0 then decide (l < 128) else if j = k ∧ mask.getLsbD l = true then bits.getLsbD l else (x.mask j).getLsbD l := by
  by_cases hj : j = 0
  · simp only [Lathe.mask, hj, if_true, BitVec.getLsbD_allOnes]
  by_cases hk : k = 0
  · simp [Lathe.setMask, hk, hj]
  by_cases hjk : j = k
  · subst hjk
    have hwrite : (x.setMask j mask bits).mask j = (x.mask j &&& ~~~mask) ||| (bits &&& mask) := by
      simp [Lathe.mask, Lathe.setMask, Sparse.modify, hj, Sparse.get_set_same _ _ _ _ h]
    rw [hwrite]
    simp only [getLsbD_mix, hj, if_false, true_and]
  · simp [Lathe.mask, Lathe.setMask, Sparse.modify, hj, hk, hjk, Sparse.get_set_ne _ _ _ h hjk]

end

/-- A lathe result that lands from the agenda moves no count. -/
theorem runEvent_lathe_seq (m : BayM) {d : Due} (h : isLatheDue d = true) : (runEvent m d).bay.seq = m.bay.seq := by
  obtain ⟨c, k, e⟩ := d
  cases e with
  | lathe x => exact latheLand_seq c m x
  | _ => exact absurd h (by simp [isLatheDue])

theorem foldl_runEvent_lathe_seq : ∀ (ds : List Due) (m : BayM), (∀ d ∈ ds, isLatheDue d = true) → (ds.foldl runEvent m).bay.seq = m.bay.seq
  | [], _, _ => rfl
  | d :: ds, m, h => by
    obtain ⟨hd, hds⟩ := List.forall_mem_cons.mp h
    rw [List.foldl_cons, foldl_runEvent_lathe_seq ds _ hds, runEvent_lathe_seq m hd]

/-- Nor does the landing of all lathe results that are due. -/
theorem runDue_lathe_seq (m : BayM) (c : Int) : (runDue m c isLatheDue).bay.seq = m.bay.seq :=
  foldl_runEvent_lathe_seq _ _ (fun _ hd => (Bool.and_eq_true_iff.mp (List.mem_filter.mp hd).2).2)

/-- A fault that leaves the bay is its next output; one of the prologue is noted in the vat (05 R103). -/
theorem BayM.raise_eq (m : BayM) (code : Nat) (count : Int) (idx : Nat) (detail : List (Nat × Nat)) :
    m.raise code count idx detail =
      { bay := { m.bay with vat := { m.bay.vat with proFault := m.bay.vat.proFault || !m.bay.seq.body } }, out := m.out ++ [.fault code count idx detail] } := by
  cases hbody : m.bay.seq.body <;> simp [BayM.raise, BayM.proFault, BayM.upd, BayM.emit, hbody]

/-- What LATHE_RESULT_LAND does to a bay: each result that is due lands, and copies that disagree while one does are LATHE_MISMATCH a count later (15 R307). -/
def landDue (m : BayM) (agree : Bool) : BayM :=
  let c := m.bay.seq.count
  if m.bay.agenda.any (fun d => decide (d.at_ ≤ c) && isLatheDue d) && !agree then (runDue m c isLatheDue).raise 0x0208 (c + 1) 4 [] else runDue m c isLatheDue

theorem exec_latheResultLand (s : State) (b : BayId) (agree : Bool) : exec (.latheResultLand b agree) s = s.bayOp b true (fun _ m => landDue m agree) := rfl

@[simp] theorem landDue_seq (m : BayM) (agree : Bool) : (landDue m agree).bay.seq = m.bay.seq := by
  unfold landDue
  dsimp only
  split
  · rw [BayM.raise_seq, runDue_lathe_seq]
  · exact runDue_lathe_seq m _

/-- Settles O16: a result's write lane by lane and bit by bit; then what is due lands without moving the count, and a disagreement raises one fault after it. -/
theorem latheResultsLand : Obligations.LatheResultsLand := by
  unfold Obligations.LatheResultsLand
  refine ⟨fun m c hv hm => ⟨fun vd mask vals lfl dfl r l hl => ?vector, fun k j mask bits lfl l => ?mask⟩, fun s b agree hb => ?due⟩
  case vector =>
    have hlane := Lathe.lane_setVec (mask := mask) vd vals r hl hv
    exact ⟨hlane, rfl, rfl, rfl, rfl⟩
  case mask => exact Lathe.mask_setMask k j bits l hm
  case due =>
    intro c hit m wrong fault x
    have hlands : landDue { bay := s.bay b, out := [] } agree = { bay := x, out := m.out ++ fault } := by
      by_cases hw : wrong = true
      · simp only [x, fault, hw, if_true, ← BayM.raise_eq]
        exact if_pos hw
      · simp only [x, fault, hw, if_false, List.append_nil, Bool.false_eq_true]
        exact if_neg hw
    rw [exec_latheResultLand, State.bayOp_ok s b true _ hb, if_pos rfl, State.runBay_still _ _ _ (by rw [landDue_seq]), hlands]

end Sys2Proof.Machine
end

section
/-! The lathe's instructions at issue: each puts its result on the bay's agenda, as 04 R65 and 06 R119 say, or its accesses on the vat's ports (04 R66 to R83, 07 R144 to R146). -/

namespace Sys2Proof.Machine
open Sys2Proof

/-- Every result but LFCLR's lands in the agenda's phase 2. -/
theorem landAt_lands (m : BayM) (p : Pred) (lat : Nat) {d : LDest} (h : d ≠ .lfclr) :
    landAt m m.bay.seq.count lat (m.bay.isOn p) d = m.upd (fun x => x.lands p lat d) := by
  unfold landAt Bay.lands BayM.upd
  dsimp only
  cases m.bay.isOn p with
  | false => rfl
  | true =>
    cases d with
    | lfclr => exact absurd rfl h
    | _ => rfl

/-- LFCLR's lands in phase 0. -/
theorem landAt_lfclr (m : BayM) (p : Pred) :
    landAt m m.bay.seq.count 2 (m.bay.isOn p) .lfclr = m.upd (fun x => if x.isOn p then x.due (x.seq.count + 2) 0 (.lathe .lfclr) else x) := by
  unfold landAt BayM.upd
  dsimp only
  cases m.bay.isOn p <;> rfl

@[simp] theorem Bay.lands_seq (x : Bay) (p : Pred) (lat : Nat) (d : LDest) : (x.lands p lat d).seq = x.seq := by
  unfold Bay.lands
  split <;> rfl

section
variable {s : State} {b : BayId} {p : Pred} {f : LatheF} {i : Instr} {ok : Bool} {op : BCtx → BayM → BayM} {lat : Nat}

/-- A well-formed instruction whose meaning changes its bay alone: hexec says which operation of the bay it is, hop what the operation does to it. -/
theorem exec_upd {g : Bay → Bay} (hexec : exec i s = s.bayOp b ok op) (hb : b.ok = true) (hok : ok = true)
    (hop : op (s.bctx b) { bay := s.bay b, out := [] } = BayM.upd { bay := s.bay b, out := [] } g) (hg : (g (s.bay b)).seq = (s.bay b).seq) :
    exec i s = .next (s.modBay b g) := by
  subst hok
  exact hexec.trans (State.bayOp_upd hb hop hg)

/-- One whose meaning is the landing of one result. -/
theorem exec_lands {D : Bay → LDest} (hexec : exec i s = s.bayOp b ok op) (hb : b.ok = true) (hok : ok = true)
    (hop : op (s.bctx b) { bay := s.bay b, out := [] } = landAt { bay := s.bay b, out := [] } (s.bay b).seq.count lat ((s.bay b).isOn p) (D (s.bay b)))
    (hD : D (s.bay b) ≠ .lfclr) : exec i s = .next (s.modBay b (fun x => x.lands p lat (D x))) :=
  exec_upd hexec hb hok (hop.trans (landAt_lands { bay := s.bay b, out := [] } p lat hD)) (Bay.lands_seq _ _ _ _)

/-- One value per lane. -/
theorem exec_landsLanes {G : Bay → Nat → FpOut} (hexec : exec i s = s.bayOp b ok op) (hb : b.ok = true) (hok : ok = true)
    (hop : op (s.bctx b) { bay := s.bay b, out := [] } =
      landVec { bay := s.bay b, out := [] } (s.bay b).seq.count lat ((s.bay b).isOn p) f (G (s.bay b))) :
    exec i s = .next (s.modBay b (fun x => x.landsLanes p f lat (G x))) :=
  exec_lands hexec hb hok hop nofun

variable (s b p f)

/-- The rows of R66 for the integer instructions. -/
theorem exec_intOps : ∀ o ∈ intOps, exec (o.1 b p f) s =
    s.bayOp b (b.ok && f.fits useDAB) (fun _ m => int2 m m.bay.seq.count (m.bay.isOn p) f o.2) :=
  List.forall_iff_forall_mem.mp ⟨rfl, rfl, rfl, rfl, rfl, rfl, rfl, rfl, rfl, rfl, rfl⟩

/-- The rows of R66 for the comparisons. -/
theorem exec_cmpOps : ∀ o ∈ cmpOps, exec (o.1 b p f) s =
    s.bayOp b (b.ok && f.fits useCmp) (fun _ m => laneCmp m m.bay.seq.count o.2.1 (m.bay.isOn p) f o.2.2) :=
  List.forall_iff_forall_mem.mp ⟨rfl, rfl, rfl, rfl, rfl, rfl⟩

/-- The rows of R66 for the binary32 instructions of two sources. -/
theorem exec_fpOps : ∀ o ∈ fpOps, exec (o.1 b p f) s =
    s.bayOp b (b.ok && f.fits useDAB) (fun _ m => lane2 m m.bay.seq.count 4 (m.bay.isOn p) f o.2) :=
  List.forall_iff_forall_mem.mp ⟨rfl, rfl, rfl, rfl, rfl⟩

/-- The rows of R66 for the instructions of one source. -/
theorem exec_unaryOps : ∀ o ∈ unaryOps, exec (o.1 b p f) s =
    s.bayOp b (b.ok && f.fits useDA) (fun _ m => lane1 m m.bay.seq.count o.2.1 (m.bay.isOn p) f o.2.2) :=
  List.forall_iff_forall_mem.mp ⟨rfl, rfl, rfl, rfl, rfl, rfl, rfl, rfl, rfl, rfl, rfl, rfl, rfl, rfl, rfl, rfl⟩

end

end Sys2Proof.Machine
end

section
/-! The integer, comparison, move and binary32 instructions (04 R66 to R73, 07 R145). -/

namespace Sys2Proof.Machine
open Sys2Proof

/-- MOVC's source by number (R66), the words g after the lane number. -/
theorem opMovc_eq (px py : Nat) (m : BayM) (u : Int) (on : Bool) (f : LatheF) (g : Nat → Nat) (hext : f.ext.toNat ≤ 4) (hpx : g 0 = px) (hpy : g 1 = py)
    (hlow : g 2 = (BitVec.ofInt 64 u).toNat) (hhigh : g 3 = (BitVec.ofInt 64 u).toNat / 2 ^ 32) :
    opMovc px py m u on f = landVec m u 2 on f (fun l => plain (BitVec.ofNat 32 (if f.ext.toNat = 0 then l else g (f.ext.toNat - 1)))) := by
  unfold opMovc
  refine congrArg (landVec m u 2 on f) (funext fun l => congrArg (fun n => plain (BitVec.ofNat 32 n)) ?_)
  generalize f.ext.toNat = e at hext
  interval_cases e
  · rfl
  · exact hpx.symm
  · exact hpy.symm
  · exact hlow.symm
  · exact hhigh.symm

/-- Settles O11: every instruction's meaning is one landing. -/
theorem integerCompareAndMoveInstructions : Obligations.IntegerCompareAndMoveInstructions := by
  unfold Obligations.IntegerCompareAndMoveInstructions
  refine ⟨fun s b p f hb => ⟨fun o ho hf => ?int, fun o ho hf => ?cmp⟩, fun s b p f hb => ⟨fun hf => ?sel, fun hf => ?bcast, fun g hf hext hg => ?movc⟩⟩
  case int => exact exec_landsLanes (exec_intOps s b p f o ho) hb (Bool.and_eq_true_iff.mpr ⟨hb, hf⟩) rfl
  case cmp => exact exec_lands (exec_cmpOps s b p f o ho) hb (Bool.and_eq_true_iff.mpr ⟨hb, hf⟩) rfl nofun
  case sel => exact exec_landsLanes rfl hb (Bool.and_eq_true_iff.mpr ⟨hb, hf⟩) rfl
  case bcast => exact exec_landsLanes rfl hb (Bool.and_eq_true_iff.mpr ⟨hb, hf⟩) rfl
  case movc =>
    obtain ⟨hpx, hpy, hlow, hhigh⟩ := hg
    exact exec_landsLanes rfl hb (Bool.and_eq_true_iff.mpr ⟨Bool.and_eq_true_iff.mpr ⟨hb, hf⟩, decide_eq_true hext⟩)
      (opMovc_eq _ _ _ _ _ _ g hext hpx hpy hlow hhigh)

/-- Settles O12: every instruction's meaning is one landing, under the latency of its row. -/
theorem floatingPointInstructions : Obligations.FloatingPointInstructions := by
  unfold Obligations.FloatingPointInstructions
  refine fun s b p f hb => ⟨fun o ho hf => ?binary, fun o ho hf => ?unary, fun hf => ?fma⟩
  case binary => exact exec_landsLanes (exec_fpOps s b p f o ho) hb (Bool.and_eq_true_iff.mpr ⟨hb, hf⟩) rfl
  case unary => exact exec_landsLanes (exec_unaryOps s b p f o ho) hb (Bool.and_eq_true_iff.mpr ⟨hb, hf⟩) rfl
  case fma => exact exec_landsLanes rfl hb (Bool.and_eq_true_iff.mpr ⟨hb, hf⟩) rfl

end Sys2Proof.Machine
end

section
/-! Conversions, reductions, CGEN, the flag instructions and the lane tuns (04 R75 to R83, 07 R145, R146). -/

namespace Sys2Proof.Machine
open Sys2Proof

/-- The reductions of R75 with their operation and the identity that masked lanes take. -/
theorem exec_reductions (s : State) (b : BayId) (p : Pred) (f : LatheF) :
    ∀ o ∈ [((Instr.rsum, fpAdd, 0x80000000#32) : (BayId → Pred → LatheF → Instr) × (Word → Word → FpOut) × Word), (Instr.rmax, fpMax, 0xFF800000#32)],
      exec (o.1 b p f) s = s.bayOp b (b.ok && f.fits useDA) (fun _ m => reduceOp m m.bay.seq.count (m.bay.isOn p) f o.2.1 o.2.2) :=
  List.forall_iff_forall_mem.mp ⟨rfl, rfl⟩

/-- Settles O13: every instruction's meaning is one landing; LFCLR's stands in the agenda's phase 0. -/
theorem conversionsReductionsAndFlags : Obligations.ConversionsReductionsAndFlags := by
  unfold Obligations.ConversionsReductionsAndFlags
  refine fun s b p f hb => ⟨fun hf => ?f2i, fun hf hfmt => ?unpack, fun hf hfmt => ?pack, fun o ho hf => ?reduce, fun hf => ?cgen, fun hf => ?lfrd, fun hf => ?lfclr⟩
  case f2i => exact exec_landsLanes rfl hb (Bool.and_eq_true_iff.mpr ⟨hb, hf⟩) rfl
  case unpack => exact exec_landsLanes rfl hb (Bool.and_eq_true_iff.mpr ⟨Bool.and_eq_true_iff.mpr ⟨hb, hf⟩, hfmt⟩) rfl
  case pack => exact exec_lands rfl hb (Bool.and_eq_true_iff.mpr ⟨Bool.and_eq_true_iff.mpr ⟨hb, hf⟩, hfmt⟩) rfl nofun
  case reduce => exact exec_lands (exec_reductions s b p f o ho) hb (Bool.and_eq_true_iff.mpr ⟨hb, hf⟩) rfl nofun
  case cgen => exact exec_lands rfl hb (Bool.and_eq_true_iff.mpr ⟨hb, hf⟩) rfl nofun
  case lfrd => exact exec_lands rfl hb (Bool.and_eq_true_iff.mpr ⟨hb, hf⟩) rfl nofun
  case lfclr =>
    refine exec_upd rfl hb (Bool.and_eq_true_iff.mpr ⟨hb, hf⟩) (landAt_lfclr { bay := s.bay b, out := [] } p) ?_
    split <;> rfl

/-- TSUM's breach of another anchor joins the one that the combination found (R76). -/
theorem opTsum_eq (m : BayM) (u : Int) (on : Bool) (f : LatheF) :
    opTsum m u on f = landAt m u 8 on (.tsum (f.d % 8)
      (let ts := (List.range 128).map (fun l => m.bay.lathe.ltun (f.a % 8) l)
       let t := (m.bay.lathe.ltun (f.a % 8) 0).anchor
       { combine ts t with anchorBreach := (combine ts t).anchorBreach || ts.any (fun v => decide (v.anchor ≠ t)) })) := by
  unfold opTsum
  dsimp only
  split
  · next hany => simp only [hany, Bool.or_true]
  · next hany => simp only [hany, Bool.or_false]

/-- Settles O14: every instruction's meaning is one landing. -/
theorem laneTunInstructions : Obligations.LaneTunInstructions := by
  unfold Obligations.LaneTunInstructions
  refine fun s b p f hb => ⟨fun hf hanchor => ?tclr, fun hf => ?tacc, fun hf => ?tmac, fun hf => ?xsum, fun hf => ?tsum, fun hf hfmt hmx => ?tdrain⟩
  case tclr => exact exec_lands rfl hb (Bool.and_eq_true_iff.mpr ⟨Bool.and_eq_true_iff.mpr ⟨hb, hf⟩, hanchor⟩) rfl nofun
  case tacc => exact exec_lands rfl hb (Bool.and_eq_true_iff.mpr ⟨hb, hf⟩) rfl nofun
  case tmac => exact exec_lands rfl hb (Bool.and_eq_true_iff.mpr ⟨hb, hf⟩) rfl nofun
  case xsum => exact exec_lands rfl hb (Bool.and_eq_true_iff.mpr ⟨hb, hf⟩) rfl nofun
  case tsum => exact exec_lands rfl hb (Bool.and_eq_true_iff.mpr ⟨hb, hf⟩) (opTsum_eq _ _ _ _) nofun
  case tdrain =>
    have hnotMx : (!mxFmt (BitVec.ofNat 4 f.vb.toNat)) = true := by rw [hmx]; rfl
    exact exec_lands rfl hb (Bool.and_eq_true_iff.mpr ⟨Bool.and_eq_true_iff.mpr ⟨Bool.and_eq_true_iff.mpr ⟨hb, hf⟩, hfmt⟩, hnotMx⟩) rfl nofun

end Sys2Proof.Machine
end

section
/-! VLD, VST, TLOADC and TSTORE (04 R66, R76, 05 R89, 07 R144). -/

namespace Sys2Proof.Machine
open Sys2Proof

/-- Settles O15: each only adds its accesses to the bay's. -/
theorem latheVatAccesses : Obligations.LatheVatAccesses := by
  unfold Obligations.LatheVatAccesses
  refine fun s b p f hb => ⟨fun hf => ?vld, fun hf => ?vst, fun hf => ?tloadc, fun hf => ?tstore⟩
  case vld => exact exec_upd rfl hb (Bool.and_eq_true_iff.mpr ⟨hb, hf⟩) rfl rfl
  case vst => exact exec_upd rfl hb (Bool.and_eq_true_iff.mpr ⟨hb, hf⟩) rfl rfl
  case tloadc => exact exec_upd rfl hb (Bool.and_eq_true_iff.mpr ⟨hb, hf⟩) rfl rfl
  case tstore => exact exec_upd rfl hb (Bool.and_eq_true_iff.mpr ⟨hb, hf⟩) rfl rfl

end Sys2Proof.Machine
end

section
/-! Corner results of binary32 (04 R68 to R71). -/

namespace Sys2Proof.Machine
open Sys2Proof

/-- Settles O17: closed words, so the model's own evaluation gives each result. -/
theorem binary32CornerResults : Obligations.Binary32CornerResults := by
  unfold Obligations.Binary32CornerResults
  decide

end Sys2Proof.Machine
end

section
/-! One granule written to a vat in the write modes of its bank (05 R87, R93, R96). -/

namespace Sys2Proof.Machine
open Sys2Proof

/-- What a write has done before its first granule. -/
def WrRes.start (v : Vat) : WrRes := { vat := v, combine := false, ue := [], nce := 0 }

section
variable (addr : Nat) (d : Chunk) (fuel i : Nat) (r : WrRes)

/-- The address of granule i of a write; vat addresses wrap. -/
def wrAddr (addr i : Nat) : Nat := (addr + 8 * i) % 2 ^ 23

/-- Past its bytes a write does nothing more. -/
theorem writeGo_past (h : d.bytes.length ≤ 8 * i) : writeGo addr d fuel i r = r := by
  cases fuel with
  | zero => rfl
  | succ n => exact if_pos h
/-- A granule of a bank in mode 0 is stored. -/
theorem writeGo_plain (h : 8 * i < d.bytes.length) (hm : (r.vat.bank (bankOf (wrAddr addr i))).mode = 0#3) :
    writeGo addr d (fuel + 1) i r =
      writeGo addr d fuel (i + 1) { r with vat := r.vat.putGran (wrAddr addr i) (Bytes.slice d.bytes (8 * i) 8) (d.bad.contains i) } := by
  unfold wrAddr at hm
  simp only [writeGo, hm, if_neg (Nat.not_le.mpr h)]
  rfl
/-- One of a bank in a mode above TUN_ADD is accumulated. -/
theorem writeGo_accumulates (h : 8 * i < d.bytes.length) (hm : 2 ≤ (r.vat.bank (bankOf (wrAddr addr i))).mode.toNat) :
    writeGo addr d (fuel + 1) i r = writeGo addr d fuel (i + 1)
      (accGran (r.vat.bank (bankOf (wrAddr addr i))).mode r (wrAddr addr i) (Bytes.slice d.bytes (8 * i) 8) (d.bad.contains i)) := by
  unfold wrAddr at hm ⊢
  simp only [writeGo, if_neg (Nat.not_le.mpr h)]
  split
  · omega
  · omega
  · rfl
end

section
variable {v : Vat} {a : Nat} {bytes : Bytes} (hlen : bytes.length = 8) (ha : a + 8 ≤ 2 ^ 23)
include hlen ha

theorem Vat.writeChunk_plain (hm : (v.bank (bankOf a)).mode = 0#3) :
    v.writeChunk a { bytes := bytes, bad := [] } = { WrRes.start v with vat := v.putGran a bytes false } := by
  have haddr : wrAddr a 0 = a := Nat.mod_eq_of_lt (by omega)
  have hslice : Bytes.slice bytes (8 * 0) 8 = bytes := List.take_of_length_le (Nat.le_of_eq hlen)
  rw [Vat.writeChunk, hlen, writeGo_plain _ _ _ _ _ (by simp [hlen]) (by rwa [haddr]), writeGo_past _ _ _ _ _ (by simp [hlen]), haddr, hslice]
  rfl
theorem Vat.writeChunk_accumulates (hm : 2 ≤ (v.bank (bankOf a)).mode.toNat) :
    v.writeChunk a { bytes := bytes, bad := [] } = accGran (v.bank (bankOf a)).mode (WrRes.start v) a bytes false := by
  have haddr : wrAddr a 0 = a := Nat.mod_eq_of_lt (by omega)
  have hslice : Bytes.slice bytes (8 * 0) 8 = bytes := List.take_of_length_le (Nat.le_of_eq hlen)
  rw [Vat.writeChunk, hlen, writeGo_accumulates _ _ _ _ _ (by simp [hlen]) (by rwa [haddr]), writeGo_past _ _ _ _ _ (by simp [hlen]), haddr, hslice]
  rfl
end

/-- What an accumulating write makes of word i of a granule, with the flags it sets (05 R93, R96). -/
def Vat.accWord (v : Vat) (mode : BitVec 3) (a : Nat) (bytes : Bytes) (i : Nat) : Word × BitVec 4 :=
  accElem mode (BitVec.ofNat 32 (Mem.readLe v.mem (a + 4 * i) 4)) (BitVec.ofNat 32 (Bytes.leAt bytes (4 * i) 4))

/-- A clean granule takes its two accumulated words, and VFLAGS the flags of both. -/
theorem accGran_clean (mode : BitVec 3) (r : WrRes) (a : Nat) (bytes : Bytes) (hc : r.vat.granCode (granOf a) = 0) :
    (accGran mode r a bytes false).vat.mem =
      Mem.writeBytes r.vat.mem a (natLe 4 (r.vat.accWord mode a bytes 0).1.toNat ++ natLe 4 (r.vat.accWord mode a bytes 1).1.toNat) ∧
    (accGran mode r a bytes false).vat.vflags = r.vat.vflags ||| (r.vat.accWord mode a bytes 0).2 ||| (r.vat.accWord mode a bytes 1).2 := by
  simp only [accGran, hc]
  exact ⟨rfl, rfl⟩

theorem accElem_fp32Add (old new : Word) : accElem 2#3 old new = ((fpAdd old new).val, vflagsOf (fpAdd old new).fl) := rfl
theorem accElem_int32Add (old new : Word) : accElem 3#3 old new = (old + new, 0#4) := rfl

/-- Settles O19: one granule stored as it is, or accumulated word by word. -/
theorem vatWritesByMode : Obligations.VatWritesByMode := by
  unfold Obligations.VatWritesByMode
  intro v a bytes hwf hlen _ ha
  dsimp only
  refine ⟨fun hm => ?plain, fun hc => ⟨fun hm => ?fp32Add, fun hm => ?int32Add⟩⟩
  case plain =>
    rw [Vat.writeChunk_plain hlen ha hm]
    exact ⟨rfl, rfl, fun k hk => Mem.read_writeBytes_ne bytes v.mem a k hwf (by omega)⟩
  case fp32Add =>
    rw [Vat.writeChunk_accumulates hlen ha (by rw [hm]; decide), hm]
    have hacc := accGran_clean 2#3 (WrRes.start v) a bytes hc
    simp only [Vat.accWord, accElem_fp32Add] at hacc
    exact hacc
  case int32Add =>
    rw [Vat.writeChunk_accumulates hlen ha (by rw [hm]; decide), hm]
    have hacc := accGran_clean 3#3 (WrRes.start v) a bytes hc
    simp only [Vat.accWord, accElem_int32Add, BitVec.or_zero] at hacc
    exact hacc

end Sys2Proof.Machine
end

section
/-! The mover's and the banks' instructions at issue, and the sleep or wake of a bank that has come due (05 R91, R92, R95 to R98, 07 R147, R149). -/

namespace Sys2Proof.Machine
open Sys2Proof

/-- STATE of VPOWER, case by case (07 R147). -/
theorem powerOf_eq (st : BitVec 2) : powerOf st = if st = 0#2 then .active else if st = 1#2 then .nap else if st = 2#2 then .retain else .off := by
  revert st
  decide

/-- VPOWER gives each bank that it selects its pending sleep or wake. -/
theorem exec_vpower (s : State) (b : BayId) (sel : BitVec 14) (st : BitVec 2) (reg : Bool) (hb : b.ok = true) (hsel : selOk sel reg = true) :
    exec (.vpower b sel st reg) s = .next (s.modBay b (fun x => (x.selBanks sel reg).foldl (vpowerBank x.seq.count (powerOf st)) x)) :=
  exec_upd rfl hb (Bool.and_eq_true_iff.mpr ⟨hb, hsel⟩) rfl (opVpower_frame { bay := s.bay b, out := [] } _ sel st reg).1

/-- An agenda of one entry, which is due and is asked for: it leaves the agenda and has its effect. -/
theorem runDue_single (m : BayM) (c : Int) (sel : Due → Bool) (d : Due) (ha : m.bay.agenda = [d]) (hd : d.at_ ≤ c) (hsel : sel d = true) :
    runDue m c sel = runEvent (m.upd (fun x => { x with agenda := [] })) d := by
  simp [runDue, ha, hd, hsel, BayM.upd]

/-- A bank whose sleep is due is in its sleep state; OFF loses its contents (05 R98). -/
def Vat.asleep (v : Vat) (k : Nat) (pw : BankPower) : Vat :=
  let w := v.setBank k { v.bank k with power := pw, sleep := none }
  if pw = .off then w.clearBank k else w
/-- A bank whose wake is due is ACTIVE (05 R97). -/
def Vat.awoken (v : Vat) (k : Nat) : Vat := v.setBank k { v.bank k with power := .active, wakeAt := none }

theorem Vat.sleepNow_due (v : Vat) (k : Nat) (pw : BankPower) (c : Int) (h : (v.bank k).sleep = some (pw, c)) : v.sleepNow k c = v.asleep k pw := by
  simp only [Vat.sleepNow, h, Int.le_refl, if_true]
  rfl
theorem Vat.wakeNow_due (v : Vat) (k : Nat) (c : Int) (h : (v.bank k).wakeAt = some c) : v.wakeNow k c = v.awoken k := by
  simp only [Vat.wakeNow, h, Int.le_refl, if_true]
  rfl

section
variable {s : State} {b : BayId} {k : Nat} {c : Int} (hb : b.ok = true) (hc : c ≤ (s.bay b).seq.count)
include hb hc

theorem exec_bankSleep_due {pw : BankPower} (ha : (s.bay b).agenda = [{ at_ := c, phase := 0, ev := .bankSleep k }])
    (hk : ((s.bay b).vat.bank k).sleep = some (pw, c)) :
    exec (.bankSleep b) s = .next (s.modBay b (fun x => { x with agenda := [], vat := x.vat.asleep k pw })) := by
  refine exec_upd rfl hb rfl ((runDue_single _ _ _ _ ha hc rfl).trans ?_) rfl
  simp only [runEvent, BayM.upd, Vat.sleepNow_due _ _ _ _ hk]
theorem exec_bankWake_due (ha : (s.bay b).agenda = [{ at_ := c, phase := 0, ev := .bankWake k }]) (hk : ((s.bay b).vat.bank k).wakeAt = some c) :
    exec (.bankWake b) s = .next (s.modBay b (fun x => { x with agenda := [], vat := x.vat.awoken k })) := by
  refine exec_upd rfl hb rfl ((runDue_single _ _ _ _ ha hc rfl).trans ?_) rfl
  simp only [runEvent, BayM.upd, Vat.wakeNow_due _ _ _ hk]
end

/-- Settles O18: each instruction changes its bay alone, and the one event of the agenda takes effect. -/
theorem vatInstructionsAndPowerStates : Obligations.VatInstructionsAndPowerStates := by
  unfold Obligations.VatInstructionsAndPowerStates
  refine ⟨fun s b hb => ⟨fun p k n => ?vfillPattern, fun p k n => ?vfillTun, fun p k n => ?vcopy, fun sel md reg hsel hmd => ?vmode, fun sel st reg hsel => ?vpower⟩,
    fun s b k c hb hc => ⟨fun pw ha hk => exec_bankSleep_due hb hc ha hk, fun ha hk => exec_bankWake_due hb hc ha hk⟩⟩
  case vfillPattern => exact exec_upd rfl hb hb rfl rfl
  case vfillTun => exact exec_upd rfl hb hb rfl rfl
  case vcopy => exact exec_upd rfl hb hb rfl rfl
  case vmode =>
    have hwf : (b.ok && selOk sel reg && decide (md.toNat ≤ 4)) = true := by simp only [hb, hsel, hmd, decide_true, Bool.and_self]
    exact exec_upd rfl hb hwf rfl rfl
  case vpower =>
    rw [← powerOf_eq]
    exact exec_vpower s b sel st reg hb hsel

end Sys2Proof.Machine
end

section
/-! The cask messages (17 R354, R362, 18 R382): what each does and answers. -/

namespace Sys2Proof.Machine
open Sys2Proof

theorem State.received_cask (s : State) (rq : Requester) (c : Nat) : (s.received rq).cask c = s.cask c := by cases rq <;> rfl

/-- A request of a port is none of the sideband's. -/
theorem State.takes_of_port {s : State} {rq : Requester} (h : s.fromPort rq = true) : s.takes rq = true ∧ isSideband rq = false := by
  obtain ⟨htakes, hport⟩ := Bool.and_eq_true_iff.mp h
  cases rq with
  | sideband => cases hport
  | slot | entry => exact ⟨htakes, rfl⟩

/-- A message without a feature needs none. -/
theorem State.featureFree (s : State) {m : MsgInfo} (h : m.feature = none) : ∀ k, m.feature = some k → s.hasFeature k = true :=
  fun _ hk => nomatch h.symm.trans hk
/-- One without a parcel needs none that is live. -/
theorem State.parcelFree (s : State) {m : MsgInfo} (p : Nat) (h : m.parcel = false) : m.parcel = true → p < 4 ∧ (s.parcel p).live = true :=
  fun hm => nomatch h.symm.trans hm

/- The effect of each message, in the state in which it is served. -/
section
variable (s : State) (rq : Requester) (p : Nat)

theorem hWindowSet_maps {page rc gib : Nat} (hpage : page ≤ 255) (hgib : gib ≤ 127) (hc : ((s.parcel p).absCask rc).isSome = true) :
    hWindowSet rq p page rc gib s =
      replies (s.modPort ((requesterPort rq).getD 0) (fun q => { q with win := Sparse.set 0#32 q.win page (winWord p rc gib) })) Ans.ok := by
  have hok : ¬(255 < page ∨ 127 < gib ∨ ((s.parcel p).absCask rc).isNone = true) := by
    simp [Option.isNone_eq_false_iff.mpr hc, hpage, hgib]
  exact if_neg hok
theorem hWindowClear_clears {page : Nat} (hpage : page ≤ 255) :
    hWindowClear rq p page s = replies (s.modPort ((requesterPort rq).getD 0) (fun q => { q with win := clearWin p page q.win })) Ans.ok :=
  if_neg (Nat.not_lt.mpr hpage)
theorem hRegionClose_reads {rc base c : Nat} {r : Region} (hc : (s.parcel p).absCask rc = some c) (hr : (s.cask c).weightAt base = some r) :
    hRegionClose rq p rc base s = ((s.closeRegion c r).await rq 0x0404 p (.digest c base), none) := by
  simp only [hRegionClose, hc, hr]
theorem hStaveFail_copies {c st : Nat} (hc : c < 20) (hst : st < 17) (hcopy : ((s.staveFails c st).cask c).copying = some st) :
    hStaveFail c st s = replies (s.staveFails c st) Ans.ok := by
  have hok : ¬(20 ≤ c ∨ 17 ≤ st) := by omega
  simp only [hStaveFail, if_neg hok, hcopy, if_true]
theorem hCaskStatus_parcel {c : Nat} (hp : p < 4) (hc : (s.parcel p).casks.contains c = true) :
    hCaskStatus p c s = replies s { status := 0, payload := (s.cask c).statusBytes } := by
  have hne : p ≠ 0xFF := by omega
  simp only [hCaskStatus, if_neg hne, hc, if_true]
theorem hCaskStatus_module {c : Nat} (hc : c < 20) : hCaskStatus 0xFF c s = replies s { status := 0, payload := (s.cask c).statusBytes } := by
  simp only [hCaskStatus, if_true, if_neg (Nat.not_le.mpr hc)]

/-- The first entry of a list, unless it is a MSG entry: its write-back, and its status unless EFLAG bit 0 lets the list go on (17 R362). -/
theorem CutRun.start_entry (port : Nat) (e : CutEntry) (f : State → State × Nat × Nat) (hk : e.kind ≠ 3#8) :
    (CutRun.start s port).entry e f =
      { s := (f s).1.emitPort port (.dmaWrite port (e.addr + 32) (writeBack (f s).2.1 (f s).2.2)), port := port, done := 1
        fail := if (f s).2.1 = 0 then 0xFFFF else 0, status := if e.eflag.getLsbD 0 then 0 else (f s).2.1
        stopped := decide ((f s).2.1 ≠ 0) && !e.eflag.getLsbD 0 } := by
  simp only [CutRun.start, CutRun.entry, if_neg hk, Bool.false_eq_true, if_false, Nat.zero_add]
  by_cases hst : (f s).2.1 = 0
  · simp [hst]
  · cases e.eflag.getLsbD 0 <;> simp [hst]

/-- A transfer of one entry whose cask is closed to the gateway waits (09 R196). -/
theorem hTransfer_held {e : CutEntry} (hh : s.entryHeld p e = true) :
    hTransfer rq p [e] s = (s.await rq 0x0403 p (.transfer 0 0xFFFF [e]), none) := by
  simp [hTransfer, transferGo, CutRun.start, hh]
theorem hTransfer_segIn {e : CutEntry} (hk : e.kind = 1#8) (hh : s.entryHeld p e = false) :
    hTransfer rq p [e] s =
      let y := s.segIn p e
      let port := (requesterPort rq).getD 0
      replies (y.1.emitPort port (.dmaWrite port (e.addr + 32) (writeBack y.2.1 y.2.2)))
        { status := if e.eflag.getLsbD 0 then 0 else y.2.1, cutDone := 1, cutFail := if y.2.1 = 0 then 0xFFFF else 0 } := by
  have hgo : transferGo rq p [e] (CutRun.start s ((requesterPort rq).getD 0)) =
      ((CutRun.start s ((requesterPort rq).getD 0)).entry e (fun s => s.segIn p e), []) := by
    simp [transferGo, CutRun.start, hh, hk]
  have hmsg : e.kind ≠ 3#8 := by rw [hk]; decide
  simp only [hTransfer]
  rw [hgo, CutRun.start_entry _ _ _ _ hmsg]
  simp only [CutRun.ans, ite_self]
end

/- The messages as commands. -/
section
variable {s : State} {rq : Requester} {p : Nat}

theorem exec_caskWindowSet {page rc gib : Nat} (ho : s.fromOwner rq p = true) (hpage : page ≤ 255) (hgib : gib ≤ 127)
    (hc : ((s.parcel p).absCask rc).isSome = true) :
    exec (.caskWindowSet rq p page rc gib) s =
      s.ok ((s.received rq).modPort (s.parcel p).owner (fun q => { q with win := Sparse.set 0#32 q.win page (winWord p rc gib) })) rq 0x0401 p [] := by
  obtain ⟨_, _, _, _, hport⟩ := State.takes_of_owner ho
  change execCaskWindowSet rq p page rc gib s = _
  rw [execCaskWindowSet, State.request_owner s rq miWindowSet _ _ _ ho rfl rfl (s.featureFree rfl),
    hWindowSet_maps _ _ _ hpage hgib (by rwa [State.received_parcel]), hport]
  rfl

theorem exec_caskWindowClear {page : Nat} (hf : s.fromPort rq = true) (hpage : page ≤ 255) (hp : p = 0xFF ∨ (p < 4 ∧ (s.parcel p).live = true)) :
    exec (.caskWindowClear rq p page) s =
      s.ok ((s.received rq).modPort ((requesterPort rq).getD 0) (fun q => { q with win := clearWin p page q.win })) rq 0x0402 p [] := by
  obtain ⟨htakes, hside⟩ := State.takes_of_port hf
  have hlive : (miWindowClear p).parcel = true → p < 4 ∧ (s.parcel p).live = true := fun hn => hp.resolve_left (of_decide_eq_true hn)
  change execCaskWindowClear rq p page s = _
  rw [execCaskWindowClear, State.request_any s rq (miWindowClear p) _ _ _ htakes rfl (by simp [hside]) (by simp [hside, miWindowClear]) (hp.symm.imp And.left id) hlive (s.featureFree rfl),
    hWindowClear_clears _ _ _ hpage]
  rfl

/-- A transfer whose list is neither empty nor too long is served as a request. -/
theorem execCaskTransfer_request (s : State) (rq : Requester) (p : Nat) (cut : List CutEntry) (h : cut ≠ []) (h' : cut.length ≤ 4096) :
    execCaskTransfer rq p cut s = s.request rq miTransfer p (hTransfer rq p cut) (.caskTransfer rq p cut) := by
  have hok : ¬((!isSideband rq) = true ∧ (cut = [] ∨ 4096 < cut.length)) := fun hn => hn.2.elim h (by omega)
  simp only [execCaskTransfer, if_neg hok]
  rfl
theorem exec_caskTransfer_one (e : CutEntry) (s : State) (rq : Requester) (p : Nat) :
    exec (.caskTransfer rq p [e]) s = s.request rq miTransfer p (hTransfer rq p [e]) (.caskTransfer rq p [e]) :=
  execCaskTransfer_request s rq p [e] (List.cons_ne_nil _ _) (by simp)
theorem exec_caskTransfer_held {e : CutEntry} (ho : s.fromOwner rq p = true) (hh : (s.received rq).entryHeld p e = true) :
    exec (.caskTransfer rq p [e]) s = .next ((s.received rq).await rq 0x0403 p (.transfer 0 0xFFFF [e])) := by
  rw [exec_caskTransfer_one, State.request_owner s rq miTransfer _ _ _ ho rfl rfl (s.featureFree rfl), hTransfer_held _ _ _ hh]
theorem exec_caskTransfer_segIn {e : CutEntry} (ho : s.fromOwner rq p = true) (hk : e.kind = 1#8) (hh : (s.received rq).entryHeld p e = false) :
    exec (.caskTransfer rq p [e]) s =
      let y := (s.received rq).segIn p e
      let own := (s.parcel p).owner
      s.withAnswer (y.1.emitPort own (.dmaWrite own (e.addr + 32) (writeBack y.2.1 y.2.2))) rq 0x0403 p
        { status := if e.eflag.getLsbD 0 then 0 else y.2.1, cutDone := 1, cutFail := if y.2.1 = 0 then 0xFFFF else 0 } := by
  obtain ⟨_, _, _, _, hport⟩ := State.takes_of_owner ho
  rw [exec_caskTransfer_one, State.request_owner s rq miTransfer _ _ _ ho rfl rfl (s.featureFree rfl), hTransfer_segIn _ _ _ hk hh, hport]
  rfl

theorem exec_caskRegionClose {rc base c : Nat} {r : Region} (ho : s.fromOwner rq p = true) (hc : (s.parcel p).absCask rc = some c)
    (hr : (s.cask c).weightAt base = some r) :
    exec (.caskRegionClose rq p rc base) s = .next (((s.received rq).closeRegion c r).await rq 0x0404 p (.digest c base)) := by
  change execCaskRegionClose rq p rc base s = _
  rw [execCaskRegionClose, State.request_owner s rq miRegionClose _ _ _ ho rfl rfl (s.featureFree rfl),
    hRegionClose_reads _ _ _ (by rwa [State.received_parcel]) (by rwa [State.received_cask])]

theorem exec_caskStaveFail {c st : Nat} (hf : s.fromPrincipal rq = true) (hc : c < 20) (hst : st < 17)
    (hcopy : (((s.received rq).staveFails c st).cask c).copying = some st) :
    exec (.caskStaveFail rq c st) s = s.ok ((s.received rq).staveFails c st) rq 0x0405 0xFF [] := by
  change execCaskStaveFail rq c st s = _
  rw [execCaskStaveFail, State.request_principal s rq miStaveFail _ _ _ hf rfl rfl (.inr rfl) (s.parcelFree _ rfl) (s.featureFree rfl), hStaveFail_copies _ hc hst hcopy]
  rfl

theorem State.miCaskStatus_parcel (s : State) (rq : Requester) (hp : p < 4) : s.miCaskStatus rq p = { code := 0x0406, scope := .ownerOrPrincipal } := by
  have hne : p ≠ 0xFF := by omega
  simp [State.miCaskStatus, hne]
theorem State.miCaskStatus_module (hf : s.fromPrincipal rq = true) : s.miCaskStatus rq 0xFF = { code := 0x0406, scope := .any, parcel := false } := by
  obtain ⟨_, _, k, hport, hk⟩ := State.takes_of_principal hf
  simp [State.miCaskStatus, hport, hk]
theorem exec_caskStatus_parcel {c : Nat} (hf : s.fromEither rq p = true) (hc : (s.parcel p).casks.contains c = true) :
    exec (.caskStatus rq p c) s = s.ok (s.received rq) rq 0x0406 p (s.cask c).statusBytes := by
  obtain ⟨_, hp, _⟩ := State.takes_of_either hf
  change execCaskStatus rq p c s = _
  rw [execCaskStatus, s.miCaskStatus_parcel rq hp, State.request_either s rq { code := 0x0406, scope := .ownerOrPrincipal } _ _ _ hf rfl rfl (s.featureFree rfl),
    hCaskStatus_parcel _ _ hp (by rwa [State.received_parcel]), State.received_cask]
  rfl
theorem exec_caskStatus_module {c : Nat} (hf : s.fromPrincipal rq = true) (hc : c < 20) :
    exec (.caskStatus rq 0xFF c) s = s.ok (s.received rq) rq 0x0406 0xFF (s.cask c).statusBytes := by
  obtain ⟨htakes, hside, _⟩ := State.takes_of_principal hf
  change execCaskStatus rq 0xFF c s = _
  rw [execCaskStatus, State.miCaskStatus_module hf, State.request_any s rq { code := 0x0406, scope := .any, parcel := false } _ _ _ htakes rfl (by simp [hside]) (by simp) (.inr rfl) (s.parcelFree _ rfl) (s.featureFree rfl),
    hCaskStatus_module _ hc, State.received_cask]
  rfl
end

end Sys2Proof.Machine
end

section
/-! What the sills and the scrubbers do of their own (05 R103, 06 R106, 09 R193, R197 to R199), and the statement about the casks. -/

namespace Sys2Proof.Machine
open Sys2Proof

/-- With nobody waiting an answer goes to nobody. -/
theorem State.answerWaits_none (s : State) (pick : Wait → Bool) (a : Ans) (h : s.waits = []) : s.answerWaits pick a = s := by
  cases s
  cases h
  rfl

/-- A region whose digest computation has ended: void after a write in the meantime, else the SHA-384 of its bytes (09 R197). -/
def Cask.digested (k : Cask) (r : Region) : Region :=
  if r.written then { r with closing := false, written := false, digestValid := false }
  else { r with closing := false, digest := sha384Val (k.regionBytes r).1, digestValid := true }

/-- What patrol scrub counts of a piece that it reads (09 R199). -/
def State.patrolFound (s : State) (c : Nat) : PieceErr → State
  | .symbolCorrected st => (s.symbolCorrected c st).caskCount c ckScrubFixed 1
  | .late => s
  | e => s.findingCounts c e

section
variable {s : State} {c : Nat} (hc : c < 20)
include hc

theorem exec_regionDigestDone {base : Nat} {r : Region} (hr : (s.cask c).weightAt base = some r) (hclosing : r.closing = true) (hw : s.waits = []) :
    exec (.regionDigestDone c base) s = .next (s.modCask c (fun k => { k with regions := setRegion k.regions ((s.cask c).digested r) })) := by
  change execRegionDigestDone c base s = _
  cases hwr : r.written <;> simp [execRegionDigestDone, Nat.not_le.mpr hc, hr, hclosing, hwr, State.answerWaits_none, hw, Cask.digested]

theorem exec_staveFailing {st : Nat} (why : StaveCause) (hst : st < 17) : exec (.staveFailing c st why) s = .next (s.staveFails c st) := by
  have hok : ¬(20 ≤ c ∨ 17 ≤ st) := by omega
  change execStaveFailing c st why s = _
  simp only [execStaveFailing, if_neg hok]
theorem exec_staveSpared : exec (.staveSpared c) s = .next (if s.restNow c then s.staveSpared c else s) := by
  change execStaveSpared c s = _
  simp only [execStaveSpared, if_neg (Nat.not_le.mpr hc)]

/- A ledger above 4,096 forces refresh until it is back at 0, and is reported when that begins (09 R193). -/
section
variable (n : Nat) (late : Bool)

theorem exec_restStarved_unforced (h : s.fieldRuns (c / 2) = false ∨ ((s.cask c).forced = false ∧ (s.cask c).ledger ≤ 4096)) :
    exec (.restStarved c n late) s = .next s := by
  change execRestStarved c n late s = _
  rcases h with hr | ⟨hf, hl⟩
  · simp [execRestStarved, Nat.not_le.mpr hc, hr]
  · simp [execRestStarved, Nat.not_le.mpr hc, hf, hl]
theorem exec_restStarved_forced (hr : s.fieldRuns (c / 2) = true) (hf : (s.cask c).forced = true) :
    exec (.restStarved c n late) s = .next ((s.modCask c (fun k => { k with forced := true, delays := late })).caskCount c ckForced n) := by
  change execRestStarved c n late s = _
  simp [execRestStarved, Nat.not_le.mpr hc, hr, hf]
theorem exec_restStarved_begins (hr : s.fieldRuns (c / 2) = true) (hf : (s.cask c).forced = false) (hl : 4096 < (s.cask c).ledger) :
    exec (.restStarved c n late) s =
      let u := (s.modCask c (fun k => { k with forced := true, delays := late })).caskCount c ckForced n
      let at_ := (u.islandCount (c / 2)).toNat
      .next (u.report { code := 0x0404, parcel := u.parcelOfCask c, count := at_, unit := 0x05, idx := c, cask := some c,
                        detail := [(1, c), (4, (s.cask c).ledger), (8, at_)] }) := by
  change execRestStarved c n late s = _
  simp [execRestStarved, Nat.not_le.mpr hc, hr, hf, hl]
end

theorem exec_patrolScrub {off : Nat} (err : PieceErr) (hoff : off < 32 * chanSpan) (hrails : (s.cask c).rails = true) (hrest : s.restNow c = true) :
    exec (.patrolScrub c off err) s = .next (s.patrolFound c err) := by
  have hok : ¬(20 ≤ c ∨ 32 * chanSpan ≤ off) := by omega
  change execPatrolScrub c off err s = _
  simp only [execPatrolScrub, if_neg hok, hrails, hrest]
  rfl
end

/-- What a stave does that becomes failing, or is failing already (09 R198). -/
theorem State.staveFails_eq (s : State) (c st : Nat) : s.staveFails c st =
    let old := (s.cask c).failing.contains st
    let u := if old then s else (s.modCask c (fun x => { x with failing := x.failing ++ [st] })).modEsc (fun e => { e with staves := e.staves ++ [(c, st)] })
    if (s.cask c).canCopy st then u.modCask c (fun x => { x with copying := some st })
    else if old then s
    else u.report { code := 0x0409, parcel := u.parcelOfCask c, unit := 0x05, idx := c, stave := some st } := by
  simp only [State.staveFails]
  cases (s.cask c).failing.contains st <;> rfl
theorem State.staveSpared_copying (s : State) (c : Nat) {st : Nat} (h : (s.cask c).copying = some st) : s.staveSpared c =
    (s.modCask c (fun x => { x with copying := none, reserve := none, failing := x.failing.filter (fun y => y ≠ st) })).caskCount c ckSpared 1 := by
  simp only [State.staveSpared, h]

theorem exec_vatRetentionScrub (s : State) (b : BayId) (ce ue : List Nat) (hb : b.ok = true) :
    exec (.vatRetentionScrub b ce ue) s = .next (if s.scrubs b then s.modBay b (fun x => x.retentionScrub ce ue) else s) := by
  change execVatRetentionScrub b ce ue s = _
  simp only [execVatRetentionScrub, hb, Bool.not_true, Bool.false_eq_true, if_false]
theorem exec_planScrub (s : State) (b : BayId) (ce ue : Nat) (hb : b.ok = true) : exec (.planScrub b ce ue) s = .next s := by
  change execPlanScrub b ce ue s = _
  simp only [execPlanScrub, hb, Bool.not_true, Bool.false_eq_true, if_false]

/-- Settles O40: each message by its handler, each event by its row. -/
theorem caskMessagesAndEvents : Obligations.CaskMessagesAndEvents := by
  unfold Obligations.CaskMessagesAndEvents
  intro s rq p
  refine ⟨fun page rc gib ho hpage hgib hc => exec_caskWindowSet ho hpage hgib hc, fun page hf hpage hp => exec_caskWindowClear hf hpage hp,
    fun e ho _ hh => exec_caskTransfer_held ho hh, fun e ho hk hh => exec_caskTransfer_segIn ho hk hh, fun rc base c r ho hc hr => exec_caskRegionClose ho hc hr,
    fun c base r hc hr hclosing hw => exec_regionDigestDone hc hr hclosing hw, fun c st hf hc hst hcopy => exec_caskStaveFail hf hc hst hcopy,
    fun c hf hc => exec_caskStatus_parcel hf hc, fun c hf hc => exec_caskStatus_module hf hc, fun c st why hc hst => ?staveFailing, fun c hc hrest => ?staveKept,
    fun c st hc hrest hcopy => ?staveSpared, fun c n late hc => ⟨exec_restStarved_unforced hc n late, exec_restStarved_forced hc n late, exec_restStarved_begins hc n late⟩,
    fun b ce ue hb hv hr => ⟨?retention, fun n k => exec_planScrub s b n k hb⟩, fun c off hc hoff hrails hrest => ?patrol⟩
  case staveFailing => rw [exec_staveFailing hc why hst, State.staveFails_eq]
  case staveKept => rw [exec_staveSpared hc, hrest]; rfl
  case staveSpared => rw [exec_staveSpared hc, if_pos hrest, s.staveSpared_copying c hcopy]
  case retention =>
    have hscrubs : s.scrubs b = true := by simp only [State.scrubs, hv, hr, Bool.not_false, Bool.and_self]
    rw [exec_vatRetentionScrub s b ce ue hb, if_pos hscrubs]
  case patrol =>
    have hrow := fun err => exec_patrolScrub hc err hoff hrails hrest
    exact ⟨hrow _, hrow _, fun st => hrow _⟩

end Sys2Proof.Machine
end

section
/-! Index and predicate registers: when a write falls due and what it does when it lands (06 R114, R118, R119). -/

namespace Sys2Proof.Machine
open Sys2Proof

/-- A register reads as what was last written to it (06 R114). -/
theorem Bay.idxReg_setIdx (x : Bay) (k j : Nat) (v : Word) (h : Sparse.wf 0#32 x.seq.idx = true) :
    (x.setIdx k v).idxReg j = if j = k then v else x.idxReg j := Sparse.get_set 0#32 x.seq.idx k j v h

/-- So does a predicate other than Q0, which reads as 1 whatever is written (06 R118). -/
theorem Bay.predReg_setPred (x : Bay) (q j : Nat) (v : Bool) (h : Sparse.wf false x.seq.pred = true) :
    (x.setPred q v).predReg j = if j = 0 then true else if j = q then v else x.predReg j := by
  by_cases hj : j = 0
  · simp only [Bay.predReg, hj, if_true]
  by_cases hq : q = 0
  · subst hq
    simp only [Bay.setPred, if_true, hj, if_false]
  · simp only [Bay.predReg, Bay.setPred, hj, hq, if_false, Sparse.get_set false x.seq.pred q j v h]

/-- Settles O3: the two writes of the agenda are the two register writes. -/
theorem registerWritesLand : Obligations.RegisterWritesLand := by
  unfold Obligations.RegisterWritesLand
  exact fun m c ph hidx hpred => ⟨fun k j v => m.bay.idxReg_setIdx k j v hidx, fun q j v => m.bay.predReg_setPred q j v hpred⟩

/-- A change of the bay that an instruction makes only when it is on (06 R119). -/
theorem BayM.upd_if (m : BayM) (on : Bool) (g : Bay → Bay) : (if on then m.upd g else m) = m.upd (fun x => if on then g x else x) := by
  cases on <;> rfl

/-- ISETH keeps the low 20 bits below its immediate (06 R114). -/
theorem append_low20 (imm : BitVec 12) (w : Word) : BitVec.ofNat 32 (imm.toNat * 2 ^ 20 + w.toNat % 2 ^ 20) = imm ++ w.setWidth 20 := by
  apply BitVec.eq_of_toNat_eq
  have himm := imm.isLt
  have hlow : (w.setWidth 20).toNat < 2 ^ 20 := (w.setWidth 20).isLt
  rw [BitVec.toNat_append, ← Nat.shiftLeft_add_eq_or_of_lt hlow, Nat.shiftLeft_eq, BitVec.toNat_setWidth, BitVec.toNat_ofNat]
  omega

/-- An instruction that puts one entry on its bay's agenda when it is on. -/
theorem exec_fallsDue {s : State} {b : BayId} {p : Pred} {i : Instr} {ok : Bool} {op : BCtx → BayM → BayM} {n : Int} {ev : Bay → BEv}
    (hexec : exec i s = s.bayOp b ok op) (hb : b.ok = true) (hok : ok = true)
    (hop : op (s.bctx b) { bay := s.bay b, out := [] } =
      if (s.bay b).isOn p then BayM.upd { bay := s.bay b, out := [] } (fun x => x.due ((s.bay b).seq.count + n) 0 (ev x))
      else { bay := s.bay b, out := [] }) :
    exec i s = .next (s.modBay b (fun x => if x.isOn p then x.due (x.seq.count + n) 0 (ev x) else x)) := by
  refine exec_upd hexec hb hok (hop.trans (BayM.upd_if _ _ _)) ?_
  split <;> rfl

/-- Settles O2: each instruction's meaning is one entry of the agenda. -/
theorem indexAndPredicateWritesFallDue : Obligations.IndexAndPredicateWritesFallDue := by
  unfold Obligations.IndexAndPredicateWritesFallDue
  refine fun s b p hb => ⟨fun k imm => ?iset, fun k imm => ?iseth, fun k imm => ?istep, fun k vs lane => ?ild, fun q v => ?qset,
    fun q mk lane => ?qmask, fun q level last => ?qiter⟩
  case iset => exact exec_fallsDue rfl hb hb rfl
  case iseth =>
    simp only [← append_low20]
    exact exec_fallsDue rfl hb hb rfl
  case istep => exact exec_fallsDue rfl hb hb rfl
  case ild => exact exec_fallsDue rfl hb hb rfl
  case qset => exact exec_fallsDue rfl hb hb rfl
  case qmask => exact exec_fallsDue rfl hb hb rfl
  case qiter => exact exec_fallsDue rfl hb hb rfl

end Sys2Proof.Machine
end

section
/-! LOOP, CRUSH, PEG, END and the overdue check: each changes its bay and sends at most one output (03 R57, 06 R116, R122 to R127). -/

namespace Sys2Proof.Machine
open Sys2Proof

/-- A well-formed instruction that changes its bay, not to a later count, and then sends outputs: hexec says which operation of the bay it is, hop what the
operation does to it. -/
theorem exec_sends {s : State} {b : BayId} {i : Instr} {ok : Bool} {op : BCtx → BayM → BayM} {g : Bay → Bay} {l : List BOut} (hexec : exec i s = s.bayOp b ok op)
    (hb : b.ok = true) (hok : ok = true) (hop : op (s.bctx b) { bay := s.bay b, out := [] } = { bay := g (s.bay b), out := l })
    (hg : (g (s.bay b)).seq.ticked = (s.bay b).seq.ticked) : exec i s = .next (l.foldl (fun t o => t.bout b o) (s.modBay b g)) := by
  subst hok
  rw [hexec, s.bayOp_ok b true op hb, if_pos rfl, s.runBay_still b op (by rw [hop]; exact hg), hop]
  rfl

/-- What PEG and END leave of the bay when the interval's digest agrees (06 R122). -/
def Bay.pegged (x : Bay) (beta : Nat) (phase : BitVec 8) (phv ends : Bool) : Bay :=
  { x with
    beta := beta
    seq := { x.seq with
      cfd := 0xFFFFFFFF#32, lastPeg := x.seq.count, pegno := (x.seq.pegno + 1) % 2 ^ 32, phase := if phv then phase else x.seq.phase, overdue := false
      crush := x.seq.crush.filter (fun h => decide (x.seq.count < h.2)), issuing := x.seq.issuing && !ends } }

/-- Does the digest of the closing interval agree with the peg table's entry (06 R123)? -/
def Bay.digestAgrees (x : Bay) (idx : BitVec 12) : Bool :=
  decide (x.seq.cfd ^^^ 0xFFFFFFFF#32 = Sparse.get 0#32 x.pegtab idx.toNat)

/-- What PEG and END leave of the bay: a digest that differs is the fault CONTROL_DIGEST at u + 2 (06 R123). -/
def Bay.afterPeg (x : Bay) (beta : Nat) (idx : BitVec 12) (phase : BitVec 8) (phv ends : Bool) : Bay :=
  let y := x.pegged beta phase phv ends
  if x.digestAgrees idx then y else y.due (x.seq.count + 2) 0 (.fault 0x0204 0 [(2, idx.toNat), (4, (x.seq.pegno + 1) % 2 ^ 32)])

theorem Bay.afterPeg_ticked (x : Bay) (beta : Nat) (idx : BitVec 12) (phase : BitVec 8) (phv ends : Bool) :
    (x.afterPeg beta idx phase phv ends).seq.ticked = x.seq.ticked := by
  unfold Bay.afterPeg
  dsimp only
  split <;> rfl

/-- A pending crush whose count has been reached is no longer pending (06 R121). -/
theorem crush_filter (o : Option (BitVec 8 × Int)) (u : Int) :
    (match o with
      | some (p, c) => if c ≤ u then none else some (p, c)
      | none => none) = o.filter (fun h => decide (u < h.2)) := by
  cases o with
  | none => rfl
  | some h => by_cases hc : h.2 ≤ u <;> simp [Option.filter, hc, Int.not_lt.mpr, Int.not_le.mp]

/-- PEG and END with a clean entry of the table: the steps of R122 and the token. -/
theorem opPeg_clean (beta : Nat) (x : Bay) (idx : BitVec 12) (phase : BitVec 8) (phv ends : Bool) :
    opPeg beta { bay := x, out := [] } x.seq.count idx phase phv .ok ends =
      { bay := x.afterPeg beta idx phase phv ends
        out := [.token ((x.seq.pegno + 1) % 2 ^ 32) (x.digestAgrees idx) (if phv then phase else x.seq.phase) phv x.seq.count ends] } := by
  simp only [opPeg, Bay.afterPeg, Bay.pegged, Bay.digestAgrees, ← crush_filter]
  rfl

/-- Is PEG_OVERDUE to be raised (06 R124)? -/
def Bay.pegIsOverdue (x : Bay) : Prop := x.seq.issuing = true ∧ x.seq.overdue = false ∧ x.seq.lastPeg + 1048577 ≤ x.seq.count

theorem Bay.pegIsOverdue_iff (x : Bay) : x.pegIsOverdue ↔ (x.seq.issuing && !x.seq.overdue && decide (x.seq.lastPeg + 1048577 ≤ x.seq.count)) = true := by
  simp only [Bay.pegIsOverdue, Bool.and_eq_true, Bool.not_eq_true', decide_eq_true_eq, and_assoc]

/-- The bay once it has raised PEG_OVERDUE; a fault of the prologue is noted in the vat (05 R103, 06 R124). -/
def Bay.overdueRaised (x : Bay) : Bay :=
  { x with seq := { x.seq with overdue := true }, vat := { x.vat with proFault := x.vat.proFault || !x.seq.body } }

theorem pegOverdue_raises {x : Bay} (h : x.pegIsOverdue) :
    pegOverdue { bay := x, out := [] } x.seq.count =
      { bay := x.overdueRaised, out := [.fault 0x0205 x.seq.count 0 [(8, (BitVec.ofInt 64 x.seq.lastPeg).toNat)]] } := by
  rw [pegOverdue, if_pos (x.pegIsOverdue_iff.mp h), BayM.raise_eq]
  rfl
theorem pegOverdue_not {x : Bay} (h : ¬x.pegIsOverdue) : pegOverdue { bay := x, out := [] } x.seq.count = { bay := x, out := [] } := by
  rw [pegOverdue, if_neg (mt x.pegIsOverdue_iff.mpr h)]

section
variable {s : State} {b : BayId} (hb : b.ok = true)
include hb

/-- PEG and END differ in that END stops issue. -/
theorem exec_pegOrEnd (idx : BitVec 12) (ph : BitVec 8) (phv ends : Bool) :
    exec (if ends then .endPlan b idx ph phv .ok else .peg b idx ph phv .ok) s =
      .next ((s.modBay b (fun x => x.afterPeg (s.bctx b).betaTarget idx ph phv ends)).token b (((s.bay b).seq.pegno + 1) % 2 ^ 32)
        ((s.bay b).digestAgrees idx) (if phv then ph else (s.bay b).seq.phase) phv ends) := by
  have hclean := opPeg_clean (s.bctx b).betaTarget (s.bay b) idx ph phv ends
  have hticked := (s.bay b).afterPeg_ticked (s.bctx b).betaTarget idx ph phv ends
  cases ends
  · exact (exec_sends (i := .peg b idx ph phv .ok) (g := fun x => x.afterPeg _ idx ph phv false) rfl hb hb hclean hticked :)
  · exact (exec_sends (i := .endPlan b idx ph phv .ok) (g := fun x => x.afterPeg _ idx ph phv true) rfl hb hb hclean hticked :)

theorem exec_pegOverdue_raises (h : (s.bay b).pegIsOverdue) :
    exec (.pegOverdue b) s = .next ((s.modBay b Bay.overdueRaised).bayFault b 0x0205 (s.bay b).seq.count 0 [(8, (BitVec.ofInt 64 (s.bay b).seq.lastPeg).toNat)]) :=
  (exec_sends (i := .pegOverdue b) (g := Bay.overdueRaised) rfl hb rfl (pegOverdue_raises h) rfl :)
theorem exec_pegOverdue_not (h : ¬(s.bay b).pegIsOverdue) : exec (.pegOverdue b) s = .next (s.modBay b id) :=
  exec_sends (g := id) (l := []) rfl hb rfl (pegOverdue_not h) rfl
end

/-- Settles O4: LOOP, CRUSH, PEG and END change the bay and send at most one output; the overdue check by whether it raises. -/
theorem loopsPegsAndHints : Obligations.LoopsPegsAndHints := by
  unfold Obligations.LoopsPegsAndHints
  refine fun s b hb => ⟨fun l n => ?loop, fun ph lead hlead => ?crush, fun idx ph phv ends => exec_pegOrEnd hb idx ph phv ends, ?overdue⟩
  case loop =>
    refine exec_sends (l := []) rfl hb hb rfl ?_
    split <;> rfl
  case crush =>
    have hwf : (b.ok && decide (0x100 ≤ lead.toNat)) = true := Bool.and_eq_true_iff.mpr ⟨hb, decide_eq_true hlead⟩
    exact exec_sends (l := [.crush ph _]) (g := fun x => { x with seq := { x.seq with crush := some (ph, _) } }) rfl hb hwf rfl rfl
  case overdue =>
    by_cases h : (s.bay b).pegIsOverdue
    · exact (exec_pegOverdue_raises hb h).trans (congrArg _ (if_pos h).symm)
    · exact (exec_pegOverdue_not hb h).trans (congrArg _ (if_neg h).symm)

end Sys2Proof.Machine
end

section
/-! What happens in a bay at a count before its bundle issues moves no count but the one settled (06 R109, R110). -/

namespace Sys2Proof.Machine
open Sys2Proof

@[simp] theorem BayM.upd_bay (m : BayM) (g : Bay → Bay) : (m.upd g).bay = g m.bay := rfl
@[simp] theorem BayM.emit_bay (m : BayM) (o : BOut) : (m.emit o).bay = m.bay := rfl
@[simp] theorem Bay.count_seq (x : Bay) (i k : Nat) : (x.count i k).seq = x.seq := rfl

/- The mover, the panel loads, the racking unit, the sills and the router. -/
@[simp] theorem moverFc_seq (m : BayM) (c : Int) : (moverFc m c).bay.seq = m.bay.seq := by
  unfold moverFc
  split
  · rfl
  · dsimp only
    repeat' split
    all_goals rfl
@[simp] theorem loadsFc_seq (m : BayM) (c : Int) : (loadsFc m c).bay.seq = m.bay.seq := rfl

@[simp] theorem rackDeliver_seq (site : Nat) (m : BayM) (c : Int) (r : RackRun) (errs : List PieceErr) : (rackDeliver site m c r errs).bay.seq = m.bay.seq := by
  unfold rackDeliver
  dsimp only
  split
  · rfl
  · split
    · rfl
    · rw [foldl_seq]
      · rfl
      · intro m p
        repeat' split
        all_goals simp
theorem rackDeliveries_seq (site : Nat) (m : BayM) (c : Int) (errs : List PieceErr) : (rackDeliveries site m c errs).bay.seq = m.bay.seq := by
  unfold rackDeliveries
  generalize m.bay.racks = rs
  induction rs generalizing m errs with
  | nil => rfl
  | cons r rs ih =>
    rw [List.foldl_cons]
    split
    · rw [ih, rackDeliver_seq]
    · exact ih m errs
@[simp] theorem rackFc_seq (site : Nat) (m : BayM) (c : Int) : (rackFc site m c).bay.seq = m.bay.seq := by
  unfold rackFc
  dsimp only
  rw [BayM.upd_bay, rackDeliveries_seq, foldl_seq]
  intro m r
  split
  · split
    · rw [foldl_seq]
      exact fun _ _ => rfl
    · rfl
  · repeat' split
    all_goals rfl

theorem sopFcOne_seq (site : Nat) (c : Int) (m : BayM) (r : SopRun) : (sopFcOne site c m r).bay.seq = m.bay.seq := by
  unfold sopFcOne
  dsimp only
  repeat' split
  all_goals simp
theorem sopEnds_seq (m : BayM) (c : Int) (agree late : Bool) (found : List (Nat × PieceErr)) : (sopEnds m c agree late found).bay.seq = m.bay.seq := by
  unfold sopEnds
  dsimp only
  rw [foldl_seq]
  · rfl
  · exact fun _ _ => rfl
@[simp] theorem sopFc_seq (site : Nat) (m : BayM) (c : Int) : (sopFc site m c).bay.seq = m.bay.seq := by
  unfold sopFc
  dsimp only
  rw [BayM.upd_bay, sopEnds_seq, foldl_seq _ (sopFcOne_seq site c)]

theorem recvFlit_seq (site : Nat) (m : BayM) (c : Int) (r : RouteRun) (f : Nat) : (recvFlit site m c r f).bay.seq = m.bay.seq := by
  unfold recvFlit
  dsimp only
  repeat' split
  all_goals simp
@[simp] theorem routeFc_seq (site : Nat) (m : BayM) (c : Int) : (routeFc site m c).bay.seq = m.bay.seq := by
  unfold routeFc
  dsimp only
  rw [BayM.upd_bay, foldl_seq, foldl_seq]
  · intro m r
    repeat' split
    all_goals simp [recvFlit_seq]
  · exact fun _ _ => rfl

/- The vat's accesses. -/
@[simp] theorem closedWrite_seq (m : BayM) (c : Int) (a : Access) (words : Nat) : (closedWrite m c a words).bay.seq = m.bay.seq := by
  simp [closedWrite]
theorem performWrite_seq (m : BayM) (c : Int) (a : Access) (d : Chunk) : (performWrite m c a d).bay.seq = m.bay.seq := by
  unfold performWrite
  dsimp only
  repeat' split
  all_goals simp
@[simp] theorem finishWrite_seq (m : BayM) (c : Int) (a : Access) (d : Chunk) (occ : List Nat) : (finishWrite m c a d occ).bay.seq = m.bay.seq := by
  unfold finishWrite
  dsimp only
  split
  · exact closedWrite_seq m c a _
  · exact performWrite_seq m c a d
@[simp] theorem deliver_seq (m : BayM) (c : Int) (a : Access) (r : RdRes) : (deliver m c a r).bay.seq = m.bay.seq := by
  unfold deliver
  split
  case h_2 => dsimp only [BayM.upd]; split <;> rfl
  case h_6 => split <;> rfl
  case h_7 =>
    split
    · rfl
    · refine foldl_seq _ (fun m i => ?_) _ m
      dsimp only
      split <;> rfl
  all_goals rfl
@[simp] theorem finishRead_seq (site : Nat) (m : BayM) (c : Int) (a : Access) (conflict : Bool) : (finishRead site m c a conflict).bay.seq = m.bay.seq := by
  unfold finishRead
  dsimp only
  split
  · split <;> rfl
  · rw [deliver_seq]
    repeat' split
    all_goals simp
@[simp] theorem finishMode_seq (m : BayM) (a : Access) (met : List Nat) : (finishMode m a met).bay.seq = m.bay.seq := rfl
@[simp] theorem finishAccess_seq (site : Nat) (m : BayM) (c : Int) (a : Access) : (finishAccess site m c a).bay.seq = m.bay.seq := by
  unfold finishAccess
  dsimp only
  repeat' split
  all_goals simp
@[simp] theorem conflictAccess_seq (site : Nat) (m : BayM) (c : Int) (a : Access) (met : List Nat) : (conflictAccess site m c a met).bay.seq = m.bay.seq := by
  unfold conflictAccess
  dsimp only
  repeat' split
  all_goals simp
@[simp] theorem vatFc_seq (site : Nat) (m : BayM) (c : Int) : (vatFc site m c).bay.seq = m.bay.seq := by
  unfold vatFc
  dsimp only
  split
  · rfl
  · rw [foldl_seq, foldl_seq, foldl_seq]
    · split <;> simp
    all_goals
      intro m p
      repeat' split
      all_goals simp

/- What falls due. -/
@[simp] theorem Bay.modeNow_seq (x : Bay) (pr : Nat) (quart : Bool) : (x.modeNow pr quart).seq = x.seq := rfl
@[simp] theorem Bay.clrfNow_seq (x : Bay) (pm : BitVec 4) (vf : Bool) : (x.clrfNow pm vf).seq = x.seq := by
  have hflags : ∀ (l : List Nat) (y : Bay),
      (l.foldl (fun (y : Bay) i => if pm.getLsbD i then y.setPress i { y.press i with dflags := 0#4 } else y) y).seq = y.seq := fun l => by
    induction l with
    | nil => exact fun _ => rfl
    | cons i l ih =>
      intro y
      rw [List.foldl_cons, ih]
      split <;> rfl
  unfold Bay.clrfNow
  dsimp only
  split <;> exact hflags _ x
@[simp] theorem halfBegin_seq (m : BayM) (c : Int) (pr ctl : Nat) (fmt : BitVec 4) (on : Bool) : (halfBegin m c pr ctl fmt on).bay.seq = m.bay.seq := by
  unfold halfBegin
  dsimp only
  repeat' split
  all_goals simp
@[simp] theorem Bay.setPred_count (x : Bay) (q : Nat) (v : Bool) : (x.setPred q v).seq.count = x.seq.count := by
  unfold Bay.setPred
  split <;> rfl
/-- An event of the agenda may write a register or a predicate of the sequencer; it moves no count. -/
theorem runEvent_count (m : BayM) (d : Due) : (runEvent m d).bay.seq.count = m.bay.seq.count := by
  unfold runEvent
  split
  all_goals simp [Bay.setIdx]
theorem foldl_runEvent_count : ∀ (ds : List Due) (m : BayM), (ds.foldl runEvent m).bay.seq.count = m.bay.seq.count
  | [], _ => rfl
  | d :: ds, m => by rw [List.foldl_cons, foldl_runEvent_count ds, runEvent_count]
@[simp] theorem runDue_count (m : BayM) (c : Int) (sel : Due → Bool) : (runDue m c sel).bay.seq.count = m.bay.seq.count :=
  foldl_runEvent_count _ _

@[simp] theorem residency_seq (m : BayM) : (residency m).bay.seq = m.bay.seq := by
  unfold residency
  split <;> rfl
@[simp] theorem pegOverdue_count (m : BayM) (c : Int) : (pegOverdue m c).bay.seq.count = m.bay.seq.count := by
  unfold pegOverdue
  split <;> simp

/-- Nothing that happens at a count before its bundle issues moves the count of the next bundle. -/
@[simp] theorem tickStart_count (cx : BCtx) (m : BayM) (c : Int) : (tickStart cx m c).bay.seq.count = m.bay.seq.count := by
  simp [tickStart]

/-- The body's first count is 0 (06 R112). -/
theorem enterBody_count (cx : BCtx) (m : BayM) : (enterBody cx m).bay.seq.count = 0 := by
  rw [enterBody, tickStart_count]
  rfl

/-- A bay that issues no longer does nothing at BUNDLE_ISSUE. -/
theorem issueBundle_idle (cx : BCtx) (m : BayM) (ecc : List Ecc) (pe : Ecc) (beats : List Ecc) (h : m.bay.seq.issuing = false) :
    issueBundle cx m ecc pe beats = m := by
  simp only [issueBundle, h, Bool.not_false, if_true]
/-- One that issues comes to the next count, also where the prologue ends and the body begins (06 R109, R112). -/
theorem issueBundle_count (cx : BCtx) (m : BayM) (ecc : List Ecc) (pe : Ecc) (beats : List Ecc) (h : m.bay.seq.issuing = true) :
    (issueBundle cx m ecc pe beats).bay.seq.count = m.bay.seq.count + 1 := by
  simp only [issueBundle, h, Bool.not_true, Bool.false_eq_true, if_false, BayM.upd_bay]
  split
  · next hbegins =>
    have hcount : m.bay.seq.count = 0 := of_decide_eq_true (Bool.and_eq_true_iff.mp hbegins).2
    rw [enterBody_count, hcount]
  · rfl

end Sys2Proof.Machine
end

section
/-! What leaves a bay at an issue moves no bay's count, and BUNDLE_ISSUE (06 R109 to R111, 11 R231). -/

namespace Sys2Proof.Machine
open Sys2Proof

/- Reports, tokens, hints, counters and answers leave the bays alone. -/
@[simp] theorem State.report_bays (s : State) (r : Report) : (s.report r).bays = s.bays := by
  obtain ⟨_, _, _, _, _, _, h⟩ := s.report_eq r
  rw [h]
@[simp] theorem State.caskCount_bays (s : State) (c i k : Nat) : (s.caskCount c i k).bays = s.bays := rfl
@[simp] theorem State.modEsc_bays (s : State) (f : Esc → Esc) : (s.modEsc f).bays = s.bays := rfl
@[simp] theorem State.staveFails_bays (s : State) (c st : Nat) : (s.staveFails c st).bays = s.bays := by
  unfold State.staveFails
  dsimp only
  repeat' split
  all_goals simp
@[simp] theorem State.findingCounts_bays (s : State) (c : Nat) (e : PieceErr) : (s.findingCounts c e).bays = s.bays := by
  unfold State.findingCounts State.symbolCorrected
  dsimp only
  repeat' split
  all_goals simp
@[simp] theorem State.cellarUe_bays (s : State) (b : BayId) (c off count : Nat) (stave : Option Nat) (injected : Bool) :
    (s.cellarUe b c off count stave injected).bays = s.bays := s.report_bays _
@[simp] theorem State.rackBeats_bays (s : State) (c off : Nat) (a : Int) (beats : List Ecc) : (s.rackBeats c off a beats).bays = s.bays := by
  unfold State.rackBeats State.beatsMet
  dsimp only
  repeat' split
  all_goals simp
@[simp] theorem State.putWrite_bays (s : State) (b : BayId) (tag c phys : Nat) (a : Int) (d : Chunk) (beats : List Ecc) :
    (s.putWrite b tag c phys a d beats).bays = s.bays := rfl
theorem foldl_bays {α : Type} (f : State → α → State) (hf : ∀ s a, (f s a).bays = s.bays) : ∀ (l : List α) (s : State), (l.foldl f s).bays = s.bays
  | [], _ => rfl
  | a :: l, s => by rw [List.foldl_cons, foldl_bays f hf l, hf]

@[simp] theorem State.bayBreach_bays (s : State) (b : BayId) (cause : Nat) (count : Int) (unit : Nat) : (s.bayBreach b cause count unit).bays = s.bays :=
  s.report_bays _
@[simp] theorem State.bayFault_bays (s : State) (b : BayId) (code : Nat) (count : Int) (idx : Nat) (detail : List (Nat × Nat)) :
    (s.bayFault b code count idx detail).bays = s.bays := by
  unfold State.bayFault
  dsimp only
  rw [State.report_bays]
  split <;> rfl
@[simp] theorem State.token_bays (s : State) (b : BayId) (pegno : Nat) (ok : Bool) (phase : BitVec 8) (phv isEnd : Bool) :
    (s.token b pegno ok phase phv isEnd).bays = s.bays := by
  unfold State.token State.injPeg
  split
  · dsimp only
    rw [State.modInv_bays]
    split <;> rfl
  · rfl
@[simp] theorem State.hint_bays (s : State) (b : BayId) (phase : BitVec 8) (c : Int) : (s.hint b phase c).bays = s.bays := by
  unfold State.hint
  split <;> rfl
@[simp] theorem State.flit_bays (s : State) (b : BayId) (e : RouteEnt) (f : Nat) (leave : Int) (void poison : Bool) (data : Bytes) :
    (s.flit b e f leave void poison data).bays = s.bays := by
  unfold State.flit
  split <;> rfl
@[simp] theorem State.writePiece_bays (s : State) (b : BayId) (tag c off : Nat) (a : Int) (d : Chunk) (beats : List Ecc) :
    (s.writePiece b tag c off a d beats).bays = s.bays := by
  unfold State.writePiece
  split <;> simp
@[simp] theorem State.bcastPiece_bays (s : State) (b : BayId) (tag g off : Nat) (a : Int) (d : Chunk) (beats : List Ecc) :
    (s.bcastPiece b tag g off a d beats).bays = s.bays := by
  unfold State.bcastPiece
  dsimp only
  rw [foldl_bays]
  intro s c
  split
  · rw [State.rackBeats_bays, foldl_bays]
    exact fun _ _ => rfl
  · rfl
@[simp] theorem State.pieceErr_bays (s : State) (b : BayId) (c off : Nat) (err : PieceErr) (a : Int) : (s.pieceErr b c off err a).bays = s.bays := by
  unfold State.pieceErr
  dsimp only
  rw [State.findingCounts_bays]
  split <;> simp
@[simp] theorem State.sopDone_bays (s : State) (b : BayId) (r : SopRun) (m : SopM) : (s.sopDone b r m).bays = s.bays := by
  have hfaults : ∀ (g : State → Nat × Nat → Report) (l : List (Nat × Nat)) (t : State), (l.foldl (fun t f => t.report (g t f)) t).bays = t.bays :=
    fun g l t => foldl_bays _ (fun t f => t.report_bays (g t f)) l t
  have herrs : ∀ (c : Nat) (l : List PieceErr) (t : State), (l.foldl (fun t x => t.findingCounts c x) t).bays = t.bays :=
    fun c l t => foldl_bays _ (fun t x => t.findingCounts_bays c x) l t
  unfold State.sopDone
  dsimp only
  split <;> simp [hfaults, herrs]
@[simp] theorem State.injectMet_bays (s : State) (b : BayId) (old new : Vat) : (s.injectMet b old new).bays = s.bays := by
  unfold State.injectMet
  split
  · split <;> rfl
  · rfl
@[simp] theorem State.emitPort_bays (s : State) (p : Nat) (o : OutEv) : (s.emitPort p o).bays = s.bays := by
  obtain ⟨_, _, h⟩ := s.emitPort_eq p o
  rw [h]
theorem State.answer_bays (s : State) (rq : Option Requester) (msg parcel arrived : Nat) (a : Ans) : (s.answer rq msg parcel arrived a).bays = s.bays := by
  unfold State.answer
  split
  · rfl
  · dsimp only
    split
    · unfold State.answerSlot
      obtain ⟨_, _, h⟩ := State.vector_eq (s.modPort _ _) _ _
      rw [h]
      rfl
    · simp
    · rfl
theorem State.firstCount_bays (s : State) (p : Nat) : (s.firstCount p).bays = s.bays := by
  unfold State.firstCount
  split
  · unfold State.answerWaits
    dsimp only
    rw [foldl_bays]
    · rfl
    · exact fun t w => t.answer_bays _ _ _ _ _
  · rfl
theorem State.seamsCycle_bays (s : State) (p : Nat) : (s.seamsCycle p).bays = s.bays := by
  unfold State.seamsCycle
  rw [foldl_bays]
  exact fun _ _ => rfl

/-- A piece in the return buffers of the bay's transaction. -/
def Bay.holdPiece (x : Bay) (tag w : Nat) (ch : Chunk) : Bay :=
  { x with racks := x.racks.map (fun q => if q.tag = tag then q.hold w ch else q) }
/-- A piece that comes from its cask goes into the return buffer, and no bay changes otherwise. -/
theorem State.fetchPiece_bays (s : State) (b : BayId) (tag w c off : Nat) (r : Region) (a : Int) :
    ∃ ch, (s.fetchPiece b tag w c off r a).bays = (s.modBay b (fun x => x.holdPiece tag w ch)).bays := by
  unfold State.fetchPiece
  dsimp only
  split
  · apply Exists.intro
    rw [State.findingCounts_bays, State.cellarUe_bays]
    rfl
  · split
    · apply Exists.intro
      rw [State.cellarUe_bays]
      rfl
    · exact ⟨_, rfl⟩

/-- From s to t every bay keeps the count of its next bundle. -/
def State.CountsKept (s t : State) : Prop :=
  Sparse.wf Bay.init s.bays = true → Sparse.wf Bay.init t.bays = true ∧ ∀ b, (t.bay b).seq.count = (s.bay b).seq.count

namespace State.CountsKept

theorem refl (s : State) : s.CountsKept s := fun h => ⟨h, fun _ => rfl⟩
theorem trans {s t u : State} (h : s.CountsKept t) (h' : t.CountsKept u) : s.CountsKept u := fun hw =>
  have ⟨htw, ht⟩ := h hw
  have ⟨huw, hu⟩ := h' htw
  ⟨huw, fun b => (hu b).trans (ht b)⟩
/-- What leaves the bays alone keeps their counts. -/
theorem of_bays {s t : State} (h : t.bays = s.bays) : s.CountsKept t := fun hw => ⟨by rw [h]; exact hw, fun b => by simp only [State.bay, h]⟩
theorem foldl {α : Type} (f : State → α → State) (hf : ∀ (t : State) x, t.CountsKept (f t x)) : ∀ (l : List α) (s : State), s.CountsKept (l.foldl f s)
  | [], s => refl s
  | x :: l, s => (hf s x).trans (foldl f hf l (f s x))
/-- So does a change of a bay's other fields. -/
theorem modBay (s : State) (b : BayId) (g : Bay → Bay) (hg : ∀ x, (g x).seq.count = x.seq.count) : s.CountsKept (s.modBay b g) := fun hw =>
  ⟨Sparse.wf_set _ _ _ _ hw, fun k => by
    rw [State.modBay, s.bay_setBay b _ hw]
    split
    · next hk => rw [hg, State.bay, State.bay, hk]
    · rfl⟩

/- The outputs of a bay that change a bay again: a piece in its return buffer, a sill operation's result, a flit on its agenda. -/
theorem fetchPiece (s : State) (b : BayId) (tag w c off : Nat) (r : Region) (a : Int) : s.CountsKept (s.fetchPiece b tag w c off r a) := by
  obtain ⟨ch, h⟩ := s.fetchPiece_bays b tag w c off r a
  exact (modBay s b (fun x => x.holdPiece tag w ch) (fun _ => rfl)).trans (of_bays h)
theorem readPiece (s : State) (b : BayId) (tag w c off : Nat) (a : Int) : s.CountsKept (s.readPiece b tag w c off a) := by
  have hfetch := fun r => fetchPiece s b tag w c off r a
  unfold State.readPiece
  split
  · split
    · split
      · exact hfetch _
      · exact refl s
    · split
      · exact refl s
      · exact hfetch _
  · exact refl s
theorem sopStart (s : State) (b : BayId) (tag c : Nat) : s.CountsKept (s.sopStart b tag c) := modBay s b _ (fun _ => rfl)
theorem sopEnd (s : State) (b : BayId) (r : SopRun) (agree : Bool) (found : List (Nat × PieceErr)) : s.CountsKept (s.sopEnd b r agree found) := by
  have hnoted : ∀ (t : State) (rep : Report), (if agree then t else t.report rep).bays = t.bays := fun t rep => by split <;> simp
  unfold State.sopEnd
  dsimp only
  split
  · exact of_bays (hnoted _ _)
  · refine .trans (of_bays ?_) (modBay _ b _ (fun _ => rfl))
    rw [State.sopDone_bays]
    exact hnoted _ _
theorem bout (s : State) (b : BayId) (o : BOut) : s.CountsKept (s.bout b o) := by
  cases o with
  | readPiece tag w c off a => exact readPiece s b tag w c off a
  | sopStart tag c => exact sopStart s b tag c
  | sopEnd r agree found => exact sopEnd s b r agree found
  | breach | fault | token | crush | writePiece | bcast | pieceErr | flit => exact of_bays (by simp [State.bout])

/- The router passes on what has reached it (08 R159, R162). -/
theorem sendOn (s : State) (fl : Flight) : s.CountsKept (s.sendOn fl) := by
  unfold State.sendOn
  split
  · exact modBay s _ _ (fun _ => rfl)
  · exact of_bays rfl
  · exact refl s
theorem passOutput (s : State) (p : Nat) (fl : Flight) (h : Hop) : s.CountsKept (s.passOutput p fl h) := by
  unfold State.passOutput
  split
  · exact sendOn s _
  · split
    · exact of_bays (s.report_bays _)
    · exact sendOn s _
theorem forward (s : State) (b : BayId) (c : Int) : s.CountsKept (s.forward b c) := by
  unfold State.forward
  dsimp only
  split
  · exact refl s
  · split
    · exact of_bays rfl
    · refine .trans (of_bays (by rfl)) (foldl _ (fun t e => ?_) _ _)
      split
      · split
        · exact passOutput t _ _ _
        · split
          · exact of_bays (t.report_bays _)
          · exact refl t
      · exact refl t

end State.CountsKept

/-- An operation of one bay of a canonical store gives that bay the count that the operation leaves it with. -/
theorem State.runBay_count (s : State) (b : BayId) (f : BCtx → BayM → BayM) (hw : Sparse.wf Bay.init s.bays = true) :
    Sparse.wf Bay.init (s.runBay b f).bays = true ∧
      ((s.runBay b f).bay b).seq.count = (f (s.bctx b) { bay := s.bay b, out := [] }).bay.seq.count := by
  generalize hm : f (s.bctx b) { bay := s.bay b, out := [] } = m
  have hset : Sparse.wf Bay.init (s.setBay b m.bay).bays = true := Sparse.wf_set _ _ _ _ hw
  have houts := fun t : State => State.CountsKept.foldl (fun t o => t.bout b o) (fun t o => .bout t b o) m.out t
  have hkept : (s.setBay b m.bay).CountsKept (s.runBay b f) := by
    unfold State.runBay
    dsimp only
    rw [hm]
    split
    · exact houts _
    · exact ((State.CountsKept.of_bays (State.injectMet_bays _ _ _ _)).trans (houts _)).trans (.forward _ _ _)
  obtain ⟨hrun, hcounts⟩ := hkept hset
  refine ⟨hrun, (hcounts b).trans ?_⟩
  rw [s.bay_setBay b m.bay hw, if_pos rfl]

/-- What BUNDLE_ISSUE does for the parcel whose first bay issues leaves the bays alone (06 R113, 12 R255). -/
theorem execBundleIssue_bays (s : State) (b : BayId) (ecc : IssueFound) (pe : Ecc) (hb : b.ok = true) (hs : s.stopsAt b = false) :
    ∃ t, execBundleIssue b ecc pe s = .next t ∧ t.bays = (s.runBay b (fun cx m => issueBundle cx m ecc.quarters pe ecc.beats)).bays := by
  simp only [execBundleIssue, hb, hs, Bool.not_true, Bool.false_eq_true, if_false]
  refine ⟨_, rfl, ?_⟩
  split
  · split
    · rw [State.seamsCycle_bays]
      split
      · exact State.firstCount_bays _ _
      · rfl
    · rfl
  · rfl

/-- Settles O5: the bay's own operation moves its count by one when it issues, and nothing that follows moves it again. -/
theorem oneBundlePerFc : Obligations.OneBundlePerFc := by
  unfold Obligations.OneBundlePerFc
  refine ⟨fun s b ecc pe hb hs hw => ?issues, fun s b ecc pe hb hs => ?stopped⟩
  case issues =>
    obtain ⟨t, hexec, hbays⟩ := execBundleIssue_bays s b ecc pe hb hs
    refine ⟨t, hexec, ?_⟩
    have hbay : t.bay b = (s.runBay b (fun cx m => issueBundle cx m ecc.quarters pe ecc.beats)).bay b := by simp only [State.bay, hbays]
    rw [hbay, (s.runBay_count b _ hw).2]
    cases hi : (s.bay b).seq.issuing with
    | true => exact issueBundle_count _ _ _ _ _ hi
    | false =>
      rw [issueBundle_idle _ _ _ _ _ hi]
      exact (Int.add_zero _).symm
  case stopped =>
    change execBundleIssue b ecc pe s = _
    simp only [execBundleIssue, hb, hs, Bool.not_true, Bool.false_eq_true, if_false, if_true]

end Sys2Proof.Machine
end

section
/-! KSTEP on free cells in their mode: a panel that is not the accumulation's last, and the one that starts it (07 R139, 03 R44, R47, R53). -/

namespace Sys2Proof.Machine
open Sys2Proof

/-- A press just written to a canonical store is the one read back. -/
theorem Bay.press_setPress (x : Bay) (i : Nat) (p : Press) (h : Sparse.wf Press.init x.presses = true) : (x.setPress i p).press i = p :=
  Sparse.get_set_same _ _ _ _ h

/-- The control bits of operand A's halves come first. -/
theorem ctlIx_operandA (half q : Nat) : ctlIx false half q = 4 * half + q % 4 := by simp [ctlIx]

/-- A half that passes the check of R53: valid, of the set-up's format and not poisoned. -/
def HalfCtl.Ready (h : HalfCtl) (fmt : BitVec 4) : Prop := h.valid = true ∧ h.fmt = fmt ∧ h.poison = none

theorem checkHalf_ready (m : BayM) (u : Int) (pr ctl : Nat) (fmt : BitVec 4) (h : (Sparse.get HalfCtl.init (m.bay.press pr).ctl ctl).Ready fmt) :
    checkHalf m u pr ctl fmt = m := by
  obtain ⟨hvalid, hfmt, hpoison⟩ := h
  simp [checkHalf, hvalid, hfmt, hpoison]
/-- The checks of a panel's two halves, one after the other, find both ready. -/
theorem checkHalf_both_ready (m : BayM) (u : Int) (pr : Nat) {ctlA ctlB : Nat} {fmtA fmtB : BitVec 4}
    (hA : (Sparse.get HalfCtl.init (m.bay.press pr).ctl ctlA).Ready fmtA) (hB : (Sparse.get HalfCtl.init (m.bay.press pr).ctl ctlB).Ready fmtB) :
    checkHalf (checkHalf m u pr ctlA fmtA) u pr ctlB fmtB = m := by
  rw [checkHalf_ready m u pr ctlA fmtA hA, checkHalf_ready m u pr ctlB fmtB hB]

/-- The cells under a panel that is not its accumulation's last; one that starts the accumulation uses up a set-up without AUTO (07 R138). -/
def PQuarter.runPanel (c : PQuarter) (u : Int) (ha hb : Nat) (starts : Bool) (su : Setup) (left : Nat) : PQuarter :=
  { c with armed := if starts && !su.auto then none else c.armed, acc := some (su, left - 1)
           run := some { start := u, dur := panelTime su.fmtA su.fmtB, ha := ha, hb := hb, setup := some su, first := starts, last := false } }
/-- The cells q of press pr run such a panel. -/
def Bay.putPanel (x : Bay) (u : Int) (pr q ha hb : Nat) (starts : Bool) (su : Setup) (left : Nat) : Bay :=
  x.setPress pr ((x.press pr).setQuarter q (((x.press pr).quarter q).runPanel u ha hb starts su left))

/-- Starting a panel leaves every half's control bits alone: its halves are released when it ends (03 R46). -/
theorem Bay.putPanel_ctl (x : Bay) (u : Int) (pr q ha hb : Nat) (starts : Bool) (su : Setup) (left : Nat) (h : Sparse.wf Press.init x.presses = true) :
    ((x.putPanel u pr q ha hb starts su left).press pr).ctl = (x.press pr).ctl := by
  rw [Bay.putPanel, Bay.press_setPress _ _ _ h]
  rfl

/-- The set-up that the first panel took from its cells stays armed only with AUTO (07 R138). -/
theorem PQuarter.runPanel_starts_armed (c : PQuarter) (u : Int) (ha hb : Nat) (su : Setup) (left : Nat) (h : c.armed = some su) :
    (c.runPanel u ha hb true su left).armed = if su.auto then some su else none := by
  cases hauto : su.auto <;> simp [PQuarter.runPanel, h, hauto]

section
variable (m : BayM) (u : Int)

/-- A panel with more to come after it, its halves ready, only occupies its cells: no end count is recorded and no check fails (03 R53). -/
theorem runKstep_inner {pr q ha hb : Nat} (starts : Bool) {su : Setup} {left : Nat} (hw : Sparse.wf Press.init m.bay.presses = true) (hleft : 2 ≤ left)
    (hA : (Sparse.get HalfCtl.init (m.bay.press pr).ctl (ctlIx false ha q)).Ready su.fmtA)
    (hB : (Sparse.get HalfCtl.init (m.bay.press pr).ctl (ctlIx true hb q)).Ready su.fmtB) :
    runKstep m u pr q ha hb starts su left = m.upd (fun x => x.putPanel u pr q ha hb starts su left) := by
  have hlast : decide (left ≤ 1) = false := decide_eq_false (by omega)
  have hctl := m.bay.putPanel_ctl u pr q ha hb starts su left hw
  rw [← hctl] at hA hB
  calc runKstep m u pr q ha hb starts su left
      = checkHalf (checkHalf (m.upd (fun x => x.putPanel u pr q ha hb starts su left)) u pr (ctlIx false ha q) su.fmtA) u pr (ctlIx true hb q) su.fmtB := by
        simp only [runKstep, hlast, Bool.false_and, Bool.false_eq_true, if_false]
        rfl
    _ = m.upd (fun x => x.putPanel u pr q ha hb starts su left) := checkHalf_both_ready _ u pr hA hB

/-- KSTEP on free cells in their mode with a set-up armed and no accumulation in progress takes its panels from the set-up (07 R139). -/
theorem issueKstep_starts {sel : PressSel} (ha hb : Bool) {su : Setup} (hfree : (m.bay.press sel.pr.toNat).busy (selQ sel) u = false)
    (h : modeOk (m.bay.press sel.pr.toNat) sel = true) (hacc : ((m.bay.press sel.pr.toNat).quarter (selQ sel)).acc = none)
    (harmed : ((m.bay.press sel.pr.toNat).quarter (selQ sel)).armed = some su) :
    issueKstep m u sel ha hb = runKstep m u sel.pr.toNat (selQ sel) (if ha then 1 else 0) (if hb then 1 else 0) true su su.panels := by
  simp only [issueKstep, hfree, h, hacc, harmed]
  rfl
end

/-- Settles O7: the armed set-up's first panel is not its last, so it changes its cells alone. -/
theorem kstepStartsAnAccumulation : Obligations.KstepStartsAnAccumulation := by
  unfold Obligations.KstepStartsAnAccumulation
  intro s b sel ha hb su hok hsel u pr q p c ia ib ready hw hmode hfree hacc harmed hpanels hA hB
  have hreadyA : (Sparse.get HalfCtl.init p.ctl (ctlIx false ia q)).Ready su.fmtA := by
    rw [ctlIx_operandA]
    exact hA
  have hissue : issueKstep { bay := s.bay b, out := [] } u sel ha hb =
      BayM.upd { bay := s.bay b, out := [] } (fun x => x.putPanel u pr q ia ib true su su.panels) :=
    (issueKstep_starts _ u ha hb hfree ((modeOk_iff _ _).mpr hmode) hacc harmed).trans
      (runKstep_inner _ u true hw hpanels hreadyA hB)
  rw [exec_kstep s b sel ha hb hok hsel, State.bayOp_upd hok hissue rfl, ← c.runPanel_starts_armed u ia ib su su.panels harmed]
  rfl

end Sys2Proof.Machine
end

section
/-! SEND and RECV at issue, and a flit that arrives at a bay's router (07 R151, 08 R157, R160). -/

namespace Sys2Proof.Machine
open Sys2Proof

/-- The bay with a transfer begun along its route table's entry, where that entry is of the instruction's kind (08 R154, R157). -/
def Bay.beginRoute (x : Bay) (p : Pred) (send : Bool) (f : RouteF) : Bay :=
  let e := Sparse.get RouteEnt.none x.routes f.rt.toNat
  if e.kind = (if send then 1 else 2) then
    { x with route := x.route ++ [{ send := send, u := x.seq.count, rt := f.rt.toNat, ent := e, base := x.vatAddr f.vin.toNat (128 * f.voff.toNat) 128,
                                    on := x.isOn p, next := 0, body := x.seq.body }] }
  else x

@[simp] theorem Bay.beginRoute_seq (x : Bay) (p : Pred) (send : Bool) (f : RouteF) : (x.beginRoute p send f).seq = x.seq :=
  (apply_ite Bay.seq _ _ _).trans (ite_self _)

theorem issueRoute_eq (x : Bay) (p : Pred) (send : Bool) (f : RouteF) :
    issueRoute { bay := x, out := [] } x.seq.count (x.isOn p) send f =
      BayM.upd { bay := x, out := [] } (fun y => y.beginRoute p send f) :=
  (apply_ite (fun y : Bay => ({ bay := y, out := [] } : BayM)) _ _ _).symm

/-- SEND and RECV differ in the kind of entry that they take. -/
theorem exec_sendOrRecv {s : State} {b : BayId} (p : Pred) (f : RouteF) (send : Bool) (hb : b.ok = true) :
    exec (if send then .send b p f else .recv b p f) s =
      .next (s.modBay b (fun x => x.beginRoute p send f)) := by
  have hissue := issueRoute_eq (s.bay b) p send f
  cases send
  · exact exec_upd (i := .recv b p f) rfl hb hb hissue (Bay.beginRoute_seq _ _ _ _)
  · exact exec_upd (i := .send b p f) rfl hb hb hissue (Bay.beginRoute_seq _ _ _ _)

/-- What FLIT_ARRIVE does to a bay: bits of the data of each flit that is due have turned, and the flit stands at the router (08 R160). -/
def flitsLand (flips : List Nat) (m : BayM) : BayM :=
  runDue (m.upd (fun x => { x with agenda := x.agenda.map (fun d => if decide (d.at_ ≤ m.bay.seq.count) then flipFlit flips d else d) })) m.bay.seq.count isFlitDue

/-- A bay whose only due entry is a flit: it leaves the agenda for the router, with its data turned and its parity as sent. -/
theorem flitsLand_one {x : Bay} {d : Due} {id f : Nat} {vd po : Bool} {data : Bytes} {par : Nat} (flips : List Nat) (hagenda : x.agenda = [d])
    (hev : d.ev = .flitIn id f vd po data par) (hdue : d.at_ ≤ x.seq.count) :
    flitsLand flips { bay := x, out := [] } = BayM.upd { bay := x, out := [] } (fun y => { y with agenda := [], flits := y.flits ++
      [{ at_ := d.at_, routeId := id, f := f, void := vd, poison := po, data := flipBits data flips, parity := par }] }) := by
  obtain ⟨at_, phase, ev⟩ := d
  subst hev
  simp [flitsLand, runDue, runEvent, BayM.upd, flipFlit, isFlitDue, hagenda, hdue]

/-- Settles O23: the transfer is the bay's only change, and so is the flit that lands. -/
theorem meshTransfersAndFlits : Obligations.MeshTransfersAndFlits := by
  unfold Obligations.MeshTransfersAndFlits
  refine ⟨fun s b p f send hb => exec_sendOrRecv p f send hb, fun s b d id f vd po data par flips hb hagenda hev hdue => ?flit⟩
  case flit => exact exec_upd (op := fun _ => flitsLand flips) rfl hb rfl (flitsLand_one flips hagenda hev hdue) rfl

end Sys2Proof.Machine
end

section
/-! LOAD messages and the messages of the other classes at a node of the lath (08 R164 to R172). -/

namespace Sys2Proof.Machine
open Sys2Proof

/-- What becomes of a LOAD message whose CRC fails at its bay: it is counted, answered with a NAK and sent again (08 R170, R172). -/
def State.nakLoad (s : State) (m : LoadMsg) : State := ((s.modBay m.bay (fun x => x.count cntLoadNak 1)).emit (.loadNak m.bay m)).resendLoad m.bay m

/-- A LOAD message to one bay whose node is open has its effect or is refused with a NAK, by its CRC (08 R170). -/
theorem State.load_open {s : State} {m : LoadMsg} {micro : Bool} (f : Bay → Bay) (hgroup : m.group = none) (hopen : s.loadOpen m.bay micro = true) :
    s.load m micro f = if loadCrcOk m then s.modBay m.bay f else s.nakLoad m := by
  simp only [State.load, State.loadTargets, hgroup, List.foldl_cons, List.foldl_nil, hopen, if_true, State.nakLoad]

section
variable (m : LoadMsg) (s : State)

theorem exec_plan : exec (.plan m) s =
    .next (if m.words.length % 8 = 0 ∧ 8 ≤ m.words.length ∧ m.words.length ≤ 56 then s.load m false (fun x => x.loadPlan m.addr.toNat m.words) else s) := rfl
theorem exec_pegtab : exec (.pegtab m) s = .next (if m.words.length ≤ 56 then s.load m false (fun x => x.loadPegtab m.addr.toNat m.words) else s) := rfl
theorem exec_micro : exec (.micro m) s = .next (if m.words.length ≤ 56 then s.load m true (fun x => x.loadMicro m.addr.toNat m.words) else s) := rfl
end

/-- Settles O24: a LOAD message of a length that its kind may have is one load at its bay. -/
theorem loadMessagesWriteTheStores : Obligations.LoadMessagesWriteTheStores := by
  unfold Obligations.LoadMessagesWriteTheStores
  intro s m hgroup crcOk nak
  refine ⟨fun hwhole hmin hmax hopen => ?plan, fun hbroken => ?broken, fun hlen hopen => ?pegtab, fun hlen hopen => ?micro⟩
  case plan =>
    rw [exec_plan, if_pos ⟨hwhole, hmin, hmax⟩, State.load_open _ hgroup hopen]
    rfl
  case broken =>
    have hnot : ¬(m.words.length % 8 = 0 ∧ 8 ≤ m.words.length ∧ m.words.length ≤ 56) := by omega
    rw [exec_plan, if_neg hnot]
  case pegtab =>
    rw [exec_pegtab, if_pos hlen, State.load_open _ hgroup hopen]
    rfl
  case micro =>
    rw [exec_micro, if_pos hlen, State.load_open _ hgroup hopen]
    rfl

/-- How many of a message's words, its header's among them, an ECC check finds in a state (08 R165). -/
def wordsMet (m : LathMsg) (ecc : List Ecc) (e : Ecc) : Nat := (ecc.take (m.payload.length + 1)).count e
/-- The state once the node has counted the corrected and the uncorrectable words of a message (08 R166, R172). -/
def State.lathCounted (s : State) (n : LathNode) (m : LathMsg) (ecc : List Ecc) : State :=
  (s.nodeCount n 0 (wordsMet m ecc .corrected)).nodeCount n 1 (wordsMet m ecc .uncorrectable)
/-- What a message does at the node that it is addressed to, by its class (08 R165, 12 R260). -/
def State.lathTaken (s : State) (n : LathNode) (m : LathMsg) : State :=
  match m.cls, n with
  | .cmd, .hub f => s.cmdAt f m
  | .cmd, .bay b => s.cmdAtBay b m
  | .load, .bay b => s.loadAt b m
  | .reg, _ => s.regEnds (regTarget m n)
  | _, _ => s

theorem State.lathTaken_tele {s : State} {n : LathNode} {m : LathMsg} (h : m.cls = .tele) : s.lathTaken n m = s := by
  simp only [State.lathTaken, h]
theorem State.lathTaken_reg {s : State} {n : LathNode} {m : LathMsg} (h : m.cls = .reg) : s.lathTaken n m = s.regEnds (regTarget m n) := by
  simp only [State.lathTaken, h]
theorem State.lathTaken_cmd_hub {s : State} {f : Nat} {m : LathMsg} (h : m.cls = .cmd) : s.lathTaken (.hub f) m = s.cmdAt f m := by
  simp only [State.lathTaken, h]

theorem State.msgLost_tele {s : State} {n : LathNode} {m : LathMsg} (h : m.cls = .tele) : s.msgLost n m = s := by
  simp only [State.msgLost, h]
theorem State.msgLost_reg {s : State} {n : LathNode} {m : LathMsg} (h : m.cls = .reg) : s.msgLost n m = s.regLost n m := by
  simp only [State.msgLost, h]
theorem State.msgLost_load {s : State} {b : BayId} {m : LathMsg} (h : m.cls = .load) :
    s.msgLost (.bay b) m = (s.emit (.loadNak b (lathLoad m b))).resendLoad b (lathLoad m b) := by
  simp only [State.msgLost, h]

theorem State.cmdAt_switch (s : State) (f : Nat) {m : LathMsg} (h : m.type = 0x20#8) : s.cmdAt f m = s.clockSwitch f (clockCmdOf m) := by
  simp [State.cmdAt, h]
theorem State.cmdAt_cancel (s : State) (f : Nat) {m : LathMsg} (h : m.type = 0x21#8) : s.cmdAt f m = s.clockCancel f (clockCmdOf m) := by
  simp [State.cmdAt, h]
theorem State.cmdAt_epochLoad (s : State) (f : Nat) {m : LathMsg} (h : m.type = 0x23#8) : s.cmdAt f m = s.clockEpoch f (clockCmdOf m).count := by
  simp [State.cmdAt, h]

/- A clock command of a field of the die completes. -/
theorem exec_switch (s : State) {f : Nat} (c : ClockCmd) (hf : f < 10) : exec (.switch f c) s = .next (s.clockSwitch f c) := if_pos hf
theorem exec_cancel (s : State) {f : Nat} (c : ClockCmd) (hf : f < 10) : exec (.cancel f c) s = .next (s.clockCancel f c) := if_pos hf
theorem exec_epochLoad (s : State) {f : Nat} (epoch : Nat) (hf : f < 10) : exec (.epochLoad f epoch) s = .next (s.clockEpoch f epoch) := if_pos hf

section
variable {s : State} {n : LathNode} (m : LathMsg) (ecc : List Ecc) (hn : lathNodeOk n = true)
include hn

/-- What LATH_MESSAGE_RECEIVE does at a node of the die. -/
theorem exec_lathMessageReceive : exec (.lathMessageReceive n m ecc) s = .next (
    if s.nodeUp n = false then s
    else if 0 < wordsMet m ecc .uncorrectable then (s.lathCounted n m ecc).msgLost n m
    else if (s.lathCounted n m ecc).addressed m n = false then s.lathCounted n m ecc
    else (s.lathCounted n m ecc).lathTaken n m) := by
  change execLathMessageReceive n m ecc s = _
  simp only [execLathMessageReceive, hn, Bool.not_true, Bool.not_eq_true', Bool.false_eq_true, if_false]
  exact (apply_ite Host.Outcome.next _ _ _).symm

theorem exec_lathMessageReceive_down (hup : s.nodeUp n = false) : exec (.lathMessageReceive n m ecc) s = .next s := by
  rw [exec_lathMessageReceive m ecc hn, if_pos hup]

variable (hup : s.nodeUp n = true)
include hup

theorem exec_lathMessageReceive_lost (hue : 0 < wordsMet m ecc .uncorrectable) :
    exec (.lathMessageReceive n m ecc) s = .next ((s.lathCounted n m ecc).msgLost n m) := by
  rw [exec_lathMessageReceive m ecc hn, if_neg (by simp [hup]), if_pos hue]
theorem exec_lathMessageReceive_passing (hue : wordsMet m ecc .uncorrectable = 0) (hto : (s.lathCounted n m ecc).addressed m n = false) :
    exec (.lathMessageReceive n m ecc) s = .next (s.lathCounted n m ecc) := by
  rw [exec_lathMessageReceive m ecc hn, if_neg (by simp [hup]), if_neg (by omega), if_pos hto]
theorem exec_lathMessageReceive_taken (hue : wordsMet m ecc .uncorrectable = 0) (hto : (s.lathCounted n m ecc).addressed m n = true) :
    exec (.lathMessageReceive n m ecc) s = .next ((s.lathCounted n m ecc).lathTaken n m) := by
  rw [exec_lathMessageReceive m ecc hn, if_neg (by simp [hup]), if_neg (by omega), if_neg (by simp [hto])]

/-- A TELE message is counted, whatever else becomes of it. -/
theorem exec_lathMessageReceive_tele (hcls : m.cls = .tele) : exec (.lathMessageReceive n m ecc) s = .next (s.lathCounted n m ecc) := by
  rcases Nat.eq_zero_or_pos (wordsMet m ecc .uncorrectable) with hue | hue
  · cases hto : (s.lathCounted n m ecc).addressed m n
    · exact exec_lathMessageReceive_passing m ecc hn hup hue hto
    · rw [exec_lathMessageReceive_taken m ecc hn hup hue hto, State.lathTaken_tele hcls]
  · rw [exec_lathMessageReceive_lost m ecc hn hup hue, State.msgLost_tele hcls]
end

/-- A clock command that a CMD message brings to its hub (12 R260). -/
theorem exec_lathMessageReceive_cmd {s : State} {f : Nat} {m : LathMsg} {ecc : List Ecc} (hn : lathNodeOk (.hub f) = true) (hup : s.nodeUp (.hub f) = true)
    (hue : wordsMet m ecc .uncorrectable = 0) (hkind : m.dkind = 2#2) (hdest : m.dest.toNat % 16 = f) (hcls : m.cls = .cmd) :
    exec (.lathMessageReceive (.hub f) m ecc) s = .next ((s.lathCounted (.hub f) m ecc).cmdAt f m) := by
  have hto : (s.lathCounted (.hub f) m ecc).addressed m (.hub f) = true := by simp [State.addressed, hkind, hdest]
  rw [exec_lathMessageReceive_taken m ecc hn hup hue hto, State.lathTaken_cmd_hub hcls]

/-- Settles O25: by whether the node is up, whether a word is lost, whether the node is the target, and by the class. -/
theorem lathMessagesAtANode : Obligations.LathMessagesAtANode := by
  unfold Obligations.LathMessagesAtANode
  intro s n m ecc hn words ue t
  refine ⟨exec_lathMessageReceive_down m ecc hn, fun hup => ⟨exec_lathMessageReceive_tele m ecc hn hup, exec_lathMessageReceive_passing m ecc hn hup, ?cmd, ?reg, ?load⟩⟩
  case cmd =>
    rintro f rfl hue hkind hdest hcls
    have hf : f < 10 := of_decide_eq_true hn
    rw [exec_lathMessageReceive_cmd hn hup hue hkind hdest hcls]
    exact ⟨fun htype => by rw [exec_switch _ _ hf, State.cmdAt_switch _ f htype]; rfl, fun htype => by rw [exec_cancel _ _ hf, State.cmdAt_cancel _ f htype]; rfl,
      fun htype => by rw [exec_epochLoad _ _ hf, State.cmdAt_epochLoad _ f htype]; rfl⟩
  case reg =>
    intro hcls out
    refine ⟨fun hue hto => ?_, fun hue => ?_⟩
    · rw [exec_lathMessageReceive_taken m ecc hn hup hue hto, State.lathTaken_reg hcls]
      rfl
    · rw [exec_lathMessageReceive_lost m ecc hn hup hue, State.msgLost_reg hcls]
      rfl
  case load =>
    rintro b rfl hcls hue
    rw [exec_lathMessageReceive_lost m ecc hn hup hue, State.msgLost_load hcls]
    rfl

end Sys2Proof.Machine
end

section
/-! The plate's check of a peg: what it reports of a field, and that it moves the parcel's checker on (08 R167, R168). -/

namespace Sys2Proof.Machine
open Sys2Proof

/-- From s to t the parcels' store keeps its form, and a parcel has an invocation where it had one. -/
def State.InvsStand (s t : State) : Prop :=
  Sparse.wf Parcel.init s.parcels = true → Sparse.wf Parcel.init t.parcels = true ∧ ∀ k, (t.parcel k).inv.isSome = (s.parcel k).inv.isSome

theorem State.logEntry_parcels (s : State) (r : Report) (sec : Bool) : (s.logEntry r sec).parcels = s.parcels := by
  obtain ⟨e, ps, os, -, -, h⟩ := s.logEntry_eq r sec
  rw [h]

@[simp] theorem Parcel.modInv_isSome (q : Parcel) (g : Inv → Inv) : (q.modInv g).inv.isSome = q.inv.isSome := Option.isSome_map

theorem State.vfabTo_parcels (s : State) (f : Nat) (code : BitVec 8) : (s.vfabTo f code).parcels = s.parcels := rfl
theorem State.retarget_parcels (s : State) (f : Nat) : (s.retarget f).parcels = s.parcels := by
  unfold State.retarget
  split
  · exact s.vfabTo_parcels f _
  · rfl

theorem State.checkField_cases (s : State) (p ord exp f : Nat) : s.checkField p ord exp f = s ∨ ∃ r, s.checkField p ord exp f = s.report r :=
  (ite_eq_or_eq _ _ _).imp_right (fun h => ⟨_, h⟩)

namespace State.InvsStand

theorem refl (s : State) : s.InvsStand s := fun h => ⟨h, fun _ => rfl⟩
theorem trans {s t u : State} (h : s.InvsStand t) (h' : t.InvsStand u) : s.InvsStand u := fun hw =>
  have ⟨htw, ht⟩ := h hw
  have ⟨huw, hu⟩ := h' htw
  ⟨huw, fun k => (hu k).trans (ht k)⟩
/-- What leaves the parcels alone does. -/
theorem of_parcels {s t : State} (h : t.parcels = s.parcels) : s.InvsStand t := fun hw => ⟨by rw [h]; exact hw, fun k => by simp only [State.parcel, h]⟩
theorem foldl {α : Type} (f : State → α → State) (hf : ∀ (t : State) x, t.InvsStand (f t x)) : ∀ (l : List α) (s : State), s.InvsStand (l.foldl f s)
  | [], s => refl s
  | x :: l, s => (hf s x).trans (foldl f hf l (f s x))
/-- So does a change of a parcel that neither starts nor ends an invocation. -/
theorem modParcel (s : State) (p : Nat) (g : Parcel → Parcel) (hg : ∀ q, (g q).inv.isSome = q.inv.isSome) : s.InvsStand (s.modParcel p g) := fun hw =>
  ⟨Sparse.wf_set _ _ _ _ hw, fun k => by
    rw [State.modParcel, s.parcel_setParcel p _ hw]
    split
    · next hk => rw [hg, hk]
    · rfl⟩

/-- A report at most notes the fault in its parcel's invocation (15 R310). -/
theorem report (s : State) (r : Report) : s.InvsStand (s.report r) := by
  have hlog := fun sec => of_parcels (s.logEntry_parcels r sec)
  unfold State.report
  split
  · split
    · split
      · split
        · exact hlog true
        · exact (hlog false).trans (modParcel _ _ _ (fun q => q.modInv_isSome _))
      · exact hlog false
    · exact hlog false
  · exact hlog false

theorem checkField (s : State) (p ord exp f : Nat) : s.InvsStand (s.checkField p ord exp f) := by
  obtain h | ⟨r, h⟩ := s.checkField_cases p ord exp f
  · rw [h]; exact refl s
  · rw [h]; exact report s r

/- What a peg brings to the sills' clocks, to VFAB and to the fields' peg clocks leaves the parcels alone (14 R288, R296, 15 R316). -/
theorem sillClocks (t : State) (on : Bool) (cs : List Nat) (g : Nat → Cask → Cask) :
    t.InvsStand (if on then cs.foldl (fun t c => t.modCask c (g c)) t else t) := by
  cases on
  · exact refl t
  · exact foldl _ (fun u c => of_parcels (u.modCask_parcels c _)) cs t
theorem boosts (t : State) (fs : List Nat) (g : Field → Field) : t.InvsStand (fs.foldl (fun t k => (t.modField k g).retarget k) t) :=
  foldl _ (fun u k => of_parcels ((u.modField k g).retarget_parcels k)) fs t
theorem pegClocks (s : State) (fs : List Nat) (g : Field → Field) : s.InvsStand (fs.foldl (fun t f => t.modField f g) s) :=
  foldl _ (fun t f => of_parcels (t.modField_parcels f g)) fs s

theorem pegLevers (s : State) (p : Nat) (mark : Option (BitVec 8)) : s.InvsStand (s.pegLevers p mark) := by
  have hbeta := modParcel s p (fun q => { q with tr := { q.tr with beta := q.tr.betaNext } }) (fun _ => rfl)
  unfold State.pegLevers
  cases mark with
  | none => exact hbeta.trans (sillClocks _ _ _ _)
  | some ph =>
    refine ((hbeta.trans (sillClocks _ _ _ _)).trans (modParcel _ p _ ?mark)).trans (boosts _ _ _)
    case mark => exact fun _ => rfl

end State.InvsStand

/-- The number that a token of a parcel's next unchecked peg carries: pegs of the prologue and of the body count apart (06 R122, 08 R168). -/
def Parcel.nextPegno (q : Parcel) (i : Inv) : Nat :=
  let np := if i.prologueRan then q.prologuePegs else 0
  if i.checked + 1 ≤ np then i.checked + 1 else i.checked + 1 - np
/-- The parcel's next unchecked peg judged: its fields' failures are reported, their peg clocks advance, the peg's levers move (08 R168, 14 R288). -/
def State.pegJudged (s : State) (p : Nat) (i : Inv) : State :=
  let q := s.parcel p
  let t := q.fields.foldl (fun t f => t.checkField p (i.checked + 1) (q.nextPegno i) f) s
  let u := q.fields.foldl (fun t f => t.modField f (fun x => { x with pegClock := x.pegClock + 1 })) t
  u.pegLevers p (phaseOf i.tokens (u.parcel p).firstBay (i.checked + 1))
/-- The checker has moved past peg ord: the tokens of later pegs stay (08 R168). -/
def Inv.pastPeg (i : Inv) (ord : Nat) : Inv :=
  { i with checked := ord, endSeen := i.endSeen || i.tokens.any (fun t => decide (t.ord = ord) && t.isEnd)
           tokens := i.tokens.filter (fun t => decide (ord < t.ord)) }

theorem State.pegCheck_eq {s : State} {p : Nat} {i : Inv} (h : (s.parcel p).inv = some i) :
    s.pegCheck p = (s.pegJudged p i).modInv p (fun j => j.pastPeg (i.checked + 1)) := by
  simp only [State.pegCheck, h]
  rfl

theorem State.InvsStand.pegJudged (s : State) (p : Nat) (i : Inv) : s.InvsStand (s.pegJudged p i) :=
  ((foldl _ (fun t f => checkField t p _ _ f) _ s).trans (pegClocks _ _ _)).trans (pegLevers _ p _)

theorem Inv.pastPeg_tokens (i : Inv) (ord : Nat) : ∀ x ∈ (i.pastPeg ord).tokens, ord < x.ord := fun _ hx => of_decide_eq_true (List.mem_filter.mp hx).2

/-- A change of a parcel's invocation, where it has one. -/
theorem State.inv_modInv (s : State) (p : Nat) (g : Inv → Inv) (hw : Sparse.wf Parcel.init s.parcels = true) :
    ((s.modInv p g).parcel p).inv = (s.parcel p).inv.map g := by
  rw [State.modInv, State.modParcel, s.parcel_setParcel p _ hw, if_pos rfl, Parcel.modInv]

/-- A check of a parcel that runs an invocation leaves the checker one peg on. -/
theorem State.pegCheck_inv {s : State} {p : Nat} {i : Inv} (hw : Sparse.wf Parcel.init s.parcels = true) (h : (s.parcel p).inv = some i) :
    ∃ j : Inv, ((s.pegCheck p).parcel p).inv = some (j.pastPeg (i.checked + 1)) := by
  obtain ⟨hjudged, hstands⟩ := State.InvsStand.pegJudged s p i hw
  obtain ⟨j, hj⟩ : ∃ j, ((s.pegJudged p i).parcel p).inv = some j := Option.isSome_iff_exists.mp (by rw [hstands, h]; rfl)
  refine ⟨j, ?_⟩
  rw [State.pegCheck_eq h, State.inv_modInv _ _ _ hjudged, hj]
  rfl

theorem exec_pegCheck (s : State) {p : Nat} (hp : p < 4) : exec (.pegCheck p) s = .next (if s.pegReached p then s.pegCheck p else s) :=
  if_neg (Nat.not_le.mpr hp)

section
variable {t : TokenSum} (e : Nat)

theorem tokenKind_few (h : t.arrived < 144) : tokenKind e (some t) = 2 := if_pos h
theorem tokenKind_disagree (hall : 144 ≤ t.arrived) (h : t.agree = false) : tokenKind e (some t) = 3 := by
  simp only [tokenKind, Nat.not_lt.mpr hall, h, if_false, Bool.not_false, Bool.true_or, if_true]

variable (hall : 144 ≤ t.arrived) (hagree : t.agree = true) (hpeg : t.pegno = BitVec.ofNat 16 e)
include hall hagree hpeg

/-- Tokens that have all arrived, agree and name the peg: only their digests can fail. -/
theorem tokenKind_named : tokenKind e (some t) = if t.digestOk then 0 else 4 := by
  simp only [tokenKind, Nat.not_lt.mpr hall, hagree, hpeg, if_false, ne_eq, not_true_eq_false, decide_false, Bool.not_true, Bool.or_false, Bool.false_eq_true]
  cases t.digestOk <;> rfl
end

/-- Settles O26: the judgement of a peg leaves its parcel's invocation standing, so the checker moves on by one; each kind of failure is one test. -/
theorem pegCheckAtTheDeadline : Obligations.PegCheckAtTheDeadline := by
  unfold Obligations.PegCheckAtTheDeadline
  refine ⟨fun s p hp hnot => ?early, fun s p i hp hreached hw hinv => ?checks, fun s p ord e f i hinv => ?reports, fun _ => rfl, fun t e => tokenKind_few e,
    fun t e => tokenKind_disagree e, fun t e hall hagree hpeg hfail => ?digest, fun t e hall hagree hpeg hgood => ?passes⟩
  case early => rw [exec_pegCheck s hp, hnot]; rfl
  case checks =>
    obtain ⟨j, hj⟩ := State.pegCheck_inv hw hinv
    exact ⟨s.pegCheck p, j.pastPeg (i.checked + 1), by rw [exec_pegCheck s hp, if_pos hreached], hj, rfl, j.pastPeg_tokens _⟩
  case reports => simp only [State.checkField, hinv]
  case digest => rw [tokenKind_named e hall hagree hpeg, hfail]; rfl
  case passes => rw [tokenKind_named e hall hagree hpeg, hgood]; rfl

end Sys2Proof.Machine
end

section
/-! CRD, CWR and CBW at issue, and the delivery of a read's piece (09 R181 to R190, 07 R150). -/

namespace Sys2Proof.Machine
open Sys2Proof

/-- The address of R181 from the register pair of a well-formed instruction, which begins at an even register. -/
theorem cellarAddr_pair (x : Bay) {ci : BitVec 4} (coff : Nat) (hci : ci.toNat % 2 = 0) :
    cellarAddr x ci.toNat coff = ((x.idxReg (ci.toNat + 1)).toNat * 2 ^ 32 + (x.idxReg ci.toNat).toNat + 64 * coff) % 2 ^ 42 / 64 * 64 := by
  have hpair : (ci.toNat + 1) % 16 = ci.toNat + 1 := by omega
  simp only [cellarAddr, pairReg, hpair]

/-- The region that holds a cellar address of the bay's own field; an address of another field is in none (09 R181). -/
def BCtx.ownRegion (cx : BCtx) (a : Nat) : Option Region :=
  if a / 2 ^ 37 / 2 = cx.rel / 2 then regionAt (cx.regions.getD (a / 2 ^ 37 % 2) []) (a % 2 ^ 37) else none

/-- May a read or a write reach n bytes from an offset that lies in the region given (09 R179, R181)? -/
def rackReaches (write : Bool) (off n : Nat) : Option Region → Bool
  | some r => r.holds off n && (if write then rackWrites r.use_ else rackReads r.use_)
  | none => false

/-- Is a transaction timed as interleaved, where its first piece lies in the region given (09 R182, R184)? -/
def rackInterleaves : Option Region → Bool
  | some r => decide (r.kind = .interleaved)
  | none => false

/-- The bay with a transaction at cellar address a put on its racking unit; one that is on but refused goes out void and raises CELLAR_ADDRESS (09 R181). -/
def Bay.putRack (x : Bay) (cx : BCtx) (p : Pred) (kind : Nat) (f : RackF) (grp : Nat) (beats : List Ecc) (a : Nat) (inter ok : Bool) : Bay :=
  let y : Bay := { x with tag := x.tag + 1, racks := x.racks ++
    [{ tag := x.tag, kind := kind, u := x.seq.count, cask := 2 * cx.field + a / 2 ^ 37 % 2, off := a % 2 ^ 37, pieces := f.lm1.toNat + 1,
       inter := inter, beats := beats, grp := grp, vaddr := x.vatAddr f.vin.toNat (64 * f.voff.toNat) 64,
       on := x.isOn p && ok, next := 0, nextBuf := 0, buf := [], body := x.seq.body }] }
  if x.isOn p && !ok then y.due (x.seq.count + 2) 0 (.fault 0x0403 0 [(8, a), (1, kind)]) else y

@[simp] theorem Bay.putRack_seq (x : Bay) (cx : BCtx) (p : Pred) (kind : Nat) (f : RackF) (grp : Nat) (beats : List Ecc) (a : Nat) (inter ok : Bool) :
    (x.putRack cx p kind f grp beats a inter ok).seq = x.seq :=
  (apply_ite Bay.seq _ _ _).trans (ite_self _)

section
variable {x : Bay} (cx : BCtx) (p : Pred) {f : RackF} (beats : List Ecc) {a : Nat} {here there : Option Region}

/-- A read or a write at issue, by the region of its own casks that it may reach and the region of any cask that times it. -/
theorem issueRack_readOrWrite (write : Bool) (ha : cellarAddr x f.ci.toNat f.coff.toNat = a)
    (hhere : cx.ownRegion a = here) (hthere : regionAt (cx.allRegions.getD (a / 2 ^ 37) []) (a % 2 ^ 37) = there) :
    issueRack cx { bay := x, out := [] } x.seq.count (x.isOn p) (if write then 2 else 1) f 0 beats = BayM.upd { bay := x, out := [] } (fun y =>
      y.putRack cx p (if write then 2 else 1) f 0 beats a (rackInterleaves there) (rackReaches write (a % 2 ^ 37) (64 * (f.lm1.toNat + 1)) here)) := by
  have hne : (if write then 2 else 1) ≠ 3 := by cases write <;> decide
  unfold BCtx.ownRegion at hhere
  simp only [issueRack, if_neg hne, ha, decide_eq_true_eq, hhere, hthere]
  cases write <;> cases here <;> cases there <;> rfl

/-- A broadcast at issue, which its group admits or refuses (09 R190). -/
theorem issueRack_broadcast (grp : Nat) (ha : cellarAddr x f.ci.toNat 0 = a) :
    issueRack cx { bay := x, out := [] } x.seq.count (x.isOn p) 3 f grp beats = BayM.upd { bay := x, out := [] } (fun y =>
      y.putRack cx p 3 f grp beats a false (groupOk cx grp (a % 2 ^ 37) (64 * (f.lm1.toNat + 1)))) := by
  subst ha
  rfl
end

/-- A RACK instruction of a bay that exists is well formed if its register pair is. -/
theorem wf_ciOk {b : BayId} {ci : BitVec 4} (hb : b.ok = true) (hci : ci.toNat % 2 = 0) : (b.ok && ciOk ci) = true :=
  Bool.and_eq_true_iff.mpr ⟨hb, beq_iff_eq.mpr hci⟩

section
variable {s : State} {b : BayId} {cx : BCtx} {a : Nat} (p : Pred) (hb : b.ok = true) (hcx : s.bctx b = cx)
include hb hcx

/-- CRD and CWR differ in the kind of transaction and in the beats of a write. -/
theorem exec_crdOrCwr {f : RackF} {here there : Option Region} (write : Bool) (beats : List Ecc) (hci : f.ci.toNat % 2 = 0)
    (ha : cellarAddr (s.bay b) f.ci.toNat f.coff.toNat = a)
    (hhere : cx.ownRegion a = here) (hthere : regionAt (cx.allRegions.getD (a / 2 ^ 37) []) (a % 2 ^ 37) = there) :
    exec (if write then .cwr b p { f := f, beats := beats } else .crd b p f) s = .next (s.modBay b (fun x =>
      x.putRack cx p (if write then 2 else 1) f 0 (if write then beats else []) a (rackInterleaves there)
        (rackReaches write (a % 2 ^ 37) (64 * (f.lm1.toNat + 1)) here))) := by
  subst hcx
  cases write
  case false => exact exec_upd (i := .crd b p f) rfl hb (wf_ciOk hb hci) (issueRack_readOrWrite _ p [] false ha hhere hthere) (Bay.putRack_seq ..)
  case true => exact exec_upd (i := .cwr b p { f := f, beats := beats }) rfl hb (wf_ciOk hb hci) (issueRack_readOrWrite _ p beats true ha hhere hthere) (Bay.putRack_seq ..)

/-- CBW has no offset of its own. -/
theorem exec_cbw {ci vin : BitVec 4} {voff : BitVec 16} {l : BitVec 6} (g : GroupWriteF) (hci : ci.toNat % 2 = 0)
    (ha : cellarAddr (s.bay b) ci.toNat 0 = a) :
    exec (.cbw b p ci vin voff l g) s = .next (s.modBay b (fun x =>
      x.putRack cx p 3 { ci := ci, vin := vin, voff := voff, lm1 := l, coff := 0#10 } g.grp.toNat g.beats a false
        (groupOk cx g.grp.toNat (a % 2 ^ 37) (64 * (l.toNat + 1))))) := by
  subst hcx
  exact exec_upd rfl hb (wf_ciOk hb hci) (issueRack_broadcast _ p g.beats g.grp.toNat ha) (Bay.putRack_seq ..)
end

section
variable {r : RackRun} {c : Int}

/-- The first piece of a read is due 160 fc after its issue, whatever its region's kind (09 R182). -/
theorem RackRun.dueAt_first (hnext : r.next = 0) (hpieces : r.pieces = 1) (hdue : r.u + 160 ≤ c) : r.dueAt c = [0] := by
  have ht : r.t 0 = 0 := by simp [RackRun.t]
  simp [RackRun.dueAt, RackRun.d, ht, hnext, hpieces, hdue]

variable {ch : Chunk} (site : Nat)

theorem pieceChunk_buffered (epoch : Nat) (hbuf : r.buf = [(0, ch)]) : pieceChunk site epoch r 0 .ok = (ch, .ok) := by
  simp [pieceChunk, hbuf, pieceBad]

theorem Chunk.empty_append (d : Chunk) : Chunk.append { bytes := [], bad := [] } d = d := by
  simp [Chunk.append]

/-- A clean piece in the return buffer is written to the vat, and its read goes on. -/
theorem rackDeliver_piece {m : BayM} (hracks : m.bay.racks = [r]) (hon : r.on = true) (hnext : r.next = 0) (hpieces : r.pieces = 1) (hdue : r.u + 160 ≤ c)
    (hbuf : r.buf = [(0, ch)]) :
    rackDeliver site m c r [] = m.upd (fun x => { x with free := x.free + 1, racks := [{ r with next := 1 }], accs := x.accs ++ [rackAcc c r.vaddr 64 (some ch) true .none r.body] }) := by
  simp [rackDeliver, RackRun.dueAt_first hnext hpieces hdue, hon, hpieces, enumFrom, pieceChunk_buffered site _ hbuf, Chunk.empty_append, BayM.upd, hracks]

/-- A read that stands alone is the only delivery of its bay. -/
theorem rackDeliveries_single {m : BayM} (errs : List PieceErr) (hracks : m.bay.racks = [r]) (hkind : r.kind = 1) :
    rackDeliveries site m c errs = rackDeliver site m c r errs := by
  simp only [rackDeliveries, hracks, List.foldl_cons, List.foldl_nil, hkind, if_true]
end

/-- Settles O20: each instruction only puts its transaction on its bay, and the one read's delivery is its piece. -/
theorem rackInstructionsAndDelivery : Obligations.RackInstructionsAndDelivery := by
  unfold Obligations.RackInstructionsAndDelivery
  refine ⟨fun s b p hb => ?issue, fun s b r ch hb hracks hkind hon hnext hpieces hdue hbuf => ?delivery⟩
  case issue =>
    generalize hcx : s.bctx b = cx
    refine ⟨fun f write beats hci => ?readOrWrite, fun ci vin voff l g beats hci => ?broadcast⟩
    case readOrWrite =>
      intro a reg n ok
      have ha : cellarAddr (s.bay b) f.ci.toNat f.coff.toNat = a := cellarAddr_pair _ _ hci
      have hreg : cx.ownRegion a = reg := rfl
      -- What the regions are does not matter from here on; left open, they would be evaluated to no end.
      clear_value reg a
      generalize hthere : regionAt (cx.allRegions.getD (a / 2 ^ 37) []) (a % 2 ^ 37) = there
      cases reg <;> cases there <;> exact exec_crdOrCwr p hb hcx write beats hci ha hreg hthere
    case broadcast =>
      intro a ok
      have ha : cellarAddr (s.bay b) ci.toNat 0 = a := (cellarAddr_pair _ 0 hci).trans (by rw [Nat.mul_zero, Nat.add_zero])
      exact exec_cbw p hb hcx { grp := g, beats := beats } hci ha
  case delivery =>
    have hdelivers : rackDeliveries (bayIx (s.bctx b).id) { bay := s.bay b, out := [] } (s.bay b).seq.count [] = _ :=
      (rackDeliveries_single _ [] hracks hkind).trans (rackDeliver_piece _ hracks hon hnext hpieces hdue hbuf)
    exact exec_upd rfl hb rfl hdelivers rfl

end Sys2Proof.Machine
end

section
/-! The sill operations: at issue, at their end count, and what FILL, COPY and DIGEST compute (07 R150, 10 R204 to R222). -/

namespace Sys2Proof.Machine
open Sys2Proof

/-- The bay with a sill operation begun from its descriptor; one whose descriptor is of another OPK, or of a bay outside a parcel, is off (10 R205 to R207). -/
def Bay.beginSop (x : Bay) (cx : BCtx) (p : Pred) (opk : Nat) (f : SopF) : Bay :=
  let d := Sparse.get SillDesc.none x.descs f.dix.toNat
  let period := cx.period.getD (d.cask % 2) 0
  let ws := cx.windows.getD (d.cask % 2) []
  let k0 := firstWork period ws (period + 1) (Int.fdiv (x.seq.count + 32 + (d.inl : Int) + 8) 9)
  { x with tag := x.tag + 1, sops := x.sops ++
    [{ tag := x.tag, dix := f.dix.toNat, desc := d, u := x.seq.count, k0 := k0.getD 0
       e := k0.bind (fun k => (afterWork period ws (d.t - 1) k).map (fun l => 9 * (l + 1))), vaddr := x.vatAddr f.vin.toNat (64 * f.voff.toNat) 64
       on := x.isOn p && decide (d.opk = opk) && cx.inParcel, next := 0, operand := [], snap := none, ended := false, nextOut := 0, result := none
       late := false, body := x.seq.body }] }

theorem issueSop_eq (cx : BCtx) (x : Bay) (p : Pred) {opk : Nat} (f : SopF) (hopk : opk ≠ 0) :
    issueSop cx { bay := x, out := [] } x.seq.count (x.isOn p) opk f = BayM.upd { bay := x, out := [] } (fun y => y.beginSop cx p opk f) := by
  simp only [issueSop, Bay.beginSop, BayM.upd, decide_eq_true hopk, Bool.and_true]

/-- The rows of R205. -/
theorem exec_sopOps (s : State) (b : BayId) (p : Pred) (f : SopF) : ∀ o ∈ sopOps, exec (o.1 b p f) s =
    s.bayOp b b.ok (fun cx m => issueSop cx m m.bay.seq.count (m.bay.isOn p) o.2 f) :=
  List.forall_iff_forall_mem.mp ⟨rfl, rfl, rfl, rfl, rfl, rfl, rfl, rfl⟩

/-- OPK 0 is no operation's (10 R204). -/
theorem sopOps_opk_ne_zero : ∀ o ∈ sopOps, o.2 ≠ 0 :=
  List.forall_iff_forall_mem.mp ⟨by decide, by decide, by decide, by decide, by decide, by decide, by decide, by decide⟩

/-- Settles O21: whichever the operation, its issue only adds it to the bay's. -/
theorem sillOperationsStart : Obligations.SillOperationsStart := by
  unfold Obligations.SillOperationsStart
  intro s b p f hb o ho
  exact exec_upd (g := fun x => x.beginSop (s.bctx b) p o.2 f) (exec_sopOps s b p f o ho) hb hb
    (issueSop_eq _ _ p f (sopOps_opk_ne_zero o ho)) rfl

section
variable {r : SopRun} {e c : Int}

/-- An operation that stands alone and has reached its end count is marked ended, and its end is the bay's one output (10 R207). -/
theorem sopEnds_one {x : Bay} (agree late : Bool) (found : List (Nat × PieceErr)) (hsops : x.sops = [r]) (hended : r.ended = false) (he : r.e = some e) (hc : e ≤ c) :
    sopEnds { bay := x, out := [] } c agree late found =
      { bay := { x with sops := [{ r with ended := true, late := late }] }, out := [.sopEnd { r with late := late } agree found] } := by
  simp [sopEnds, BayM.upd, BayM.emit, hsops, hended, he, hc]

/-- An operation that is off only counts SOP_DONE, where the sill's lanes agree (10 R222). -/
theorem State.sopEnd_off (s : State) (b : BayId) (found : List (Nat × PieceErr)) (hoff : r.on = false) :
    s.sopEnd b r true found = s.caskCount (2 * fieldOf b + r.desc.cask) ckSopDone 1 := by
  simp [State.sopEnd, hoff]
end

theorem fillBytes_word (v n : Nat) : fillBytes (natLe 4 v) n = (List.range n).map (fun k => (natLe 4 v).getD (k % 4) 0#8) := rfl

section
variable {d : SillDesc} (blk : Bytes) {m : SopM} {ra rb : Region} (ha : m.cask.region d.a = some ra)
include ha

/-- FILL of mode 0 repeats the four bytes of its pattern (10 R213). -/
theorem sopRun_fill (hopk : d.opk = 7) (hmode : d.mode = 0) :
    sopRun d blk m = (some ([], none), m.write ra d.a ((List.range d.n).map (fun k => (natLe 4 d.pattern.toNat).getD (k % 4) 0#8))) := by
  have hne : ¬d.mode = 1 := by omega
  simp only [sopRun, hopk, ha, if_neg hne, fillBytes_word]

theorem sopRun_copy (hopk : d.opk = 8) (hb : m.cask.region d.b = some rb) :
    sopRun d blk m = (some ([], none), (m.read ra d.a d.n).2.write rb d.b (m.read ra d.a d.n).1) := by
  simp only [sopRun, hopk, ha, hb]

/-- DIGEST over a range whose read meets no poison (10 R213, R219). -/
theorem sopRun_digest (hopk : d.opk = 6) (hclean : (m.read ra d.a d.n).2.poison = false) :
    sopRun d blk m = (some (sha384 (m.read ra d.a d.n).1 ++ zeroBytes 80, none), (m.read ra d.a d.n).2) := by
  simp only [sopRun, hopk, ha, hclean, Bool.false_eq_true, if_false]
end

/-- Settles O22: the end is the bay's one output; FILL, COPY and DIGEST by what each computes, where reading leaves the operation's state as it was. -/
theorem sillOperationsEnd : Obligations.SillOperationsEnd := by
  unfold Obligations.SillOperationsEnd
  refine ⟨fun s b r e agree late found hb hsops hended he hdue => ?ends, fun d blk m ra rb ha => ⟨?fill, ?copy, ?digest⟩⟩
  case ends =>
    intro t
    have hend : exec (.sillOpResult b agree { late := late, found := found }) s = .next (t.sopEnd b { r with late := late } agree found) :=
      exec_sends (l := [.sopEnd { r with late := late } agree found]) (g := fun x => { x with sops := [{ r with ended := true, late := late }] })
        rfl hb rfl (sopEnds_one agree late found hsops hended he hdue) rfl
    refine ⟨hend, fun hoff hagree => ?_⟩
    subst hagree
    exact hend.trans (congrArg _ (t.sopEnd_off b found hoff))
  case fill => exact sopRun_fill blk ha
  case copy =>
    intro hopk hb hread
    rw [sopRun_copy blk ha hopk hb, hread]
  case digest =>
    intro hopk hpoison hread
    rw [sopRun_digest blk ha hopk (hread.symm ▸ hpoison), hread]

end Sys2Proof.Machine
end

section
/-! The run.* and vintage.* messages (11 R237 to R241, 18 R384 to R392). -/

namespace Sys2Proof.Machine
open Sys2Proof

/-- A restore that no check refuses has an image and a stream long enough for it (18 R392). -/
theorem State.importRefusal_clear {s : State} {p : Nat} {bs : Bytes} (h : s.importRefusal p bs = 0) :
    ∃ m i, (s.parcel p).image = some m ∧ s.importOf p bs = some i := by
  unfold State.importRefusal at h
  cases hm : (s.parcel p).image with
  | none =>
    simp only [hm] at h
    split_ifs at h
  | some m =>
    cases hi : s.importOf p bs with
    | none =>
      simp only [hm, hi] at h
      split_ifs at h
    | some i => exact ⟨m, i, rfl, rfl⟩

/-- The parcel with a run accepted: it takes the next serial (18 R385). -/
def Parcel.runAccepted (key : BitVec 128) (waits : Bool) (q : Parcel) : Parcel := { q with serial := q.serial + 1, inv := some (Inv.new q.serial key waits) }
/-- The invocation with an abort asked for: the ledger is ABORTED (18 R388). -/
def Inv.aborting (i : Inv) : Inv := { i with ledger := .aborted, abortReq := true }

/- The effect of each message, in the state in which it is served. -/
section
variable (s : State) (rq : Requester) (p : Nat)

section
variable {m : Image} (key : BitVec 128) (hm : (s.parcel p).image = some m) (hfree : (s.parcel p).busy = false) (hpour : (s.parcel p).pour.serving = false)
include hm hfree hpour

/-- A free parcel takes a run of its image unless its host has parked it (18 R385). -/
theorem Parcel.startRefusal_free (hhost : ¬((s.parcel p).st = .parked ∧ (s.parcel p).parkedBy = some .host)) : (s.parcel p).startRefusal m.digest = 0 := by
  simp only [Parcel.startRefusal, hm, hfree, hpour, ne_eq, not_true_eq_false, Bool.or_self, Bool.false_eq_true, if_false, if_neg hhost]

theorem hRunStart_idle (hidle : (s.parcel p).st = .idle) : hRunStart rq p key m.digest s =
    ((s.modParcel p (Parcel.runAccepted key false)).await rq 0x0601 p (.runStart (s.parcel p).serial), none) := by
  have hok := Parcel.startRefusal_free s p hm hfree hpour (by simp [hidle])
  simp only [hRunStart, hok, hidle, ne_eq, not_true_eq_false, if_false]
  rfl
theorem hRunStart_parked (hparked : (s.parcel p).st = .parked) (hby : (s.parcel p).parkedBy = some .trellis) : hRunStart rq p key m.digest s =
    replies (s.modParcel p (Parcel.runAccepted key true)) { status := 0, payload := natLe 8 (s.parcel p).serial ++ natLe 8 1 } := by
  have hok := Parcel.startRefusal_free s p hm hfree hpour (by simp [hby])
  simp only [hRunStart, hok, hparked, ne_eq, not_true_eq_false, if_false]
  rfl
end

theorem hRunAbort_wins {i : Inv} (hi : (s.parcel p).inv = some i) (hpour : i.ofPour = false) : hRunAbort p i.serial s =
    replies (if i.atRest then (s.modInv p Inv.aborting).endAndPark p 0x0607 0 else s.modInv p Inv.aborting) Ans.ok := by
  simp only [hRunAbort, hi, hpour, Bool.not_false, and_self, if_true]
  rfl
theorem hRunResult_signed {n : Nat} {r : Completion} (hr : (s.parcel p).records.find? (fun r => decide (r.serial = n) && r.signed) = some r) :
    hRunResult p n s = replies s { status := 0, payload := r.bytes } := by
  simp only [hRunResult, hr]
theorem hRunResult_unsigned {n : Nat} (hnone : (s.parcel p).records.find? (fun r => decide (r.serial = n) && r.signed) = none) :
    hRunResult p n s = refuses s 0x0605 := by
  simp only [hRunResult, hnone]
theorem hVintageDraw_running (hr : (s.parcel p).running = true) :
    hVintageDraw rq p s = ((s.await rq 0x0701 p (.vintage none)).modInv p (fun i => { i with vintageReq := true }), none) := if_pos hr

/- A vintage that leaves through a cut list, without a park (18 R390, R391). -/
theorem hVintageExport_noList (hport : isSideband rq = false) : hVintageExport rq p 0#8 0 [] s = refuses s 0x0E04 := by
  simp [hVintageExport, hport]
section
variable {cut : List CutEntry} (hcut : cut ≠ []) (hlen : cut.length ≤ 4096)
include hcut hlen

theorem hVintageExport_standing {v : Vintage} (hr : (s.parcel p).running = false) (hv : (s.parcel p).newest = some v) :
    hVintageExport rq p 0#8 0 cut s = replies (s.exportCut (some rq) cut (s.exportBytes p v)).1 (s.exportCut (some rq) cut (s.exportBytes p v)).2 := by
  simp [hVintageExport, hcut, Nat.not_lt.mpr hlen, hr, hv]
theorem hVintageExport_running (hr : (s.parcel p).running = true) (hst : (s.parcel p).st ≠ .parked) :
    hVintageExport rq p 0#8 0 cut s = ((s.modInv p (fun i => { i with vintageReq := true })).await rq 0x0702 p (.exportEnd cut false), none) := by
  simp [hVintageExport, hcut, Nat.not_lt.mpr hlen, hr, hst]
end

section
variable {bs : Bytes} (hfree : (s.parcel p).busy = false) (hpour : (s.parcel p).pour.serving = false) (hidle : (s.parcel p).st = .idle)
include hfree hpour hidle

theorem hVintageRestore_refused (hwhy : s.importRefusal p bs ≠ 0) : hVintageRestore p bs s = refuses s (s.importRefusal p bs) := by
  simp [hVintageRestore, hfree, hpour, hidle, hwhy]
theorem hVintageRestore_taken {m : Image} {i : Import} (hwhy : s.importRefusal p bs = 0) (hm : (s.parcel p).image = some m) (hi : s.importOf p bs = some i) :
    hVintageRestore p bs s = replies (s.importRun p m i) { status := 0, payload := natLe 8 (s.parcel p).serial } := by
  simp [hVintageRestore, hfree, hpour, hidle, hwhy, hm, hi]
end
end

/- A message of the owner that needs no feature: what its handler does is what it does (18 R373, R375). -/
section
variable {s t : State} {rq : Requester} {p : Nat} {m : MsgInfo} {h : Handler} {i : Instr} (ho : s.fromOwner rq p = true)
  (hscope : m.scope = .owner) (hside : m.sideOnly = false) (hfeature : m.feature = none)
include ho hscope hside hfeature

theorem State.request_replies {a : Ans} (hh : h (s.received rq) = replies t a) : s.request rq m p h i = s.withAnswer t rq m.code p a := by
  rw [State.request_owner s rq m p h i ho hscope hside (s.featureFree hfeature), hh]
  rfl
theorem State.request_defers (hh : h (s.received rq) = (t, none)) : s.request rq m p h i = .next t := by
  rw [State.request_owner s rq m p h i ho hscope hside (s.featureFree hfeature), hh]
end

/-- Settles O41: each message by its handler, in the state in which it is served; that state has the parcel as it was. -/
theorem runAndVintageMessages : Obligations.RunAndVintageMessages := by
  unfold Obligations.RunAndVintageMessages
  intro s rq p ho t
  have hparcel : s.parcel p = t.parcel p := (s.received_parcel rq p).symm
  obtain ⟨-, -, -, hport, -⟩ := State.takes_of_owner ho
  rw [hparcel]
  refine ⟨fun key m hm hfree hpour => ⟨fun hidle => ?starts, fun hparked hby => ?waits⟩, fun i hi hpour => ?aborts, fun n r hr => ?result, fun n hnone => ?noResult,
    fun hr => ?draws, ?noList, fun v cut hcut hlen hr hv => ?leaves, fun hr hst cut hcut hlen => ?leavesLater, fun bs hfree hpour hidle => ?restores, ?status⟩
  case starts => exact State.request_defers ho rfl rfl rfl (hRunStart_idle t rq p key hm hfree hpour hidle)
  case waits => exact State.request_replies ho rfl rfl rfl (hRunStart_parked t rq p key hm hfree hpour hparked hby)
  case aborts => exact State.request_replies ho rfl rfl rfl (hRunAbort_wins t p hi hpour)
  case result => exact State.request_replies ho rfl rfl rfl (hRunResult_signed t p hr)
  case noResult => exact State.request_replies ho rfl rfl rfl (hRunResult_unsigned t p hnone)
  case draws => exact State.request_defers ho rfl rfl rfl (hVintageDraw_running t rq p hr)
  case noList => exact State.request_replies ho rfl rfl rfl (hVintageExport_noList t rq p hport)
  case leaves => exact State.request_replies ho rfl rfl rfl (hVintageExport_standing t rq p hcut hlen hr hv)
  case leavesLater => exact State.request_defers ho rfl rfl rfl (hVintageExport_running t rq p hcut hlen hr hst)
  case restores =>
    by_cases hwhy : t.importRefusal p bs = 0
    · obtain ⟨m, i, hm, hi⟩ := State.importRefusal_clear hwhy
      simp only [hm, hi, hwhy, if_true]
      exact State.request_replies ho rfl rfl rfl (hVintageRestore_taken t p hfree hpour hidle hwhy hm hi)
    · have hrefused : exec (.vintageRestore rq p bs) s = s.withAnswer t rq 0x0703 p (Ans.err (t.importRefusal p bs)) :=
        State.request_replies ho rfl rfl rfl (hVintageRestore_refused t p hfree hpour hidle hwhy)
      rw [hrefused]
      split
      · rw [if_neg hwhy]
      · rfl
  case status => exact State.request_replies ho rfl rfl rfl rfl

end Sys2Proof.Machine
end

section
/-! The decision whether a parcel stops at its next peg (08 R169, 11 R230). -/

namespace Sys2Proof.Machine
open Sys2Proof

/-- An event of one of the four parcels happens. -/
theorem State.onParcel_ok (s : State) {p : Nat} (f : State → State) (hp : p < 4) : s.onParcel p f = .next (f s) := if_pos hp

section
variable (s : State) (p : Nat) (i : Inv) (m : Image) (count : Nat)

/-- The parcel's next peg is decided. -/
def State.pegDecided : State := s.modInv p (fun j => { j with decided := i.decided + 1 })
/-- The stop at it is broadcast. -/
def State.stopSent : State := (s.pegDecided p i).emit (.stopCmd p count (s.stopWhy p (i.decided + 1) i m))
/-- The fields whose islands have passed the stop's count (08 R169). -/
def State.lateFields : List Nat := ((s.stopSent p i m count).parcel p).fields.filter (fun f => countPast ((s.stopSent p i m count).islandCount f) count)
/-- The stop as it is named, not reached yet. -/
def State.stopAhead : Stop :=
  { peg := i.decided + 1, count := count, why := s.stopWhy p (i.decided + 1) i m, reached := false, drawn := false, z := none, atNs := 0, since := [], levels := [] }

/-- Without a reason the parcel does not stop. -/
theorem State.decidePeg_passes (h : (s.stopWhy p (i.decided + 1) i m).any = false) : s.decidePeg p i m count = s.pegDecided p i := by
  simp only [State.decidePeg, h, Bool.not_false, if_true, State.pegDecided]
/-- A stop that comes late for an island is its LATE_COMMAND. -/
theorem State.decidePeg_late (h : (s.stopWhy p (i.decided + 1) i m).any = true) (hlate : s.lateFields p i m count ≠ []) :
    s.decidePeg p i m count = (s.lateFields p i m count).foldl (fun v f => v.lateCommand f count) (s.stopSent p i m count) := by
  simp only [State.decidePeg, h, Bool.not_true, Bool.false_eq_true, if_false]
  exact if_pos hlate

variable {s p i m count}

/-- The draws that wait take the peg, where one was asked for. -/
def State.drawsTaken (s : State) (p peg : Nat) (asked : Bool) : State :=
  if asked then (s.nameDraws p peg).modInv p (fun j => { j with vintageReq := false }) else s
/-- A stop joins those of an invocation. -/
def Inv.addStop (j : Inv) (t : Stop) : Inv := match j.stop with
  | none => { j with stop := some t }
  | some _ => { j with later := j.later ++ [t] }

theorem State.drawsTaken_wf {t : State} (peg : Nat) (asked : Bool) (hw : Sparse.wf Parcel.init t.parcels = true) :
    Sparse.wf Parcel.init (t.drawsTaken p peg asked).parcels = true := by
  cases asked
  · exact hw
  · exact Sparse.wf_set _ _ _ _ hw
/-- No draw is asked for once they have. -/
theorem State.drawsTaken_inv {t : State} (peg : Nat) (hw : Sparse.wf Parcel.init t.parcels = true) {j : Inv} (hj : (t.parcel p).inv = some j) :
    ((t.drawsTaken p peg j.vintageReq).parcel p).inv = some { j with vintageReq := false } := by
  cases hreq : j.vintageReq with
  | false => rw [State.drawsTaken, if_neg Bool.false_ne_true, hj, ← hreq]
  | true =>
    have hnamed : ((t.nameDraws p peg).parcel p).inv = some j := hj
    rw [State.drawsTaken, if_pos rfl, State.inv_modInv (t.nameDraws p peg) _ _ hw, hnamed]
    rfl

/-- A stop that comes in time joins the invocation's. -/
theorem State.decidePeg_stops (h : (s.stopWhy p (i.decided + 1) i m).any = true) (hlate : s.lateFields p i m count = []) :
    s.decidePeg p i m count =
      ((s.stopSent p i m count).drawsTaken p (i.decided + 1) i.vintageReq).modInv p (fun j => j.addStop (s.stopAhead p i m count)) := by
  simp only [State.decidePeg, h, Bool.not_true, Bool.false_eq_true, if_false]
  exact if_neg (not_not.mpr hlate)

/-- It is the invocation's stop, where that has none. -/
theorem State.decidePeg_inv (h : (s.stopWhy p (i.decided + 1) i m).any = true) (hlate : s.lateFields p i m count = [])
    (hw : Sparse.wf Parcel.init s.parcels = true) (hi : (s.parcel p).inv = some i) (hstop : i.stop = none) :
    ((s.decidePeg p i m count).parcel p).inv =
      some { i with decided := i.decided + 1, vintageReq := false, stop := some (s.stopAhead p i m count) } := by
  have hsw : Sparse.wf Parcel.init (s.stopSent p i m count).parcels = true := Sparse.wf_set _ _ _ _ hw
  have hsent : ((s.stopSent p i m count).parcel p).inv = some { i with decided := i.decided + 1 } := by
    change ((s.modInv p _).parcel p).inv = _
    rw [State.inv_modInv _ _ _ hw, hi]
    rfl
  rw [State.decidePeg_stops h hlate, State.inv_modInv _ _ _ (State.drawsTaken_wf _ _ hsw), State.drawsTaken_inv (i.decided + 1) hsw hsent]
  simp only [Option.map_some, Inv.addStop, hstop]
end

end Sys2Proof.Machine
end

section
/-! The row of each event in the life of an invocation: stops, restarts, vintages, parks, its start and its end (11 R230 to R240, 18 R385 to R388). -/

namespace Sys2Proof.Machine
open Sys2Proof

section
variable {s : State} {p : Nat} {i : Inv} {m : Image} {t : Stop} (hp : p < 4) (hi : (s.parcel p).inv = some i)
include hp hi

/-- The parcel has come to its stop and counts stop cycles from now; an abort ends the run here (R231, R233, 18 R388). -/
def State.stopReached (s : State) (p : Nat) (i : Inv) (t : Stop) : State :=
  let u := s.modInv p (fun i => { i with holdCount := i.holdCount + 1, stop := some { t with reached := true, atNs := s.tNs, levels := s.pressLevels p } })
  let v := ((u.parcel p).bays.foldl State.readsComplete u).xphase p
  if t.why.abort || i.abortReq then v.endAndPark p 0x0607 0 else v

theorem exec_parcelStop (hstop : i.stop = some t) :
    exec (.parcelStop p) s = .next (if !t.reached && s.atStop p t then s.stopReached p i t else s) := by
  change execParcelStop p s = _
  simp only [execParcelStop, s.onParcel_ok _ hp, hi, hstop]
  rfl

/-- The stop cycle that a restart names (R232, 15 R328). -/
def State.restartCycle (s : State) (p lead : Nat) (t : Stop) : Nat :=
  s.stopCycle ((s.parcel p).fields.headD 0) t + max lead 1024 + if t.why.forced then bitsOf s.prt.hold.toNat 0 20 else 0

theorem exec_restart (lead : Nat) (hstop : i.stop = some t) :
    exec (.restart p lead) s = .next (if s.mayRestart p i t then
      (s.modInv p (fun i => { i with stop := some { t with z := some (s.restartCycle p lead t) } })).emit (.restartCmd p (s.restartCycle p lead t)) else s) := by
  change execRestart p lead s = _
  simp only [execRestart, s.onParcel_ok _ hp, hi, hstop]
  rfl

/-- The parcel resumes at the stop: its presses step up, the next stop is the invocation's (R232, 03 R58). -/
def State.stopLeft (s : State) (p : Nat) (t : Stop) : State :=
  let u := (t.levels.foldl (fun (u : State) e => u.modBay (bayOfIx (e.1 / 4)) (fun b => b.atLevels (e.1 / 4) [e])) s).modInv p
    (fun i => { i with stop := i.later.head?, later := i.later.drop 1 })
  (if t.why.forced then { u with prt := { u.prt with ctrl := u.prt.ctrl ||| 0x20#32 } } else u).setPState p .running

theorem exec_stopResume (hstop : i.stop = some t) :
    exec (.stopResume p) s = .next (if t.reached && s.stopOver p t && i.fault.isNone then s.stopLeft p t else s) := by
  change execStopResume p s = _
  simp only [execStopResume, s.onParcel_ok _ hp, hi, hstop]
  rfl

theorem exec_parkParcel (hstop : i.stop = some t) (hreached : t.reached = true) (hpark : t.why.park = true) (hdrawn : t.drawn = true) (hfault : i.fault = none)
    (hexp : (s.parcel p).exp = none) : exec (.park (.parcel p)) s =
      .next ((s.modInv p (fun i => { i with parkReq := false, stop := some { t with why := { t.why with park := false } } })).parkNow p ((s.parcel p).parkedBy.getD .trellis)) := by
  change execPark (.parcel p) s = _
  simp only [execPark, s.onParcel_ok _ hp, hi, hstop, hreached, hpark, hdrawn, hfault, hexp, Option.isNone_none, Bool.and_self, if_true]

/-- A run past END settles its bays and a remembered fault; where no fault stands then it ends, as ABORTED or COMPLETE (15 R311, 18 R387). -/
def State.complete (s : State) (p : Nat) (i : Inv) : State :=
  let u := ((s.settleBays p).settleData i).1
  let t := (u.parcel p).casks.foldl (fun (u : State) c => u.modCask c (fun k => k.commit none)) u
  match ((t.parcel p).inv.getD i).fault with
  | some _ => t
  | none => if i.ledger = .aborted then t.endAndPark p 0x0607 0 else (t.modInv p (fun i => { i with ledger := .complete })).endAndPark p 0 0

theorem exec_invocationComplete (hstarted : i.started = true) (hend : i.endSeen = true) (hfault : i.fault = none) (hpour : i.ofPour = false) :
    exec (.invocationComplete p) s = .next (s.complete p i) := by
  change execInvocationComplete p s = _
  simp only [execInvocationComplete, s.onParcel_ok _ hp, hi, hstarted, hend, hfault, hpour, Option.isNone_none, Bool.not_false, Bool.and_self, if_true]
  cases hledger : i.ledger <;> simp only [State.complete, hledger] <;> rfl

variable (hm : (s.parcel p).image = some m)
include hm

theorem exec_stopDecision {c : Nat} (hc : m.pegCount (i.decided + 1) = some c) :
    exec (.stopDecision p) s = .next (if i.started && decide ((c : Int) ≤ s.parcelCount p + 1024) then s.decidePeg p i m c else s) := by
  change execStopDecision p s = _
  simp only [execStopDecision, s.onParcel_ok _ hp, hi, hm, hc]

theorem exec_vintageValid (hstop : i.stop = some t) (hreached : t.reached = true) (hvint : t.why.vintage = true) (hdrawn : t.drawn = false) (hfault : i.fault = none)
    (habort : i.abortReq = false) : exec (.vintageValid p) s =
      let u := (s.settleData i).1
      .next ((u.vintageDrawn p t { ((u.parcel p).inv.getD i) with dfault := none } m).exportsDue p) := by
  change execVintageValid p s = _
  simp only [execVintageValid, s.onParcel_ok _ hp, hi, hm, hstop, hreached, hvint, hdrawn, hfault, habort, Option.isNone_none, Bool.not_false, Bool.and_self, if_true,
    Bool.false_eq_true, if_false]

theorem exec_rollback {r : FaultRec} (fnd : PathFinding) (hstop : i.stop = some t) (hreached : t.reached = true) (hfault : i.fault = some r) (hstarted : i.started = true) :
    exec (.rollback p fnd) s = .next (s.rollback p i m r fnd) := by
  change execRollback p fnd s = _
  simp only [execRollback, s.onParcel_ok _ hp, hi, hm, hstop, hreached, hfault, hstarted, Bool.true_or, Bool.and_self, if_true]

theorem exec_invocationStart (hstarted : i.started = false) (hlanded : (s.parcel p).firstLanded = true) (hidle : (s.parcel p).st = .idle)
    (hraised : (s.parcel p).fields.all (fun f => decide ((s.field f).st = .raised)) = true) : exec (.invocationStart p) s = .next (s.startInv p i m) := by
  change execInvocationStart p s = _
  simp only [execInvocationStart, s.onParcel_ok _ hp, hi, hm, hstarted, hlanded, hidle, hraised, decide_true, Bool.not_false, Bool.and_self, if_true]
end

end Sys2Proof.Machine
end

section
/-! PARK of named fields (16 R336, R337), the units whose service ends (15 R319, 21 R442), and the statement about invocations. -/

namespace Sys2Proof.Machine
open Sys2Proof

/- The principal's write is accepted and its row completes it (16 R336). -/
section
variable {s : State} {k : Nat} {mask : BitVec 10} (hrefusal : s.raiseRefusal 5 mask = 0)
include hrefusal

theorem State.raiseAccept_park : (s.raiseAccept k 5 mask false).raising.cmd = some { op := 5, port := k, fields := mask, memtest := false, atNs := s.tNs } := by
  simp only [State.raiseAccept, hrefusal, ne_eq, not_true_eq_false, if_false]
  rfl

theorem exec_parkFields (howner : s.raising.owner = some k) (hlive : s.portLive k = true) (hfree : s.raising.cmd = none) :
    exec (.park (.fields mask)) s = .next (((s.raiseAccept k 5 mask false).parkFields mask).raiseIdle) := by
  have hprincipal : s.isPrincipal k = true := decide_eq_true howner
  have htake : s.raiseTake k 5 mask false = (s.raiseAccept k 5 mask false, (s.raiseAccept k 5 mask false).raising.cmd) := by
    simp only [State.raiseTake, hprincipal, hfree, hlive, Bool.not_true, Bool.false_eq_true, if_false, if_true]
  change execPark (.fields mask) s = _
  simp only [execPark, howner, Option.getD_some, htake, State.raiseAccept_park hrefusal]
end

/- Failed pairs, seal cores and entropy sources (15 R319, 21 R442). -/
section
variable (s : State)

/-- The first pair to disagree is retired, and what runs is rolled back. -/
theorem State.pairFails_first {k : Nat} (hruns : s.plate.cmstRunning = true) (hnone : s.plate.cmstPairs = []) :
    s.pairFails k = (({ s with plate := { s.plate with cmstPairs := [k] } } : State).report
      { code := 0x0501, unit := 0x07, idx := k, action := 11, detail := [(1, k)] }).failAll 0x0501 0x07 k := by
  simp only [State.pairFails, hruns, hnone]
  rfl
theorem exec_cmstLockstep {k : Nat} (hk : k < 4) : exec (.cmstLockstep k) s = .next (s.pairFails k) := if_neg (Nat.not_le.mpr hk)

theorem exec_sealLockstep : exec .sealLockstep s = .next s.sealFails := rfl
theorem exec_entropyHealthFail_halted (h : s.sealU.halted = true) : exec .entropyHealthFail s = .next s := by
  change execEntropyHealthFail s = _
  simp only [execEntropyHealthFail, h, Bool.true_or, if_true]

variable {s} (hruns : s.sealU.halted = false) (hup : s.plate.plateReset = false)
include hruns hup

theorem State.sealFails_running :
    s.sealFails = (({ s with sealU := { s.sealU with halted := true } } : State).report { code := 0x0503, unit := 0x08 }).unsignLabels := by
  simp only [State.sealFails, hruns, hup, Bool.or_self, Bool.false_eq_true, if_false]
theorem exec_entropyHealthFail_few (h : s.sealU.entropyFails < 2) :
    exec .entropyHealthFail s = .next { s with sealU := { s.sealU with entropyFails := s.sealU.entropyFails + 1 } } := by
  have hfew : s.sealU.entropyFails + 1 < 3 := by omega
  change execEntropyHealthFail s = _
  simp only [execEntropyHealthFail, hruns, hup, hfew, Bool.or_self, Bool.false_eq_true, if_false, if_true]
theorem exec_entropyHealthFail_third (h : 2 ≤ s.sealU.entropyFails) :
    exec .entropyHealthFail s = .next ((({ s with sealU := { s.sealU with entropyFails := s.sealU.entropyFails + 1, halted := true } } : State).report
      { code := 0x0503, unit := 0x08, detail := [(1, 1)] }).unsignLabels) := by
  have hmany : ¬s.sealU.entropyFails + 1 < 3 := by omega
  change execEntropyHealthFail s = _
  simp only [execEntropyHealthFail, hruns, hup, hmany, Bool.or_self, Bool.false_eq_true, if_false]
end

/- Reports and labels that the seal no longer signs leave the seal as it is. -/
theorem foldl_sealU {α : Type} (f : State → α → State) (hf : ∀ s a, (f s a).sealU = s.sealU) (l : List α) (s : State) : (l.foldl f s).sealU = s.sealU :=
  List.foldlRecOn (motive := fun t => t.sealU = s.sealU) l f rfl (fun t h a _ => (hf t a).trans h)
theorem State.report_sealU (s : State) (r : Report) : (s.report r).sealU = s.sealU := by
  obtain ⟨_, _, _, _, _, _, h⟩ := s.report_eq r
  rw [h]
theorem State.eventOwner_sealU (s : State) (p k : Nat) : (s.eventOwner p k).sealU = s.sealU := by
  obtain ⟨_, _, h⟩ := s.eventOwner_eq p k
  rw [h]
theorem State.pourSend_sealU (s : State) (p : Nat) (q : PourSeq) (type : Nat) (payload : Bytes) : (s.pourSend p q type payload).sealU = s.sealU := by
  simp only [State.pourSend, State.sendUdp, State.sendOut]
  repeat' split
  all_goals rfl
theorem State.unsignLabels_sealU (s : State) : s.unsignLabels.sealU = s.sealU := by
  refine foldl_sealU _ (fun u p => ?_) _ s
  refine (foldl_sealU _ (fun v y => ?_) _ _).trans ?_
  · repeat' split
    · exact State.pourSend_sealU _ _ _ _ _
    · rfl
    · rfl
  · split
    · exact State.eventOwner_sealU _ _ _
    · rfl

/-- Settles O50: a peg's decision by whether it has a reason and comes in time, every other command by its row. -/
theorem invocationsStopsAndVintages : Obligations.InvocationsStopsAndVintages := by
  unfold Obligations.InvocationsStopsAndVintages
  intro s p i m hp hi hm
  refine ⟨fun c hstarted hc hnear => ?decided, fun c hc hfar => ?early, fun t hstop => ⟨fun hnot hat habort hreq => ?stops, fun hnot => ?stopsNot,
      fun lead hmay hforced => ?restarts, fun lead hnot => ?restartsNot, fun hnot => ?resumesNot, fun hreached hover hfault hforced => ?resumes,
      fun hreached hvint hdrawn hfault habort => exec_vintageValid hp hi hm hstop hreached hvint hdrawn hfault habort,
      fun hreached hpark hdrawn hfault hexp => exec_parkParcel hp hi hstop hreached hpark hdrawn hfault hexp,
      fun r fnd hfault hstarted hreached => exec_rollback hp hi hm fnd hstop hreached hfault hstarted⟩,
    fun hstarted hlanded hidle hraised => exec_invocationStart hp hi hm hstarted hlanded hidle hraised, fun hstarted hend hfault hpour => ?completes,
    fun k mask howner hlive hfree hrefusal => exec_parkFields hrefusal howner hlive hfree, fun k hk hruns hnone => ?pair,
    fun hruns hup => ⟨?sealHalts, fun hfew => exec_entropyHealthFail_few hruns hup hfew, fun hthird => ?entropyHalts⟩,
    fun hhalted => ⟨?sealHalted, exec_entropyHealthFail_halted s hhalted⟩⟩
  case decided =>
    have hrow : exec (.stopDecision p) s = .next (s.decidePeg p i m c) := by
      rw [exec_stopDecision hp hi hm hc, hstarted, decide_eq_true hnear]
      rfl
    refine ⟨fun hnone => hrow.trans (congrArg _ (s.decidePeg_passes p i m c hnone)), fun hany => ⟨fun hlate => ?_, fun hlate hstop hw => ?_⟩⟩
    · exact hrow.trans (congrArg _ (s.decidePeg_late p i m c hany hlate))
    · exact ⟨_, _, hrow, State.decidePeg_inv hany hlate hw hi hstop, rfl, rfl, rfl⟩
  case early =>
    have hnot : ¬(c : Int) ≤ s.parcelCount p + 1024 := not_le.mpr hfar
    rw [exec_stopDecision hp hi hm hc, decide_eq_false hnot, Bool.and_false]
    rfl
  case stops =>
    rw [exec_parcelStop hp hi hstop, hnot, hat]
    simp only [State.stopReached, habort, hreq, Bool.not_false, Bool.and_self, Bool.or_self, Bool.false_eq_true, if_true, if_false]
  case stopsNot =>
    rw [exec_parcelStop hp hi hstop, hnot, Bool.and_false]
    rfl
  case restarts =>
    have hcycle : s.restartCycle p lead t = s.stopCycle ((s.parcel p).fields.headD 0) t + max lead 1024 := by
      simp only [State.restartCycle, hforced, Bool.false_eq_true, if_false, Nat.add_zero]
    rw [exec_restart hp hi lead hstop, if_pos hmay, hcycle]
  case restartsNot =>
    rw [exec_restart hp hi lead hstop, hnot]
    rfl
  case resumesNot =>
    rw [exec_stopResume hp hi hstop, hnot, Bool.and_false]
    rfl
  case resumes =>
    rw [exec_stopResume hp hi hstop, hreached, hover, hfault]
    simp only [State.stopLeft, hforced, Option.isNone_none, Bool.and_self, Bool.false_eq_true, if_true, if_false]
  case completes =>
    intro u t j hj hnone
    rw [exec_invocationComplete hp hi hstarted hend hfault hpour]
    have hclean : ((t.parcel p).inv.getD i).fault = none := by rw [hj]; exact hnone
    simp only [State.complete, t, u, hclean]
  case pair => rw [exec_cmstLockstep s hk, s.pairFails_first hruns hnone]
  case sealHalts => rw [exec_sealLockstep, State.sealFails_running hruns hup]
  case entropyHalts => exact ⟨_, exec_entropyHealthFail_third hruns hup hthird, by rw [State.unsignLabels_sealU, State.report_sealU]⟩
  case sealHalted =>
    rw [exec_sealLockstep, State.sealFails, hhalted, Bool.true_or]
    rfl

end Sys2Proof.Machine
end

section
/-! What a change of the state keeps (Keeps), read from the state in which a command began: choices, pairs, writes of fields and of units. -/

namespace Sys2Proof.Machine
open Sys2Proof

variable {s₀ s : State}

theorem Keeps.ite {c : Prop} {d : Decidable c} {a b : State} (ha : Keeps s₀ a) (hb : Keeps s₀ b) : Keeps s₀ (if c then a else b) := by
  split
  · exact ha
  · exact hb
theorem Keeps.iteFst {α : Type} {c : Prop} {d : Decidable c} {a b : State × α} (ha : Keeps s₀ a.1) (hb : Keeps s₀ b.1) : Keeps s₀ (if c then a else b).1 := by
  split
  · exact ha
  · exact hb
theorem KeepsOut.ite {c : Prop} {d : Decidable c} {a b : Host.Outcome State Fault Refusal} (ha : KeepsOut s a) (hb : KeepsOut s b) :
    KeepsOut s (if c then a else b) := by
  split
  · exact ha
  · exact hb
theorem Keeps.pair {α : Type} (h : Keeps s₀ s) {x : α} : Keeps s₀ (s, x).1 := h
theorem Keeps.pairSnd {α : Type} (h : Keeps s₀ s) {x : α} : Keeps s₀ (x, s).2 := h
theorem Keeps.replies (h : Keeps s₀ s) {a : Ans} : Keeps s₀ (replies s a).1 := h
theorem Keeps.refuses (h : Keeps s₀ s) {c : Nat} : Keeps s₀ (refuses s c).1 := h
theorem Keeps.setBay (h : Keeps s₀ s) (b : BayId) (x : Bay) : Keeps s₀ (s.setBay b x) := h.trans (s.setBay_keeps b x)
theorem Keeps.setParcel (h : Keeps s₀ s) (p : Nat) (x : Parcel) : Keeps s₀ (s.setParcel p x) := h.trans (s.setParcel_keeps p x)
theorem Keeps.setField (h : Keeps s₀ s) (f : Nat) (x : Field) : Keeps s₀ (s.setField f x) := h.trans (s.setField_keeps f x)
theorem Keeps.setSeam (h : Keeps s₀ s) (n : Nat) (x : Seam) : Keeps s₀ (s.setSeam n x) := h.trans (s.setSeam_keeps n x)
theorem Keeps.setPort (h : Keeps s₀ s) (p : Nat) (x : Port) : Keeps s₀ (s.setPort p x) := h.trans (s.setPort_keeps p x)
theorem Keeps.setTap (h : Keeps s₀ s) (n : Nat) (x : Tap) : Keeps s₀ (s.setTap n x) := h.trans (s.setTap_keeps n x)
theorem Keeps.modBay (h : Keeps s₀ s) (b : BayId) (g : Bay → Bay) : Keeps s₀ (s.modBay b g) := h.setBay b _
theorem Keeps.modParcel (h : Keeps s₀ s) (p : Nat) (g : Parcel → Parcel) : Keeps s₀ (s.modParcel p g) := h.setParcel p _
theorem Keeps.modField (h : Keeps s₀ s) (f : Nat) (g : Field → Field) : Keeps s₀ (s.modField f g) := h.setField f _
theorem Keeps.modSeam (h : Keeps s₀ s) (n : Nat) (g : Seam → Seam) : Keeps s₀ (s.modSeam n g) := h.setSeam n _
theorem Keeps.modPort (h : Keeps s₀ s) (p : Nat) (g : Port → Port) : Keeps s₀ (s.modPort p g) := h.setPort p _
theorem Keeps.modTap (h : Keeps s₀ s) (n : Nat) (g : Tap → Tap) : Keeps s₀ (s.modTap n g) := h.setTap n _
/-- A change of a cask that leaves its memory alone, or keeps its form. -/
theorem Keeps.modCask (h : Keeps s₀ s) (c : Nat) (g : Cask → Cask) (hg : ∀ k : Cask, Mem.wf k.mem = true → Mem.wf (g k).mem = true := by exact fun _ h => h) :
    Keeps s₀ (s.modCask c g) := h.trans (s.modCask_keeps c g hg)
/-- A write of any of the fields that no part of Keeps speaks of. -/
theorem Keeps.write (h : Keeps s₀ s) {hops : List Flight} {gw : Gateway} {raising : Raising} {baySus : Sparse Suspect} {trellis : Trellis} {plate : Plate} {pins : Pins}
    {prt : Prt} {waits : List Wait} {gwOrder : List Nat} {held : List Held} {turn : Nat} {out : List OutEv} {tNs freeCtr : Nat} :
    Keeps s₀ { s with hops := hops, gw := gw, raising := raising, baySus := baySus, trellis := trellis, plate := plate, pins := pins, prt := prt, waits := waits,
                      gwOrder := gwOrder, held := held, turn := turn, out := out, tNs := tNs, freeCtr := freeCtr } :=
  h.trans (.same rfl rfl rfl rfl rfl rfl rfl rfl rfl rfl)
theorem Keeps.foldl_pair {α β : Type} (h : Keeps s₀ s) {b : β} (f : State × β → α → State × β) (l : List α) (hf : ∀ u a, Keeps u.1 (f u a).1) :
    Keeps s₀ (l.foldl f (s, b)).1 := .foldl_fst f l (s, b) h hf
theorem Keeps.writeLog (h : Keeps s₀ s) {l : FaultLog} (hl : s.flog.Sound → l.Sound) : Keeps s₀ { s with flog := l } :=
  h.trans (.log rfl rfl rfl rfl rfl rfl rfl hl rfl rfl)
/-- An outcome that keeps what a later state has keeps what an earlier one has. -/
theorem Keeps.out (h : Keeps s₀ s) {o : Host.Outcome State Fault Refusal} (ho : KeepsOut s o) : KeepsOut s₀ o := fun t ht => h.trans (ho t ht)
theorem Seal.NotBelow.refl (x : Seal) : x.NotBelow x := ⟨Nat.le_refl _, Nat.le_refl _, Nat.le_refl _, Nat.le_refl _⟩
/-- A write of the seal, with the fields that its changes go along with. -/
theorem Keeps.writeSeal (h : Keeps s₀ s) {x : Seal} {raising : Raising} {plate : Plate} {freeCtr : Nat}
    (hmr : s.sealU.mr.length = 8 → x.mr.length = 8 := by exact fun h => h)
    (hle : s.sealU.NotBelow x := by exact ⟨Nat.le_refl _, Nat.le_refl _, Nat.le_refl _, Nat.le_refl _⟩) :
    Keeps s₀ { s with sealU := x, raising := raising, plate := plate, freeCtr := freeCtr } :=
  h.trans (.ofSeal rfl rfl rfl rfl rfl rfl rfl rfl hmr rfl hle)
theorem listSet_length {α : Type} : ∀ (l : List α) (k : Nat) (v : α), (listSet l k v).length = l.length
  | [], _, _ => rfl
  | _ :: _, 0, _ => rfl
  | _ :: r, k + 1, v => congrArg Nat.succ (listSet_length r k v)
theorem Seal.extend_mr_length (x : Seal) (i : Nat) (d : BitVec 384) : (x.extend i d).mr.length = x.mr.length := listSet_length _ _ _
theorem Cask.putSlot_mem (k : Cask) (slot off : Nat) (bs : Bytes) (h : Mem.wf k.mem = true) : Mem.wf (k.putSlot slot off bs).mem = true := by
  unfold Cask.putSlot
  split
  · exact Cask.putBytes_mem _ _ _ _ h
  · exact h
theorem cellarUp_mem (fast : Bool) (k : Cask) (h : Mem.wf k.mem = true) : Mem.wf (cellarUp fast k).mem = true := by
  unfold cellarUp
  split
  · exact h
  · rfl
theorem Cask.ledgerTick_mem (k : Cask) (runs still rest : Bool) : (k.ledgerTick runs still rest).mem = k.mem := by
  unfold Cask.ledgerTick
  split <;> rfl

end Sys2Proof.Machine
end

section
/-! What each operation of the model keeps, one lemma per operation in the order of the model, up to exec and the tick: where s keeps what s₀ had, so does the state
that the operation leaves. A proof names the states that the operation passes through (h1, h2, …) and cites the lemma of each operation they come from. -/

namespace Sys2Proof.Machine
open Sys2Proof

/- One after another: in parallel the many short proofs of this section ask for more threads than the check's memory limit holds. -/
set_option Elab.async false
variable {s₀ s : State} {r : CutRun}

/- The operations of Machine/Ops. -/
theorem Keeps.emit (hs : Keeps s₀ s) (o : OutEv) : Keeps s₀ (s.emit o) := hs.write
theorem Keeps.emitPort (hs : Keeps s₀ s) (p : Nat) (o : OutEv) : Keeps s₀ (s.emitPort p o) := .ite (hs.modPort _ _) (hs.emit _)
theorem Keeps.fresh (hs : Keeps s₀ s) : Keeps s₀ (s.fresh).2 := hs.write.pairSnd
theorem Keeps.modInv (hs : Keeps s₀ s) (p : Nat) (f : Inv → Inv) : Keeps s₀ (s.modInv p f) := hs.modParcel _ _
theorem Keeps.caskCount (hs : Keeps s₀ s) (c i k : Nat) : Keeps s₀ (s.caskCount c i k) := hs.modCask _ _
theorem Keeps.vector (hs : Keeps s₀ s) (p v : Nat) : Keeps s₀ (s.vector p v) := .ite (hs.modPort _ _) (hs.emitPort _ _)
theorem Keeps.flushVectors (hs : Keeps s₀ s) (p : Nat) : Keeps s₀ (s.flushVectors p) := by
  unfold State.flushVectors
  split
  · exact hs
  · exact .foldl _ _ hs (fun _ _ => .ite (((Keeps.refl _).modPort _ _).emit _) (Keeps.refl _))
theorem Keeps.event (hs : Keeps s₀ s) (p k : Nat) : Keeps s₀ (s.event p k) := by
  unfold State.event
  extract_lets _ s1
  have h1 : Keeps s₀ s1 := hs.modPort _ _
  exact .ite hs (Keeps.ite (h1.vector _ _) h1)
theorem Keeps.eventAll (hs : Keeps s₀ s) (k : Nat) : Keeps s₀ (s.eventAll k) := .foldl _ _ hs (fun _ _ => (Keeps.refl _).event _ _)
theorem Keeps.eventOwner (hs : Keeps s₀ s) (p k : Nat) : Keeps s₀ (s.eventOwner p k) := hs.event _ _
theorem Keeps.setPState (hs : Keeps s₀ s) (p : Nat) (st : PState) : Keeps s₀ (s.setPState p st) := .ite hs ((hs.modParcel _ _).eventOwner _ _)
theorem Keeps.logEntry (hs : Keeps s₀ s) (r : Report) (secondary : Bool) : Keeps s₀ (s.logEntry r secondary) := by
  unfold State.logEntry
  extract_lets e s1
  have h1 : Keeps s₀ s1 := hs.writeLog (FaultLog.push_sound _ _ rfl)
  split
  · exact h1.eventOwner _ _
  · exact h1.eventAll _
theorem Keeps.report (hs : Keeps s₀ s) (r : Report) : Keeps s₀ (s.report r) := by
  unfold State.report
  split
  · split
    · split
      · split
        · exact hs.logEntry _ _
        · exact (hs.logEntry _ _).modInv _ _
      · exact hs.logEntry _ _
    · exact hs.logEntry _ _
  · exact hs.logEntry _ _
theorem Keeps.cutDies (hs : Keeps s₀ s) (p : Nat) : Keeps s₀ (s.cutDies p) := hs.report _
theorem Keeps.setAlert (hs : Keeps s₀ s) (v : Bool) : Keeps s₀ (s.setAlert v) := hs.write
theorem Keeps.trellisEvent (hs : Keeps s₀ s) (k : Nat) (p : Option Nat) (detail : List (Nat × Nat)) : Keeps s₀ (s.trellisEvent k p detail) := (hs.write.eventAll _).report _
theorem Keeps.powerEvent (hs : Keeps s₀ s) (k unit x y idx : Nat) (p : Option Nat) (masked : Bool) : Keeps s₀ (s.powerEvent k unit x y idx p masked) := hs.report _
theorem Keeps.modEsc (hs : Keeps s₀ s) (f : Esc → Esc) : Keeps s₀ (s.modEsc f) :=
  hs.writeLog (fun h => FaultLog.writeSummary_sound _ _ h)

/- The operations of Machine/Cellar. -/
theorem Keeps.clearResident (hs : Keeps s₀ s) (p : Nat) : Keeps s₀ (s.clearResident p) := by
  unfold State.clearResident
  refine .foldl _ _ hs ?_
  intro u _
  split
  · exact (Keeps.refl _).modBay _ _
  · exact Keeps.refl _
theorem Keeps.touchRegion (hs : Keeps s₀ s) (c : Nat) (r : Region) : Keeps s₀ (s.touchRegion c r) := by
  unfold State.touchRegion
  extract_lets s1
  have h1 : Keeps s₀ s1 := hs.modCask _ _
  split
  · split
    · extract_lets _ _ s2
      have h2 : Keeps s₀ s2 := h1.modParcel _ _
      exact .ite (h2.clearResident _) h2
    · exact h1
  · exact hs
theorem Keeps.landed (hs : Keeps s₀ s) (c off len : Nat) : Keeps s₀ (s.landed c off len) := by
  unfold State.landed
  split
  · exact hs.modParcel _ _
  · exact hs
theorem Keeps.gwRefused (hs : Keeps s₀ s) (c : Nat) : Keeps s₀ (s.gwRefused c) := hs.caskCount _ _ _
theorem Keeps.beatsMet (hs : Keeps s₀ s) (c off count : Nat) (beats : List Ecc) : Keeps s₀ (s.beatsMet c off count beats) := by
  unfold State.beatsMet
  extract_lets _ s1 _
  have h1 : Keeps s₀ s1 := (hs.caskCount _ _ _).caskCount _ _ _
  exact .ite h1 (h1.report _)
theorem Keeps.gwBeats (hs : Keeps s₀ s) (c : Nat) (r : Region) (off len : Nat) (beats : List Ecc) : Keeps s₀ (s.gwBeats c r off len beats) := by
  unfold State.gwBeats
  refine .foldl _ _ hs ?_
  intro u _
  extract_lets _ s1
  have h1 : Keeps u s1 := .ite (Keeps.refl _) ((Keeps.refl _).beatsMet _ _ _ _)
  exact .ite (h1.modCask _ _) h1
theorem Keeps.fwWrite (hs : Keeps s₀ s) (c off : Nat) (data : Bytes) : Keeps s₀ (s.fwWrite c off data) := by
  unfold State.fwWrite
  split
  · exact hs.modCask _ _ (fun k => k.putBytes_mem _ _ _)
  · exact hs
theorem Keeps.staveFails (hs : Keeps s₀ s) (c st : Nat) : Keeps s₀ (s.staveFails c st) := by
  unfold State.staveFails
  extract_lets _ _ s1
  have h1 : Keeps s₀ s1 := .ite hs ((hs.modCask _ _).modEsc _)
  exact .ite (h1.modCask _ _) (Keeps.ite h1 (h1.report _))
theorem Keeps.staveSpared (hs : Keeps s₀ s) (c : Nat) : Keeps s₀ (s.staveSpared c) := by
  unfold State.staveSpared
  extract_lets _
  split
  · exact (hs.modCask _ _).caskCount _ _ _
  · exact hs
theorem Keeps.symbolCorrected (hs : Keeps s₀ s) (c st : Nat) : Keeps s₀ (s.symbolCorrected c st) := by
  unfold State.symbolCorrected
  extract_lets s1 s2
  have h1 : Keeps s₀ s1 := (hs.caskCount _ _ _).caskCount _ _ _
  have h2 : Keeps s₀ s2 := h1.modCask _ _
  exact .ite (h2.staveFails _ _) h2
theorem Keeps.cellarUe (hs : Keeps s₀ s) (b : BayId) (c off count : Nat) (stave : Option Nat) (injected : Bool) : Keeps s₀ (s.cellarUe b c off count stave injected) :=
  hs.report _
theorem Keeps.findingCounts (hs : Keeps s₀ s) (c : Nat) (err : PieceErr) : Keeps s₀ (s.findingCounts c err) := by
  unfold State.findingCounts
  split
  · exact hs
  · exact hs.caskCount _ _ _
  · exact hs.caskCount _ _ _
  · exact hs.symbolCorrected _ _
  · exact hs.caskCount _ _ _
  · exact (hs.caskCount _ _ _).staveFails _ _
  · exact hs.caskCount _ _ _

/- The operations of Machine/SillOps. -/
theorem Keeps.sopStart (hs : Keeps s₀ s) (b : BayId) (tag cask : Nat) : Keeps s₀ (s.sopStart b tag cask) := by
  unfold State.sopStart
  exact hs.modBay _ _
theorem Keeps.sopDone (hs : Keeps s₀ s) (b : BayId) (r : SopRun) (m : SopM) : Keeps s₀ (s.sopDone b r m) := by
  unfold State.sopDone
  extract_lets _ _ _ s1 s2 s3
  have h1 : Keeps s₀ s1 := hs.modCask _ _
  have h2 : Keeps s₀ s2 := .foldl _ _ (h1.caskCount _ _ _) (fun _ _ => (Keeps.refl _).findingCounts _ _)
  have h3 : Keeps s₀ s3 := .foldl _ _ h2 (fun _ _ => (Keeps.refl _).report _)
  split
  · exact (h3.caskCount _ _ _).report _
  · exact h3
theorem Keeps.sopEnd (hs : Keeps s₀ s) (b : BayId) (r : SopRun) (agree : Bool) (found : List (Nat × PieceErr)) : Keeps s₀ (s.sopEnd b r agree found) := by
  unfold State.sopEnd
  extract_lets _ s1 s2
  have h1 : Keeps s₀ s1 := hs.caskCount _ _ _
  have h2 : Keeps s₀ s2 := .ite h1 (h1.report _)
  split
  · exact h2
  · exact (h2.sopDone _ _ _).modBay _ _

/- The operations of Machine/BayRun. -/
theorem Keeps.bayFault (hs : Keeps s₀ s) (b : BayId) (code : Nat) (count : Int) (idx : Nat) (detail : List (Nat × Nat)) : Keeps s₀ (s.bayFault b code count idx detail) := by
  unfold State.bayFault
  extract_lets _ _ _ s1
  have h1 : Keeps s₀ s1 := .ite hs.write hs
  exact h1.report _
theorem Keeps.bayBreach (hs : Keeps s₀ s) (b : BayId) (cause : Nat) (count : Int) (unit : Nat) : Keeps s₀ (s.bayBreach b cause count unit) := hs.report _
theorem Keeps.injPeg (hs : Keeps s₀ s) (p : Nat) (b : BayId) : Keeps s₀ (s.injPeg p b) := by
  unfold State.injPeg
  extract_lets _ _
  exact .ite hs.write hs
theorem Keeps.token (hs : Keeps s₀ s) (b : BayId) (pegno : Nat) (ok : Bool) (phase : BitVec 8) (phv isEnd : Bool) : Keeps s₀ (s.token b pegno ok phase phv isEnd) := by
  unfold State.token
  split
  · exact (hs.injPeg _ _).modInv _ _
  · exact hs
theorem Keeps.fetchPiece (hs : Keeps s₀ s) (b : BayId) (tag w c off : Nat) (r : Region) (a : Int) : Keeps s₀ (s.fetchPiece b tag w c off r a) := by
  unfold State.fetchPiece
  dsimp only
  split
  · exact (((hs.modBay _ _).write.modCask _ _).cellarUe _ _ _ _ _ _).findingCounts _ _
  · exact .ite ((hs.modBay _ _).write.cellarUe _ _ _ _ _ _) (hs.modBay _ _)
theorem Keeps.readPiece (hs : Keeps s₀ s) (b : BayId) (tag w c off : Nat) (a : Int) : Keeps s₀ (s.readPiece b tag w c off a) := by
  unfold State.readPiece
  split
  · exact .ite (Keeps.ite (hs.fetchPiece _ _ _ _ _ _ _) hs) (Keeps.ite hs (hs.fetchPiece _ _ _ _ _ _ _))
  · exact hs
theorem Keeps.readsComplete (hs : Keeps s₀ s) (b : BayId) : Keeps s₀ (s.readsComplete b) := by
  unfold State.readsComplete
  refine .foldl _ _ hs ?_
  intro u _
  split
  · refine .foldl _ _ (Keeps.refl _) ?_
    intro u _
    split
    · split
      · exact (Keeps.refl _).fetchPiece _ _ _ _ _ _ _
      · exact Keeps.refl _
    · exact Keeps.refl _
  · exact Keeps.refl _
theorem Keeps.putWrite (hs : Keeps s₀ s) (b : BayId) (tag c phys : Nat) (a : Int) (d : Chunk) (beats : List Ecc) : Keeps s₀ (s.putWrite b tag c phys a d beats) :=
  hs.modCask _ _
theorem Keeps.rackBeats (hs : Keeps s₀ s) (c off : Nat) (a : Int) (beats : List Ecc) : Keeps s₀ (s.rackBeats c off a beats) := .ite hs (hs.beatsMet _ _ _ _)
theorem Keeps.writePiece (hs : Keeps s₀ s) (b : BayId) (tag c off : Nat) (a : Int) (d : Chunk) (beats : List Ecc) : Keeps s₀ (s.writePiece b tag c off a d beats) := by
  unfold State.writePiece
  split
  · exact (hs.putWrite _ _ _ _ _ _ _).rackBeats _ _ _ _
  · exact hs
theorem Keeps.bcastPiece (hs : Keeps s₀ s) (b : BayId) (tag g off : Nat) (a : Int) (d : Chunk) (beats : List Ecc) : Keeps s₀ (s.bcastPiece b tag g off a d beats) := by
  unfold State.bcastPiece
  extract_lets _ _
  refine .foldl _ _ hs ?_
  intro u _
  split
  · exact (Keeps.foldl _ _ (Keeps.refl _) (fun _ _ => (Keeps.refl _).putWrite _ _ _ _ _ _ _)).rackBeats _ _ _ _
  · exact Keeps.refl _
theorem Keeps.pieceErr (hs : Keeps s₀ s) (b : BayId) (c off : Nat) (err : PieceErr) (a : Int) : Keeps s₀ (s.pieceErr b c off err a) := by
  unfold State.pieceErr
  extract_lets s1
  have h1 : Keeps s₀ s1 := by
    unfold s1
    split
    · exact hs.cellarUe _ _ _ _ _ _
    · exact hs.cellarUe _ _ _ _ _ _
    · exact hs
  exact h1.findingCounts _ _
theorem Keeps.flit (hs : Keeps s₀ s) (b : BayId) (e : RouteEnt) (f : Nat) (leave : Int) (void poison : Bool) (data : Bytes) : Keeps s₀ (s.flit b e f leave void poison data) := by
  unfold State.flit
  split
  · exact hs
  · exact hs.write
theorem Keeps.sendOn (hs : Keeps s₀ s) (fl : Flight) : Keeps s₀ (s.sendOn fl) := by
  unfold State.sendOn
  split
  · exact hs.modBay _ _
  · exact hs.write
  · exact hs
theorem Keeps.passOutput (hs : Keeps s₀ s) (p : Nat) (fl : Flight) (h : Hop) : Keeps s₀ (s.passOutput p fl h) := by
  unfold State.passOutput
  split
  · exact hs.sendOn _
  · exact .ite (hs.report _) (hs.sendOn _)
theorem Keeps.forward (hs : Keeps s₀ s) (b : BayId) (c : Int) : Keeps s₀ (s.forward b c) := by
  unfold State.forward
  extract_lets _ _
  split
  · exact hs
  · split
    · exact hs.write
    · refine .foldl _ _ hs.write ?_
      intro u _
      extract_lets _
      split
      · exact .ite ((Keeps.refl _).passOutput _ _ _) (Keeps.ite ((Keeps.refl _).report _) (Keeps.refl _))
      · exact Keeps.refl _
theorem Keeps.seamsCycle (hs : Keeps s₀ s) (p : Nat) : Keeps s₀ (s.seamsCycle p) := .foldl _ _ hs (fun _ _ => (Keeps.refl _).modSeam _ _)
theorem Keeps.hint (hs : Keeps s₀ s) (b : BayId) (phase : BitVec 8) (c : Int) : Keeps s₀ (s.hint b phase c) := by
  unfold State.hint
  split
  · exact hs.modParcel _ _
  · exact hs
theorem Keeps.bout (hs : Keeps s₀ s) (b : BayId) (o : BOut) : Keeps s₀ (s.bout b o) := by
  unfold State.bout
  split
  · exact hs.bayBreach _ _ _ _
  · exact hs.bayFault _ _ _ _ _
  · exact hs.token _ _ _ _ _ _
  · exact hs.hint _ _ _
  · exact hs.readPiece _ _ _ _ _ _
  · exact hs.writePiece _ _ _ _ _ _ _
  · exact hs.bcastPiece _ _ _ _ _ _ _
  · exact hs.pieceErr _ _ _ _ _
  · exact hs.sopStart _ _ _
  · exact hs.sopEnd _ _ _ _
  · exact hs.flit _ _ _ _ _ _ _
theorem Keeps.injectMet (hs : Keeps s₀ s) (b : BayId) (old new : Vat) : Keeps s₀ (s.injectMet b old new) := by
  unfold State.injectMet
  split
  · extract_lets _
    exact .ite hs.write hs
  · exact hs
theorem Keeps.runBay (hs : Keeps s₀ s) (b : BayId) (f : BCtx → BayM → BayM) : Keeps s₀ (s.runBay b f) := by
  unfold State.runBay
  extract_lets _ _
  split
  · exact .foldl _ _ (hs.setBay _ _) (fun _ _ => (Keeps.refl _).bout _ _)
  · exact (Keeps.foldl _ _ ((hs.setBay _ _).injectMet _ _ _) (fun _ _ => (Keeps.refl _).bout _ _)).forward _ _
theorem State.bayOp_keeps (s : State) (b : BayId) (ok : Bool) (f : BCtx → BayM → BayM) : KeepsOut s (s.bayOp b ok f) := by
  unfold State.bayOp
  split
  · exact .next (Keeps.ite ((Keeps.refl _).runBay _ _) (Keeps.refl _))
  · exact .refused

/- The operations of Machine/ClockOps. -/
theorem Keeps.vfabTo (hs : Keeps s₀ s) (f : Nat) (fcode : BitVec 8) : Keeps s₀ (s.vfabTo f fcode) := hs.modField _ _
theorem Keeps.idleTo (hs : Keeps s₀ s) (p : Nat) (code : BitVec 8) : Keeps s₀ (s.idleTo p code) := by
  unfold State.idleTo
  split
  · exact hs
  · refine .foldl _ _ hs ?_
    intro u _
    split
    · exact Keeps.refl _
    · exact ((Keeps.refl _).modField _ _).vfabTo _ _
theorem Keeps.retarget (hs : Keeps s₀ s) (f : Nat) : Keeps s₀ (s.retarget f) := .ite (hs.vfabTo _ _) hs
theorem Keeps.stopRebase (hs : Keeps s₀ s) (f : Nat) : Keeps s₀ (s.stopRebase f) := by
  unfold State.stopRebase
  split
  · exact hs.modParcel _ _
  · exact hs
theorem Keeps.settleVolts (hs : Keeps s₀ s) (fs : List Nat) : Keeps s₀ (s.settleVolts fs) := .foldl _ _ hs (fun _ _ => .ite ((Keeps.refl _).vfabTo _ _) (Keeps.refl _))
theorem Keeps.lateCommand (hs : Keeps s₀ s) (f count : Nat) : Keeps s₀ (s.lateCommand f count) := hs.report _
theorem Keeps.clockSwitch (hs : Keeps s₀ s) (f : Nat) (c : ClockCmd) : Keeps s₀ (s.clockSwitch f c) := by
  unfold State.clockSwitch
  extract_lets _ _
  exact .ite hs (Keeps.ite (hs.lateCommand _ _) (Keeps.ite hs (hs.setField _ _)))
theorem Keeps.clockCancel (hs : Keeps s₀ s) (f : Nat) (c : ClockCmd) : Keeps s₀ (s.clockCancel f c) := by
  unfold State.clockCancel
  extract_lets _ _
  split
  · exact hs
  · split
    · exact hs.lateCommand _ _
    · split
      · exact .ite (hs.setField _ _) hs
      · exact hs
theorem Keeps.clockAlign (hs : Keeps s₀ s) (n epoch : Nat) : Keeps s₀ (s.clockAlign n epoch) := .ite hs (Keeps.ite (hs.lateCommand _ _) (Keeps.ite (hs.modSeam _ _) hs))
theorem Keeps.clockEpoch (hs : Keeps s₀ s) (f epoch : Nat) : Keeps s₀ (s.clockEpoch f epoch) := by
  unfold State.clockEpoch
  extract_lets _ _
  exact .ite hs (Keeps.ite (hs.lateCommand _ _) (hs.setField _ _))
theorem Keeps.seamsReset (hs : Keeps s₀ s) (f : Nat) : Keeps s₀ (s.seamsReset f) := .foldl _ _ hs (fun _ _ => (Keeps.refl _).modSeam _ _)
theorem Keeps.seamRelease (hs : Keeps s₀ s) (n : Nat) : Keeps s₀ (s.seamRelease n) := by
  unfold State.seamRelease
  exact (hs.modField _ _).modSeam _ _
theorem Keeps.seamAligned (hs : Keeps s₀ s) (n : Nat) (sigmas : List Int) : Keeps s₀ (s.seamAligned n sigmas) := (hs.seamRelease _).modSeam _ _

/- The operations of Machine/PortOps. -/
theorem Keeps.answerSlot (hs : Keeps s₀ s) (p n : Nat) (bytes : Bytes) : Keeps s₀ (s.answerSlot p n bytes) := (hs.modPort _ _).vector _ _
theorem Keeps.answer (hs : Keeps s₀ s) (rq : Option Requester) (msg parcel arrived : Nat) (a : Ans) : Keeps s₀ (s.answer rq msg parcel arrived a) := by
  unfold State.answer
  split
  · exact hs
  · extract_lets _
    split
    · exact hs.answerSlot _ _ _
    · exact (hs.emitPort _ _).emitPort _ _
    · exact hs.emit _
theorem Keeps.await (hs : Keeps s₀ s) (rq : Requester) (msg parcel : Nat) (w : WaitFor) : Keeps s₀ (s.await rq msg parcel w) := hs.write
theorem Keeps.answerWaits (hs : Keeps s₀ s) (pick : Wait → Bool) (a : Ans) : Keeps s₀ (s.answerWaits pick a) :=
  .foldl _ _ hs.write (fun _ _ => (Keeps.refl _).answer _ _ _ _ _)
theorem Keeps.holdWrite (hs : Keeps s₀ s) (p : Nat) (i : Instr) : Keeps s₀ (s.holdWrite p i) := hs.write
theorem Keeps.portClear (hs : Keeps s₀ s) (p : Nat) : Keeps s₀ (s.portClear p) := (hs.setPort _ _).write
theorem Keeps.portDown (hs : Keeps s₀ s) (p : Nat) : Keeps s₀ (s.portDown p) := (hs.portClear _).modPort _ _
theorem Keeps.subDown (hs : Keeps s₀ s) (t u : Nat) : Keeps s₀ (s.subDown t u) := by
  unfold State.subDown
  extract_lets _ s1
  have h1 : Keeps s₀ s1 := hs.modTap _ _
  split
  · split
    · exact h1.eventOwner _ _
    · exact h1
  · exact hs
theorem Keeps.tapDown (hs : Keeps s₀ s) (t : Nat) : Keeps s₀ (s.tapDown t) := .foldl _ _ hs (fun _ _ => (Keeps.refl _).subDown _ _)

/- The operations of Machine/SubOps. -/
theorem Keeps.modSub (hs : Keeps s₀ s) (t u : Nat) (f : SubLink → SubLink) : Keeps s₀ (s.modSub t u f) := hs.modTap _ _
theorem Keeps.subCount (hs : Keeps s₀ s) (t u i k : Nat) : Keeps s₀ (s.subCount t u i k) := hs.modSub _ _ _
theorem Keeps.rxDiscard (hs : Keeps s₀ s) (t u : Nat) : Keeps s₀ (s.rxDiscard t u) := hs.subCount _ _ _ _
theorem Keeps.sendOut (hs : Keeps s₀ s) (t u : Nat) (o : OutEv) : Keeps s₀ (s.sendOut t u o) := .ite ((hs.emit _).subCount _ _ _ _) hs
theorem Keeps.sendUdp (hs : Keeps s₀ s) (t u : Nat) (ip : BitVec 128) (sport dport : Nat) (payload : Bytes) : Keeps s₀ (s.sendUdp t u ip sport dport payload) :=
  .ite (hs.sendOut _ _ _) hs

/- The operations of Machine/PourOps. -/
theorem Keeps.pourSend (hs : Keeps s₀ s) (p : Nat) (q : PourSeq) (type : Nat) (payload : Bytes) : Keeps s₀ (s.pourSend p q type payload) := by
  unfold State.pourSend
  extract_lets _
  split
  · exact hs.sendUdp _ _ _ _ _ _
  · exact hs
theorem Keeps.pourRefuse (hs : Keeps s₀ s) (p : Nat) (src : PourSource) (id reason detail : Nat) : Keeps s₀ (s.pourRefuse p src id reason detail) := by
  unfold State.pourRefuse
  split
  · exact hs.sendUdp _ _ _ _ _ _
  · exact hs
theorem Keeps.pourWrite (hs : Keeps s₀ s) (p a : Nat) (data : Bytes) : Keeps s₀ (s.pourWrite p a data) := by
  unfold State.pourWrite
  split
  · exact hs.fwWrite _ _ _
  · exact hs
theorem Keeps.setPour (hs : Keeps s₀ s) (p : Nat) (new : Pour) : Keeps s₀ (s.setPour p new) := by
  unfold State.setPour
  extract_lets _ s1
  have h1 : Keeps s₀ s1 := hs.modParcel _ _
  split
  · exact h1
  · exact .foldl _ _ h1 (fun _ _ => .ite (Keeps.refl _) ((Keeps.refl _).pourWrite _ _ _))
theorem Keeps.pourEnd (hs : Keeps s₀ s) (p : Nat) (q : PourSeq) (reason : Nat) (label : Option Bytes) : Keeps s₀ (s.pourEnd p q reason label) := by
  unfold State.pourEnd
  extract_lets s1 _ _
  have h1 : Keeps s₀ s1 := hs.pourSend _ _ _ _
  exact h1.setPour _ _
theorem Keeps.pourEndAll (hs : Keeps s₀ s) (p reason : Nat) : Keeps s₀ (s.pourEndAll p reason) := (Keeps.foldl _ _ hs (fun _ _ => (Keeps.refl _).pourEnd _ _ _ _)).setPour _ _
theorem Keeps.pourOver (hs : Keeps s₀ s) (p : Nat) : Keeps s₀ (s.pourOver p) := ((hs.setPour _ _).eventOwner _ _).answerWaits _ _
theorem Keeps.answerCancels (hs : Keeps s₀ s) (p : Nat) (took : Bool) : Keeps s₀ (s.answerCancels p took) := by
  unfold State.answerCancels
  refine .foldl _ _ hs ?_
  intro u _
  split
  · exact (Keeps.refl _).answerWaits _ _
  · exact Keeps.refl _
theorem Keeps.pourFails (hs : Keeps s₀ s) (p : Nat) : Keeps s₀ (s.pourFails p) := .ite (((hs.pourEndAll _ _).answerCancels _ _).pourOver _) hs

/- The operations of Machine/ImageOps. -/
theorem Keeps.loadBays (hs : Keeps s₀ s) (p : Nat) (m : Image) : Keeps s₀ (s.loadBays p m) := .foldl _ _ hs (fun _ _ => (Keeps.refl _).modBay _ _)

/- The operations of Machine/Units. -/
theorem Keeps.vfabDown (hs : Keeps s₀ s) (f : Nat) : Keeps s₀ (s.vfabDown f) := by
  unfold State.vfabDown
  extract_lets s1 s2 s3
  have h1 : Keeps s₀ s1 := .foldl _ _ hs (fun _ _ => (Keeps.refl _).modBay _ _)
  have h2 : Keeps s₀ s2 := h1.seamsReset _
  have h3 : Keeps s₀ s3 := h2.modField _ _
  exact .foldl _ _ h3 (fun _ _ => (Keeps.refl _).modCask _ _)
theorem Keeps.fieldOff (hs : Keeps s₀ s) (f : Nat) (st : FState) : Keeps s₀ (s.fieldOff f st) := (hs.vfabDown _).modField _ _
theorem Keeps.fieldFails (hs : Keeps s₀ s) (f : Nat) : Keeps s₀ (s.fieldFails f) := (hs.fieldOff _ _).modField _ _
theorem Keeps.modBent (hs : Keeps s₀ s) (f b : Nat) (g : Bent → Bent) : Keeps s₀ (s.modBent f b g) := hs.modField _ _
theorem Keeps.setAction (hs : Keeps s₀ s) (seq action : Nat) : Keeps s₀ (s.setAction seq action) :=
  hs.writeLog (FaultLog.map_sound _ _ (fun e => if e.seq = seq then { e with action := action } else e) (fun e => by split <;> rfl) rfl rfl)
theorem Keeps.sister (hs : Keeps s₀ s) (b : BayId) : Keeps s₀ (s.sister b).1 := by
  unfold State.sister
  extract_lets _ _ _ _ s1 s2 _ _
  have h1 : Keeps s₀ s1 := hs.modEsc _
  have h2 : Keeps s₀ s2 := h1.modBent _ _ _
  exact .iteFst h2.write.pair ((h1.modBent _ _ _).pair)
theorem Keeps.bayFaulted (hs : Keeps s₀ s) (b : BayId) : Keeps s₀ (s.bayFaulted b).1 := by
  unfold State.bayFaulted
  extract_lets _ _ s1 _ _ s2
  have h1 : Keeps s₀ s1 := hs.write
  have h2 : Keeps s₀ s2.1 := h1.sister _
  split
  · exact .iteFst h1.pair ((((h1.modBent _ _ _).retarget _).modEsc _).pair)
  · exact h2.pair
  · exact h1.pair
theorem Keeps.excludeCask (hs : Keeps s₀ s) (c : Nat) : Keeps s₀ (s.excludeCask c) := (((hs.modCask _ _).modEsc _).report _).fieldFails _
theorem Keeps.caskFaulted (hs : Keeps s₀ s) (c : Nat) : Keeps s₀ (s.caskFaulted c).1 := by
  unfold State.caskFaulted
  extract_lets _ _ s1
  have h1 : Keeps s₀ s1 := hs.modCask _ _
  exact .iteFst h1.pair (Keeps.iteFst (((h1.modCask _ _).modEsc _).pair) ((h1.excludeCask _).pair))
theorem Keeps.hubDown (hs : Keeps s₀ s) (f : Nat) : Keeps s₀ (s.hubDown f) := (Keeps.foldl _ _ (hs.modField _ _) (fun _ _ => (Keeps.refl _).modSeam _ _)).write
theorem Keeps.contractSees (hs : Keeps s₀ s) (why : Nat) : Keeps s₀ (s.contractSees why) := hs.write
theorem Keeps.retireSeam (hs : Keeps s₀ s) (n : Nat) : Keeps s₀ (s.retireSeam n) := ((hs.modSeam _ _).modEsc _).report _
theorem Keeps.linkCapacity (hs : Keeps s₀ s) (n : Nat) : Keeps s₀ (s.linkCapacity n) := by
  unfold State.linkCapacity
  split
  · exact .ite hs (hs.report _)
  · exact hs
theorem Keeps.steerWire (hs : Keeps s₀ s) (l : ScarfLink) (g : Nat) : Keeps s₀ (s.steerWire l g).1 := by
  unfold State.steerWire
  extract_lets _ s1 _ s2
  have h1 : Keeps s₀ s1 := hs.modSeam _ _
  have h2 : Keeps s₀ s2 := hs.modSeam _ _
  exact .iteFst hs.pair (Keeps.iteFst (((h1.report _).linkCapacity _).pair) ((Keeps.foldl _ _ h2 (fun _ _ => (Keeps.refl _).modField _ _)).pair))

/- The operations of Machine/SoundOps. -/
theorem Keeps.soundedBay (hs : Keeps s₀ s) (b : BayId) : Keeps s₀ (s.soundedBay b) := by
  unfold State.soundedBay
  split
  · extract_lets _ _ _ s1
    have h1 : Keeps s₀ s1 := hs.modBay _ _
    split
    · exact h1.modBay _ _
    · exact h1
  · exact hs.modBay _ _
theorem Keeps.soundLink (hs : Keeps s₀ s) (l : ScarfLink) (wires : List Nat) : Keeps s₀ (s.soundLink l wires) := by
  unfold State.soundLink
  extract_lets s1
  have h1 : Keeps s₀ s1 := .foldl _ _ hs (fun _ _ => (Keeps.refl _).steerWire _ _)
  exact .ite (h1.seamAligned _ _) h1
theorem Keeps.soundRun (hs : Keeps s₀ s) (f : SoundF) (found : SoundFinding) (a : SoundTarget) : Keeps s₀ (s.soundRun f found a) := by
  cases a with
  | bay b =>
    have h1 : Keeps s₀ (s.soundedBay b) := hs.soundedBay _
    refine .ite (.foldl _ _ (h1.sister _) (fun _ _ => .ite (Keeps.soundedBay (.refl _) _) (.refl _))) h1
  | cask c => exact .foldl _ _ (.ite (hs.modCask _ _ (fun _ _ => rfl)) hs) (fun _ _ => Keeps.staveFails (.refl _) _ _)
  | channel c ch => exact .ite (hs.caskFaulted _) hs
  | link l => exact hs.soundLink _ _
  | lath n => exact hs.soundLink _ _
  | tap t => exact hs.tapDown _
  | stress => exact hs
theorem Keeps.soundsDue (hs : Keeps s₀ s) (p : Nat) : Keeps s₀ (s.soundsDue p) := by
  unfold State.soundsDue
  extract_lets _ _
  refine .foldl _ _ hs.write ?_
  intro u _
  split
  · split
    · exact ((Keeps.refl _).soundRun _ _ _).answer _ _ _ _ _
    · exact Keeps.refl _
  · exact Keeps.refl _

/- The operations of Machine/RunOps. -/
theorem Keeps.unsignLabels (hs : Keeps s₀ s) : Keeps s₀ (s.unsignLabels) := by
  unfold State.unsignLabels
  refine .foldl _ _ hs ?_
  intro u _
  extract_lets _ s1 s2
  have h1 : Keeps u s1 := (Keeps.refl _).modParcel _ _
  have h2 : Keeps u s2 := .ite (h1.eventOwner _ _) h1
  refine .foldl _ _ h2 ?_
  intro u _
  split
  · extract_lets s3
    have h3 : Keeps u s3 := (Keeps.refl _).modParcel _ _
    exact .ite (h3.pourSend _ _ _ _) (Keeps.refl _)
  · exact Keeps.refl _
theorem Keeps.dropFlits (hs : Keeps s₀ s) (p : Nat) : Keeps s₀ (s.dropFlits p) := hs.write
theorem Keeps.startBays (hs : Keeps s₀ s) (p : Nat) (m : Image) (prologue : Bool) (key : BitVec 128) : Keeps s₀ (s.startBays p m prologue key) := by
  unfold State.startBays
  extract_lets _ s1 s2
  have h1 : Keeps s₀ s1 := .foldl _ _ hs (fun _ _ => (Keeps.refl _).modBay _ _)
  have h2 : Keeps s₀ s2 := .foldl _ _ h1 (fun _ _ => (Keeps.refl _).modCask _ _)
  exact h2.dropFlits _
theorem Keeps.startInv (hs : Keeps s₀ s) (p : Nat) (i : Inv) (m : Image) : Keeps s₀ (s.startInv p i m) := by
  unfold State.startInv
  extract_lets _ s1 s2 _ _ _ _ s3
  have h1 : Keeps s₀ s1 := hs.startBays _ _ _ _
  have h2 : Keeps s₀ s2 := .foldl _ _ h1 (fun _ _ => (Keeps.refl _).modCask _ _)
  have h3 : Keeps s₀ s3 := h2.modParcel _ _
  exact h3.setPState _ _
theorem Keeps.firstCount (hs : Keeps s₀ s) (p : Nat) : Keeps s₀ (s.firstCount p) := by
  unfold State.firstCount
  split
  · extract_lets _ _ s1 s2
    have h1 : Keeps s₀ s1 := hs.modInv _ _
    have h2 : Keeps s₀ s2 := h1.modParcel _ _
    exact h2.answerWaits _ _
  · exact hs
theorem Keeps.endBays (hs : Keeps s₀ s) (p : Nat) : Keeps s₀ (s.endBays p) := by
  unfold State.endBays
  extract_lets q s1 s2
  have h1 : Keeps s₀ s1 := .foldl _ _ hs (fun _ _ => Keeps.modBay (.refl _) _ _)
  have h2 : Keeps s₀ s2 := .foldl _ _ h1 (fun _ _ => Keeps.modCask (.refl _) _ _ (fun k => k.commit_mem none))
  exact h2.dropFlits _
theorem Keeps.quietTicks (hs : Keeps s₀ s) (p : Nat) : Keeps s₀ (s.quietTicks p) := .foldl _ _ hs (fun _ _ => (Keeps.refl _).runBay _ _)
theorem Keeps.settleGo (hs : Keeps s₀ s) (p n : Nat) : Keeps s₀ (State.settleGo p n s) := by
  induction n generalizing s with
  | zero => exact hs
  | succ n ih => exact .ite hs (ih (hs.quietTicks _))
theorem Keeps.settleBays (hs : Keeps s₀ s) (p : Nat) : Keeps s₀ (s.settleBays p) := hs.settleGo _ _
theorem Keeps.endRun (hs : Keeps s₀ s) (p status code : Nat) : Keeps s₀ (s.endRun p status code) := by
  unfold State.endRun
  split
  · extract_lets _ _ _ _ _ _ _ _ _ s1 s2 s3 s4 s5 s6
    have h1 : Keeps s₀ s1 := (hs.endBays _).modParcel _ _
    have h2 : Keeps s₀ s2 := h1.answerWaits _ _
    have h3 : Keeps s₀ s3 := h2.answerWaits _ _
    have h4 : Keeps s₀ s4 := (h3.modParcel _ _).answerWaits _ _
    have h5 : Keeps s₀ s5 := (h4.setPState _ _).soundsDue _
    have h6 : Keeps s₀ s6 := .ite (h5.pourFails _) h5
    exact .ite h6 (h6.eventOwner _ _)
  · exact hs
theorem Keeps.parkNow (hs : Keeps s₀ s) (p : Nat) (by_ : ParkBy) : Keeps s₀ (s.parkNow p by_) :=
  (((Keeps.foldl _ _ hs (fun _ _ => .ite ((Keeps.refl _).fieldOff _ _) (Keeps.refl _))).modParcel _ _).setPState _ _).answerWaits _ _
theorem Keeps.endAndPark (hs : Keeps s₀ s) (p status code : Nat) : Keeps s₀ (s.endAndPark p status code) := by
  unfold State.endAndPark
  extract_lets _ s1
  have h1 : Keeps s₀ s1 := hs.endRun _ _ _
  exact .ite (h1.parkNow _ _) h1
theorem Keeps.askPark (hs : Keeps s₀ s) (p : Nat) (by_ : ParkBy) : Keeps s₀ (s.askPark p by_) := by
  unfold State.askPark
  extract_lets _
  split
  · exact .ite (((hs.modParcel _ _).modInv _ _).setPState _ _) ((hs.modInv _ _).parkNow _ _)
  · exact hs.parkNow _ _
theorem Keeps.commitAt (hs : Keeps s₀ s) (p count : Nat) : Keeps s₀ (s.commitAt p count) :=
  .foldl _ _ hs (fun _ _ => Keeps.modCask (.refl _) _ _ (fun k => k.commit_mem _))
theorem Keeps.writeSlot (hs : Keeps s₀ s) (p slot : Nat) (v : Vintage) : Keeps s₀ (s.writeSlot p slot v) :=
  (hs.foldl_pair _ _ (fun _ _ => Keeps.modCask (.refl _) _ _ (fun k => k.putSlot_mem _ _ _))).modCask _ _ (fun k => k.putSlot_mem _ _ _)
theorem Keeps.vintageDrawn (hs : Keeps s₀ s) (p : Nat) (t : Stop) (i : Inv) (m : Image) : Keeps s₀ (s.vintageDrawn p t i m) := by
  unfold State.vintageDrawn
  extract_lets s1 _ _ _ _ _ _ s2 s3
  have h1 : Keeps s₀ s1 := hs.commitAt _ _
  have h2 : Keeps s₀ s2 := (h1.writeSlot _ _ _).modParcel _ _
  have h3 : Keeps s₀ s3 := .foldl _ _ h2.write (fun _ _ => (Keeps.refl _).modCask _ _)
  exact h3.answerWaits _ _
theorem Keeps.rewind (hs : Keeps s₀ s) (p : Nat) : Keeps s₀ (s.rewind p) :=
  .foldl _ _ hs (fun _ _ => Keeps.modCask (.refl _) _ _ (fun k => k.rewind_mem))
theorem Keeps.redraw (hs : Keeps s₀ s) (p : Nat) : Keeps s₀ (s.redraw p) := (Keeps.ite (hs.modInv _ _) hs).write
theorem Keeps.restoreVintage (hs : Keeps s₀ s) (p : Nat) (v : Vintage) (foreign : Bool) : Keeps s₀ (s.restoreVintage p v foreign) := by
  unfold State.restoreVintage
  extract_lets _ s1 _ s2 s3 s4 s5 s6 _ _
  have h1 : Keeps s₀ s1 := .foldl _ _ hs (fun _ _ => (Keeps.refl _).modBay _ _)
  have h2 : Keeps s₀ s2 := .foldl _ _ h1 (fun _ _ => (Keeps.refl _).modBay _ _)
  have h3 : Keeps s₀ s3 := .foldl _ _ h2 (fun _ _ => (Keeps.refl _).modSeam _ _)
  have h4 : Keeps s₀ s4 := .foldl _ _ h3 (fun _ _ => (Keeps.refl _).modCask _ _)
  have h5 : Keeps s₀ s5 := h4.dropFlits _
  have h6 : Keeps s₀ s6 := h5.write.redraw _
  exact h6.modParcel _ _

/- The operations of Machine/Recovery. -/
theorem Keeps.failRun (hs : Keeps s₀ s) (p code action : Nat) (rewind : Bool) : Keeps s₀ (s.failRun p code action rewind) :=
  ((Keeps.ite (hs.rewind _) hs).report _).endAndPark _ _ _
theorem Keeps.capacityReduced (hs : Keeps s₀ s) (p : Nat) : Keeps s₀ (s.capacityReduced p) := .ite (hs.failRun _ _ _ _) (hs.report _)
theorem Keeps.loseParcel (hs : Keeps s₀ s) (p : Nat) : Keeps s₀ (s.loseParcel p) := (hs.capacityReduced _).parkNow _ _
theorem Keeps.darkField (hs : Keeps s₀ s) (f : Nat) : Keeps s₀ (s.darkField f) := by
  unfold State.darkField
  split
  · exact .ite (hs.modInv _ _) (hs.loseParcel _)
  · exact hs
theorem Keeps.equalise (hs : Keeps s₀ s) (fs : List Nat) : Keeps s₀ (s.equalise fs) := by
  unfold State.equalise
  extract_lets _
  refine .foldl _ _ hs ?_
  intro u _
  split
  · exact Keeps.refl _
  · exact (Keeps.refl _).modField _ _
theorem Keeps.realignSeam (hs : Keeps s₀ s) (n : Nat) : Keeps s₀ (s.realignSeam n) := by
  unfold State.realignSeam
  extract_lets s1
  have h1 : Keeps s₀ s1 := by
    unfold s1
    split
    · exact hs.equalise _
    · exact hs
  exact .ite (h1.seamAligned _ _) (h1.modSeam _ _)
theorem Keeps.realignAll (hs : Keeps s₀ s) (p : Nat) : Keeps s₀ (s.realignAll p) := .foldl _ _ hs (fun _ _ => .ite ((Keeps.refl _).realignSeam _) (Keeps.refl _))
theorem Keeps.seamOverran (hs : Keeps s₀ s) (n : Nat) : Keeps s₀ (s.seamOverran n).1 := by
  unfold State.seamOverran
  extract_lets _ _ _ s1
  have h1 : Keeps s₀ s1 := hs.modSeam _ _
  exact .iteFst ((h1.retireSeam _).pair) ((h1.realignSeam _).pair)
theorem Keeps.escalate (hs : Keeps s₀ s) (p : Nat) (r : FaultRec) (found : PathFinding) : Keeps s₀ (s.escalate p r found).1 := by
  unfold State.escalate
  extract_lets _
  split
  · exact hs.pair
  · split
    · split
      · exact hs.caskFaulted _
      · exact hs.pair
    · split
      · split
        · exact hs.pair
        · exact hs.caskFaulted _
        · exact hs.pair
      · split
        · exact hs.seamOverran _
        · split
          · split
            · exact hs.bayFaulted _
            · exact (hs.steerWire _ _).pair
            · exact hs.bayFaulted _
          · split
            · split
              · exact hs.bayFaulted _
              · exact hs.pair
            · exact .iteFst (hs.bayFaulted _) hs.pair
theorem Keeps.settleData (hs : Keeps s₀ s) (i : Inv) : Keeps s₀ (s.settleData i).1 := by
  unfold State.settleData
  split
  · exact (hs.bayFaulted _).pair
  · exact hs.pair
theorem Keeps.rollback (hs : Keeps s₀ s) (p : Nat) (i : Inv) (m : Image) (r : FaultRec) (found : PathFinding) : Keeps s₀ (s.rollback p i m r found) := by
  unfold State.rollback
  have h1 : Keeps s₀ (s.contractSees 5) := hs.contractSees _
  refine .ite (hs.loseParcel _) (.ite (hs.endAndPark _ _ _) (.ite (hs.failRun _ _ _ _) (.ite ((h1.setAction _ _).failRun _ _ _ _) ?_)))
  extract_lets fresh
  have h2 : Keeps s₀ (if (fresh && i.dfault.isNone) = true then (s.contractSees 5, false) else (s.contractSees 5).settleData i).1 :=
    .iteFst h1.pair (h1.settleData _)
  split
  next s2 short1 hs2 =>
  rw [hs2] at h2
  have h3 : Keeps s₀ (if fresh = true then (s2, 1, false) else s2.escalate p r found).1 := .iteFst h2.pair (h2.escalate _ _ _)
  split
  next s3 act short2 hs3 =>
  rw [hs3] at h3
  extract_lets s4 s5 s6 s7
  have h4 : Keeps s₀ s4 := (h3.setAction _ _).modInv _ _
  have h6 : Keeps s₀ s6 := ((h4.realignAll _).rewind _).modInv _ _
  refine .ite ((h4.setAction _ _).failRun _ _ _ _) (.ite (h4.failRun _ _ _ _) ?_)
  split
  · exact h6.restoreVintage _ _ _
  · exact ((h6.startBays _ _ _ _).redraw _).modInv _ _

/- The operations of Machine/TrellisOps. -/
theorem Keeps.pegLevers (hs : Keeps s₀ s) (p : Nat) (mark : Option (BitVec 8)) : Keeps s₀ (s.pegLevers p mark) := by
  unfold State.pegLevers
  extract_lets _ _ s1 s2
  have h1 : Keeps s₀ s1 := hs.modParcel _ _
  have h2 : Keeps s₀ s2 := .ite (Keeps.foldl _ _ h1 (fun _ _ => (Keeps.refl _).modCask _ _)) h1
  split
  · exact .foldl _ _ (h2.modParcel _ _) (fun _ _ => ((Keeps.refl _).modField _ _).retarget _)
  · exact h2
theorem Keeps.precharge (hs : Keeps s₀ s) (f : Nat) : Keeps s₀ (s.precharge f) := by
  unfold State.precharge
  refine .foldl _ _ hs ?_
  intro u _
  split
  · exact (Keeps.refl _).modField _ _
  · exact Keeps.refl _

/- The operations of Machine/RaiseOps. -/
theorem Keeps.modRaising (hs : Keeps s₀ s) (f : Raising → Raising) : Keeps s₀ (s.modRaising f) := hs.write
theorem Keeps.raiseErr (hs : Keeps s₀ s) (code step field op : Nat) : Keeps s₀ (s.raiseErr code step field op) := hs.modRaising _
theorem Keeps.raiseAccept (hs : Keeps s₀ s) (port op : Nat) (fields : BitVec 10) (memtest : Bool) : Keeps s₀ (s.raiseAccept port op fields memtest) := by
  unfold State.raiseAccept
  extract_lets _ s1
  have h1 : Keeps s₀ s1 := (hs.raiseErr _ _ _ _).modRaising _
  split
  · exact (hs.raiseErr _ _ _ _).modRaising _
  · split
    · exact .foldl _ _ h1 (fun _ _ => (Keeps.refl _).modField _ _)
    · exact .foldl _ _ h1 (fun _ _ => (Keeps.refl _).modField _ _)
    · exact h1
theorem Keeps.raiseTake (hs : Keeps s₀ s) (port op : Nat) (fields : BitVec 10) (memtest : Bool) : Keeps s₀ (s.raiseTake port op fields memtest).1 := by
  unfold State.raiseTake
  split
  · exact hs.pair
  · split
    · exact .iteFst hs.pair (Keeps.iteFst ((hs.raiseAccept _ _ _ _).pair) hs.pair)
    · extract_lets s1
      have h1 : Keeps s₀ s1 := hs.raiseAccept _ _ _ _
      exact .iteFst h1.pair hs.pair
theorem Keeps.raiseIdle (hs : Keeps s₀ s) : Keeps s₀ (s.raiseIdle) := hs.modRaising _
theorem Keeps.fieldTrips (hs : Keeps s₀ s) (f : Nat) (p : Option Nat) : Keeps s₀ (s.fieldTrips f p) :=
  (((Keeps.ite (hs.powerEvent _ _ _ _ _ _ _) hs).modField _ _).modEsc _).hubDown _
theorem Keeps.stepGrant (hs : Keeps s₀ s) (f : Nat) (d : FieldFindings) (fast : Bool) : Keeps s₀ (stepGrant f d fast s).1 := by
  unfold Machine.stepGrant
  extract_lets s1 s2
  have h1 : Keeps s₀ s1 := .foldl _ _ hs (fun _ _ => (Keeps.refl _).modCask _ _)
  have h2 : Keeps s₀ s2 := h1.precharge _
  split
  · exact hs.pair
  · split
    · exact (h2.fieldTrips _ _).pair
    · split
      · exact h2.pair
      · exact (h2.modField _ _).pair
theorem Keeps.loadEpoch (hs : Keeps s₀ s) (f : Nat) : Keeps s₀ (s.loadEpoch f) := hs.emit _
theorem Keeps.stepPll (hs : Keeps s₀ s) (f : Nat) (d : FieldFindings) : Keeps s₀ (stepPll f d s).1 := by
  unfold Machine.stepPll
  extract_lets s1 _
  have h1 : Keeps s₀ s1 := .foldl _ _ (hs.modField _ _) (fun _ _ => (Keeps.refl _).loadEpoch _)
  split
  · exact hs.pair
  · split
    · exact h1.pair
    · exact (h1.modField _ _).pair
theorem Keeps.stepTest (hs : Keeps s₀ s) (f : Nat) (d : FieldFindings) (waits : Bool) : Keeps s₀ (stepTest f d waits s).1 := by
  unfold Machine.stepTest
  split
  · exact hs.pair
  · extract_lets s1
    have h1 : Keeps s₀ s1 := hs.modField _ _
    exact .iteFst h1.pair h1.pair
theorem Keeps.reconcileBent (hs : Keeps s₀ s) (f : Nat) (d : FieldFindings) (k : Nat) : Keeps s₀ (reconcileBent f d k s).1 := by
  unfold Machine.reconcileBent
  extract_lets _ _ _ _ s1 _ s2 _ s3
  have h1 : Keeps s₀ s1 := .foldl _ _ hs (fun _ _ => ((Keeps.refl _).modEsc _).report _)
  have h2 : Keeps s₀ s2 := h1.modBent _ _ _
  have h3 : Keeps s₀ s3 := .foldl _ _ h2 (fun _ _ => (((Keeps.refl _).modEsc _).modField _ _).report _)
  exact h3.pair
theorem Keeps.reconcileSlices (hs : Keeps s₀ s) (f : Nat) (d : FieldFindings) : Keeps s₀ (reconcileSlices f d s) := by
  unfold Machine.reconcileSlices
  refine .foldl _ _ hs ?_
  intro u _
  extract_lets _ s1
  have h1 : Keeps u s1 := (Keeps.refl _).modBent _ _ _
  exact .ite h1 (Keeps.ite (h1.powerEvent _ _ _ _ _ _ _) ((h1.modBent _ _ _).modEsc _))
theorem Keeps.stepReconcile (hs : Keeps s₀ s) (f : Nat) (d : FieldFindings) : Keeps s₀ (stepReconcile f d s).1 := by
  unfold Machine.stepReconcile
  extract_lets r s1 s2
  have hr : Keeps s₀ r.1 := hs.foldl_pair _ _ (fun u _ => Keeps.reconcileBent (.refl u.1) _ _ _)
  have h1 : Keeps s₀ s1 := hr.modField _ _
  exact h1.reconcileSlices _ _
theorem Keeps.alignSeam (hs : Keeps s₀ s) (f n : Nat) (d : FieldFindings) : Keeps s₀ (alignSeam f n d s).1 := by
  unfold Machine.alignSeam
  extract_lets r
  have h1 : Keeps s₀ r.1 := hs.foldl_pair _ _ (fun u _ => Keeps.steerWire (.refl u.1) _ _)
  split
  · exact ((h1.retireSeam _).modField _ _).pair
  · split
    · exact (Keeps.foldl _ _ h1 (fun u _ => Keeps.modField (.refl u) _ _)).pair
    · exact .iteFst (h1.seamAligned _ _).pair h1
theorem Keeps.stepAlign (hs : Keeps s₀ s) (f : Nat) (d : FieldFindings) : Keeps s₀ (stepAlign f d s).1 :=
  hs.foldl_pair _ _ (fun _ _ => .iteFst (.refl _) (Keeps.alignSeam (.refl _) _ _ _))
theorem Keeps.stepMicro (hs : Keeps s₀ s) (f : Nat) (d : FieldFindings) : Keeps s₀ (stepMicro f d s).1 := by
  unfold Machine.stepMicro
  extract_lets _
  exact .iteFst hs.pair ((Keeps.foldl _ _ hs (fun _ _ => (Keeps.refl _).modBay _ _)).pair)
theorem Keeps.stepClear (hs : Keeps s₀ s) (f : Nat) (d : FieldFindings) : Keeps s₀ (stepClear f d s).1 :=
  .iteFst hs.pair ((Keeps.foldl _ _ hs (fun _ _ => (Keeps.refl _).modBay _ _)).pair)
theorem Keeps.stepCellar (hs : Keeps s₀ s) (f : Nat) (d : FieldFindings) (fast : Bool) : Keeps s₀ (stepCellar f d fast s).1 :=
  .iteFst hs ((Keeps.foldl _ _ hs (fun _ _ => Keeps.modCask (.refl _) _ _ (cellarUp_mem fast))).modField _ _).pair
theorem Keeps.stepMemtest (hs : Keeps s₀ s) (f : Nat) (d : FieldFindings) : Keeps s₀ (stepMemtest f d s).1 := by
  refine .iteFst hs (.foldl _ _ hs ?_)
  intro u c
  extract_lets k s1 s2
  have h1 : Keeps u s1 := (Keeps.refl u).modCask _ _ (fun _ _ => rfl)
  have h2 : Keeps u s2 := .ite (h1.modEsc _) h1
  exact .ite ((h2.modCask _ _).staveSpared _) h2
theorem Keeps.finish {r : RStep} (hs : Keeps s₀ r.s) (f : Nat) (fast endParked : Bool) : Keeps s₀ (r.finish f fast endParked).1 := by
  unfold RStep.finish
  extract_lets warn s1 trip st s2 held
  have h1 : Keeps s₀ s1 := hs.modField _ _
  have h2 : Keeps s₀ s2 := hs.fieldOff _ _
  split
  · exact (Keeps.ite (h1.fieldOff _ _) h1).pair
  · exact (h2.modField _ _).pair
theorem Keeps.run {r : RStep} (hs : Keeps s₀ r.s) (f k : Nat) (d : FieldFindings) {work : State → State × Nat} (hw : ∀ u, Keeps u (work u).1) :
    Keeps s₀ (r.run f k d work).s := by
  unfold RStep.run
  extract_lets s1 w
  have h1 : Keeps s₀ s1 := hs.modField _ _
  split
  · exact hs
  · split
    · exact h1
    · exact h1.trans (hw _)
theorem Keeps.raiseField (hs : Keeps s₀ s) (f : Nat) (d : FieldFindings) (memtest waits endParked : Bool) :
    Keeps s₀ (s.raiseField f d memtest waits endParked).1 := by
  unfold State.raiseField
  extract_lets ex s1 r1 r2 r3 r4 r5 r6 r7 r8 r9 r10
  have h1 : Keeps s₀ s1 := hs.modField _ _
  have h2 : Keeps s₀ r2.s := Keeps.run (r := r1) h1 _ _ _ (fun u => Keeps.stepGrant (.refl u) _ _ _)
  have h3 : Keeps s₀ r3.s := h2.run _ _ _ (fun u => Keeps.stepPll (.refl u) _ _)
  have h4 : Keeps s₀ r4.s := h3.run _ _ _ (fun u => Keeps.stepTest (.refl u) _ _ _)
  have h5 : Keeps s₀ r5.s := h4.run _ _ _ (fun u => Keeps.stepReconcile (.refl u) _ _)
  have h6 : Keeps s₀ r6.s := h5.run _ _ _ (fun u => Keeps.stepAlign (.refl u) _ _)
  have h7 : Keeps s₀ r7.s := h6.run _ _ _ (fun u => Keeps.stepMicro (.refl u) _ _)
  have h8 : Keeps s₀ r8.s := h7.run _ _ _ (fun u => Keeps.stepClear (.refl u) _ _)
  have h9 : Keeps s₀ r9.s := h8.run _ _ _ (fun u => Keeps.stepCellar (.refl u) _ _ _)
  have h10 : Keeps s₀ r10.s := by
    unfold r10
    split
    · exact h9.run _ _ _ (fun u => Keeps.stepMemtest (.refl u) _ _)
    · exact h9
  exact h10.finish _ _ _
theorem Keeps.fastField (hs : Keeps s₀ s) (f : Nat) (d : FieldFindings) : Keeps s₀ (s.fastField f d).1 := by
  unfold State.fastField
  extract_lets calib s1 r1 r2 r3 r4 r5 r6 r7 r8
  have h1 : Keeps s₀ s1 := hs.modField _ _
  have h2 : Keeps s₀ r2.s := Keeps.run (r := r1) h1 _ _ _ (fun u => Keeps.stepGrant (.refl u) _ _ _)
  have h3 : Keeps s₀ r3.s := h2.run _ _ _ (fun u => Keeps.stepPll (.refl u) _ _)
  have h4 : Keeps s₀ r4.s := h3.run _ _ _ (fun u => .refl u)
  have h5 : Keeps s₀ r5.s := h4.run _ _ _ (fun u => Keeps.stepAlign (.refl u) _ _)
  have h6 : Keeps s₀ r6.s := h5.run _ _ _ (fun u => Keeps.stepMicro (.refl u) _ _)
  have h7 : Keeps s₀ r7.s := h6.run _ _ _ (fun u => Keeps.stepClear (.refl u) _ _)
  have h8 : Keeps s₀ r8.s := h7.run _ _ _ (fun u => Keeps.stepCellar (.refl u) _ _ _)
  exact h8.finish _ _ _
theorem Keeps.noteRaise (hs : Keeps s₀ s) (f op : Nat) (r : Nat × Nat) : Keeps s₀ (s.noteRaise f op r) := .ite (hs.raiseErr _ _ _ _) hs
theorem Keeps.raiseGo (hs : Keeps s₀ s) (found : List FieldFindings) (memtest endParked : Bool) (n : Nat) (fs : List Nat) :
    Keeps s₀ (raiseGo found memtest endParked n fs s) := by
  induction n generalizing fs s with
  | zero => exact hs
  | succ n ih =>
    unfold Machine.raiseGo
    split
    · exact ih ((hs.raiseField _ _ _ _ _).noteRaise _ _ _) _
    · exact .foldl _ _ hs (fun u _ => Keeps.noteRaise (Keeps.raiseField (.refl u) _ _ _ _ _) _ _ _)
theorem Keeps.bringUp (hs : Keeps s₀ s) (f : Nat) (found : List FieldFindings) : Keeps s₀ (s.bringUp f found) := by
  unfold State.bringUp
  extract_lets _
  exact .ite hs (Keeps.ite (hs.fastField _ _) (hs.raiseField _ _ _ _ _))
theorem Keeps.bringUpAll (hs : Keeps s₀ s) (fs : List Nat) (found : List FieldFindings) : Keeps s₀ (s.bringUpAll fs found) :=
  .foldl _ _ hs (fun _ _ => (Keeps.refl _).bringUp _ _)

/- The operations of Machine/Resume. -/
theorem Keeps.parkAgain (hs : Keeps s₀ s) (fs : List Nat) : Keeps s₀ (s.parkAgain fs) := .foldl _ _ hs (fun _ _ => .ite ((Keeps.refl _).fieldOff _ _) (Keeps.refl _))
theorem Keeps.resumeParcel (hs : Keeps s₀ s) (p : Nat) (found : List FieldFindings) : Keeps s₀ (s.resumeParcel p found).1 := by
  unfold State.resumeParcel
  extract_lets s1 _ s2 _ s3 s4 s5
  have h1 : Keeps s₀ s1 := hs.setPState _ _
  have h2 : Keeps s₀ s2 := h1.bringUpAll _ _
  have h3 : Keeps s₀ s3 := by
    unfold s3
    split
    · exact h2.loadBays _ _
    · exact h2
  have h4 : Keeps s₀ s4 := h3.modParcel _ _
  have h5 : Keeps s₀ s5 := by
    unfold s5
    split
    · exact h4.restoreVintage _ _ _
    · exact h4
  split
  · exact ((h2.parkAgain _).setPState _ _).pair
  · split
    · exact .iteFst ((h5.setPState _ _).pair) ((h4.setPState _ _).pair)
    · exact (h4.setPState _ _).pair
theorem Keeps.resumeDone (hs : Keeps s₀ s) (p code : Nat) : Keeps s₀ (s.resumeDone p code) := hs.answerWaits _ _

/- The operations of Machine/Trellis. -/
theorem Keeps.modTrellis (hs : Keeps s₀ s) (f : Trellis → Trellis) : Keeps s₀ (s.modTrellis f) := hs.write
theorem Keeps.modTr (hs : Keeps s₀ s) (p : Nat) (f : PTrellis → PTrellis) : Keeps s₀ (s.modTr p f) := hs.modParcel _ _
theorem Keeps.takeReadings (hs : Keeps s₀ s) (t : TrellisInputs) : Keeps s₀ (s.takeReadings t) := by
  unfold State.takeReadings
  extract_lets _ _ _ _ _ _ _ _
  exact hs.modTrellis _
theorem Keeps.measure (hs : Keeps s₀ s) (t : TrellisInputs) : Keeps s₀ (s.measure t) := by
  unfold State.measure
  extract_lets s1 _ s2 s3 s4 _
  have h1 : Keeps s₀ s1 := hs.takeReadings _
  have h2 : Keeps s₀ s2 := h1.modTrellis _
  have h3 : Keeps s₀ s3 := h2.modTrellis _
  have h4 : Keeps s₀ s4 := .foldl _ _ h3 (fun _ _ => (Keeps.refl _).modTr _ _)
  exact h4.modTrellis _
theorem Keeps.occSample (hs : Keeps s₀ s) (p : Nat) : Keeps s₀ (s.occSample p) := by
  unfold State.occSample
  extract_lets _ _ _ _ _ _ _ _ _ _ _
  exact .ite hs (hs.modTr _ _)
theorem Keeps.staleEvents (hs : Keeps s₀ s) : Keeps s₀ (s.staleEvents) := .foldl _ _ (hs.modTrellis _) (fun _ _ => (Keeps.refl _).trellisEvent _ _ _)
theorem Keeps.thermal (hs : Keeps s₀ s) (p : Nat) : Keeps s₀ (s.thermal p) := by
  unfold State.thermal
  extract_lets _ _ _ _ _ s1 s2 s3 s4 s5
  have h1 : Keeps s₀ s1 := hs.modTr _ _
  have h2 : Keeps s₀ s2 := h1.contractSees _
  have h3 : Keeps s₀ s3 := .ite (h2.idleTo _ _) h2
  have h4 : Keeps s₀ s4 := hs.modTr _ _
  have h5 : Keeps s₀ s5 := .ite (Keeps.ite (Keeps.ite h3 (h3.trellisEvent _ _ _)) hs) (Keeps.ite (h4.modTr _ _) h4)
  split
  · exact hs
  · split
    · split
      · exact h5.modTr _ _
      · exact .ite ((((h5.modTr _ _).trellisEvent _ _ _).contractSees _).askPark _ _) h5
    · exact h5.modTr _ _
theorem Keeps.warm (hs : Keeps s₀ s) : Keeps s₀ (s.warm) := by
  unfold State.warm
  extract_lets s1
  have h1 : Keeps s₀ s1 := (hs.setAlert _).contractSees _
  split
  · split
    · exact (h1.modTrellis _).trellisEvent _ _ _
    · exact .ite (h1.modTrellis _) h1
  · exact (hs.modTrellis _).setAlert _
theorem Keeps.endContract (hs : Keeps s₀ s) (c : Contract) (state reason : Nat) : Keeps s₀ (s.endContract c state reason) := hs.modTrellis _
theorem Keeps.sampleContract (hs : Keeps s₀ s) (power : Nat) (lessee : Bool) : Keeps s₀ (s.sampleContract power lessee).1 := by
  unfold State.sampleContract
  split
  · exact (hs.modTrellis _).pair
  · exact hs.pair
theorem Keeps.closeContract (hs : Keeps s₀ s) (lessee : Bool) : Keeps s₀ (s.closeContract lessee) := by
  unfold State.closeContract
  split
  · exact .ite ((hs.endContract _ _ _).trellisEvent _ _ _) hs
  · exact hs
theorem Keeps.sendSwitch (hs : Keeps s₀ s) (p f : Nat) (count : Option Nat) : Keeps s₀ (s.sendSwitch p f count) := by
  unfold State.sendSwitch
  extract_lets _ _ _
  exact .foldl _ _ (hs.modTr _ _) (fun _ _ => (Keeps.refl _).clockSwitch _ _)
theorem Keeps.orderSwitch (hs : Keeps s₀ s) (p f : Nat) : Keeps s₀ (s.orderSwitch p f) :=
  .ite hs (Keeps.ite ((Keeps.foldl _ _ hs (fun _ _ => (Keeps.refl _).vfabTo _ _)).modTr _ _) (hs.sendSwitch _ _ _))
theorem Keeps.risen (hs : Keeps s₀ s) (p : Nat) : Keeps s₀ (s.risen p) := by
  unfold State.risen
  extract_lets _ _ s1
  have h1 : Keeps s₀ s1 := hs.write
  split
  · split
    · exact hs
    · split
      · exact .ite ((h1.modTr _ _).settleVolts _) (hs.sendSwitch _ _ _)
      · exact hs.sendSwitch _ _ _
  · exact hs
theorem Keeps.dropRise (hs : Keeps s₀ s) (p f : Nat) : Keeps s₀ (s.dropRise p f) := by
  unfold State.dropRise
  split
  · exact .ite ((hs.modTr _ _).settleVolts _) hs
  · exact hs
theorem Keeps.lever (hs : Keeps s₀ s) (climbing boundary : Bool) (next cap : Nat) (l : ShareLine) : Keeps s₀ (s.lever climbing boundary next cap l) := by
  unfold State.lever
  extract_lets _ _ _ _ _ _ _ s1 s2 _ _ _
  have h1 : Keeps s₀ s1 := hs.modTr _ _
  have h2 : Keeps s₀ s2 := h1.dropRise _ _
  exact .ite (Keeps.ite (hs.orderSwitch _ _) hs) (Keeps.ite (h2.orderSwitch _ _) (Keeps.ite (Keeps.ite h2 (h2.risen _)) (Keeps.ite ((h2.orderSwitch _ _).risen _) h2)))
theorem Keeps.parkToFit (hs : Keeps s₀ s) : Keeps s₀ (s.parkToFit) := by
  unfold State.parkToFit
  extract_lets s1
  have h1 : Keeps s₀ s1 := .foldl _ _ hs (fun _ _ => .ite (Keeps.refl _) ((Keeps.refl _).askPark _ _))
  exact .ite (Keeps.foldl _ _ h1 (fun _ _ => .ite ((Keeps.refl _).askPark _ _) (Keeps.refl _))) h1
theorem Keeps.resumeFitting (hs : Keeps s₀ s) : Keeps s₀ (s.resumeFitting) := by
  unfold State.resumeFitting
  extract_lets _
  split
  · exact hs
  · refine .foldl _ _ hs ?_
    intro u _
    extract_lets s1
    have h1 : Keeps u s1.1 := (Keeps.refl _).resumeParcel _ _
    exact .ite (h1.resumeDone _ _) (Keeps.refl _)
theorem execTrellisControlLoop_keeps (s : State) (t : TrellisInputs) : KeepsOut s (execTrellisControlLoop t s) := by
  unfold Machine.execTrellisControlLoop
  extract_lets s1 s2 s3 s4 s5 _ _ _ _ s6 s7 s8
  have h1 : Keeps s s1 := ((Keeps.refl _).measure _).staleEvents
  have h2 : Keeps s s2 := (Keeps.foldl _ _ h1 (fun _ _ => ((Keeps.refl _).thermal _).occSample _)).warm
  have h3 : Keeps s s3.1 := h2.sampleContract _ _
  have h4 : Keeps s s4.1 := h3.sampleContract _ _
  have h5 : Keeps s s5 := h4
  have h6 : Keeps s s6 := h5.parkToFit
  have h7 : Keeps s s7 := .foldl _ _ h6 (fun _ _ => (Keeps.refl _).lever _ _ _ _ _)
  have h8 : Keeps s s8 := .ite h7 h7.resumeFitting
  exact .next (Keeps.ite (Keeps.refl _) (Keeps.ite (((Keeps.refl _).modTrellis _).trellisEvent _ _ _) ((h8.closeContract _).closeContract _)))
theorem Keeps.trellisFails (hs : Keeps s₀ s) : Keeps s₀ (s.trellisFails) :=
  .foldl _ _ (((hs.modTrellis _).setAlert _).report _) (fun _ _ => .ite ((Keeps.refl _).askPark _ _) (Keeps.refl _))
theorem execTrellisReload_keeps (s : State) : KeepsOut s (execTrellisReload s) := by
  unfold Machine.execTrellisReload
  extract_lets _ s1
  have h1 : Keeps s s1 := (Keeps.refl _).modTrellis _
  exact .next (Keeps.ite (Keeps.refl _) (Keeps.ite h1.trellisFails h1))
theorem Keeps.stepDown (hs : Keeps s₀ s) (p : Nat) : Keeps s₀ (s.stepDown p).1 := by
  unfold State.stepDown
  extract_lets _ _ _ _ _ s1
  have h1 : Keeps s₀ s1 := by
    unfold s1
    refine .foldl _ _ hs ?_
    intro u _
    split
    · exact (Keeps.refl _).clockCancel _ _
    · exact Keeps.refl _
  exact .iteFst hs.pair (Keeps.iteFst hs.pair (Keeps.iteFst (((h1.modTr _ _).orderSwitch _ _).pair) hs.pair))
theorem Keeps.scaleLearned (hs : Keeps s₀ s) (p : Nat) : Keeps s₀ (s.scaleLearned p) := by
  unfold State.scaleLearned
  extract_lets _ _ _ _
  exact hs.modTr _ _
theorem Keeps.overshoot (hs : Keeps s₀ s) : Keeps s₀ s.overshoot := by
  unfold State.overshoot
  extract_lets first r s1
  have hr : Keeps s₀ r.1 := hs.foldl_pair _ _ (fun u _ => Keeps.stepDown (.refl u.1) _)
  have h1 : Keeps s₀ s1 := .ite ((Keeps.foldl _ _ hr (fun u _ => Keeps.scaleLearned (.refl u) _)).trellisEvent _ _ _) hr
  exact .ite (h1.modTrellis _) h1
theorem execForecastPublish_keeps (s : State) : KeepsOut s (execForecastPublish s) := by
  unfold Machine.execForecastPublish
  extract_lets _ _ s1 s2 _ _ s3 _
  have h1 : Keeps s s1 := (Keeps.refl _).modTrellis _
  have h2 : Keeps s s2 := .ite h1.overshoot h1
  have h3 : Keeps s s3 := by
    unfold s3
    split
    · exact h2.modTrellis _
    · exact h2
  exact .next (Keeps.ite (Keeps.refl _) (h3.modTrellis _))
theorem execPhaseLearn_keeps (s : State) (parcel : Nat) : KeepsOut s (execPhaseLearn parcel s) := by
  unfold Machine.execPhaseLearn
  extract_lets _ s1
  have h1 : Keeps s s1 := (Keeps.refl _).modTr _ _
  split
  · exact .refused
  · refine .next ?_
    split
    · extract_lets _ _
      exact .ite h1 (h1.modTr _ _)
    · exact Keeps.refl _
theorem execCrushHint_keeps (s : State) (parcel : Nat) (phase : BitVec 8) (count : Nat) : KeepsOut s (execCrushHint parcel phase count s) := by
  unfold Machine.execCrushHint
  extract_lets _ _ _ _ _ s1 _ _ s2
  have h1 : Keeps s s1 := (Keeps.refl _).modTr _ _
  have h2 : Keeps s s2 := .ite (Keeps.ite (Keeps.foldl _ _ h1 (fun _ _ => (Keeps.refl _).clockSwitch _ _)) h1) h1
  split
  · exact .refused
  · refine .next ?_
    split
    · exact Keeps.refl _
    · exact .foldl _ _ h2 (fun _ _ => ((Keeps.refl _).modField _ _).retarget _)
theorem execLeaseExpired_keeps (s : State) : KeepsOut s (execLeaseExpired s) := by
  unfold Machine.execLeaseExpired
  refine .next ?_
  split
  · exact ((Keeps.refl _).modTrellis _).trellisEvent _ _ _
  · exact Keeps.refl _
theorem execContractMissed_keeps (s : State) (lessee : Bool) : KeepsOut s (execContractMissed lessee s) := by
  unfold Machine.execContractMissed
  refine .next ?_
  split
  · exact ((Keeps.refl _).endContract _ _ _).trellisEvent _ _ _
  · exact Keeps.refl _

/- The operations of Machine/Flags. -/
theorem Keeps.modPrt (hs : Keeps s₀ s) (f : Prt → Prt) : Keeps s₀ (s.modPrt f) := hs.write

/- The operations of Machine/Requests. -/
theorem Keeps.strayWrite (hs : Keeps s₀ s) (p : Nat) : Keeps s₀ (s.strayWrite p) := hs.modPort _ _
theorem Keeps.takeSlot (hs : Keeps s₀ s) (p n : Nat) : Keeps s₀ (s.takeSlot p n).1 := .iteFst ((hs.strayWrite _).pair) ((hs.modPort _ _).pair)
theorem Keeps.effect (hs : Keeps s₀ s) (rq : Requester) (m : MsgInfo) (parcel : Nat) (h : Handler) (hh : ∀ u, Keeps u (h u).1) : Keeps s₀ (s.effect rq m parcel h).1 :=
  .iteFst hs.pair (hs.trans (hh _))
theorem Keeps.serve (hs : Keeps s₀ s) (rq : Requester) (m : MsgInfo) (parcel : Nat) (h : Handler) (hh : ∀ u, Keeps u (h u).1) : Keeps s₀ (s.serve rq m parcel h) := by
  unfold State.serve
  extract_lets _ s1
  have h1 : Keeps s₀ s1.1 := hs.effect _ _ _ _ (fun _ => (Keeps.refl _).trans (hh _))
  split
  · exact h1.answer _ _ _ _ _
  · exact h1
theorem Keeps.holdReq (hs : Keeps s₀ s) (port slot : Option Nat) (keys : List Nat) (now : Bool) (i : Instr) : Keeps s₀ (s.holdReq port slot keys now i) := hs.write
theorem State.deliver_keeps (s : State) (rq : Requester) (m : MsgInfo) (parcel : Nat) (i : Instr) (f : State → State) (hf : ∀ u, Keeps u (f u)) :
    KeepsOut s (s.deliver rq m parcel i f) := by
  unfold State.deliver
  extract_lets _ _
  split
  · exact .refused
  · refine .next ?_
    split
    · extract_lets s1
      have h1 : Keeps s s1.1 := (Keeps.refl _).takeSlot _ _
      exact .ite (Keeps.refl _) (Keeps.ite ((Keeps.refl _).holdWrite _ _) (Keeps.ite h1 (Keeps.ite (h1.holdReq _ _ _ _ _) (h1.trans (hf _)))))
    · exact .ite ((Keeps.refl _).trans (hf _)) (Keeps.refl _)
    · exact .ite (Keeps.refl _) (Keeps.ite ((Keeps.refl _).holdReq _ _ _ _ _) ((Keeps.refl _).trans (hf _)))
theorem State.request_keeps (s : State) (rq : Requester) (m : MsgInfo) (parcel : Nat) (h : Handler) (i : Instr) (hh : ∀ u, Keeps u (h u).1) :
    KeepsOut s (s.request rq m parcel h i) :=
  State.deliver_keeps _ _ _ _ _ _ (fun _ => (Keeps.refl _).serve _ _ _ _ (fun _ => (Keeps.refl _).trans (hh _)))
theorem Keeps.gwWrite (hs : Keeps s₀ s) {c off : Nat} {data : Bytes} {landNow : Bool} {beats : List Ecc} {t : State} (ht : s.gwWrite c off data landNow beats = some t) :
    Keeps s₀ t := by
  unfold State.gwWrite at ht
  split at ht
  · split at ht
    · cases ht
      exact .ite ((((hs.touchRegion _ _).modCask _ _ (fun k => k.putBytes_mem _ _ _)).gwBeats _ _ _ _ _).landed _ _ _)
        (((hs.touchRegion _ _).modCask _ _ (fun k => k.putBytes_mem _ _ _)).gwBeats _ _ _ _ _)
    · cases ht
  · cases ht
theorem Keeps.segIn (hs : Keeps s₀ s) (p : Nat) (e : CutEntry) : Keeps s₀ (s.segIn p e).1 := by
  unfold State.segIn
  refine .iteFst hs (.iteFst hs ?_)
  split
  · exact hs
  · split
    · next ht => exact hs.gwWrite ht
    · exact (hs.gwRefused _).pair
theorem Keeps.segOut (hs : Keeps s₀ s) (port p : Nat) (e : CutEntry) : Keeps s₀ (s.segOut port p e).1 := by
  unfold State.segOut
  split
  · exact hs.pair
  · split
    · exact hs.pair
    · split
      · exact hs.pair
      · split
        · exact (hs.emitPort _ _).pair
        · exact hs.pair
theorem Keeps.entry {r : CutRun} (hr : Keeps s₀ r.s) (e : CutEntry) {f : State → State × Nat × Nat} (hf : ∀ u, Keeps u (f u).1) : Keeps s₀ (r.entry e f).s := by
  unfold CutRun.entry
  split
  · exact hr
  · extract_lets y x
    have hy : Keeps s₀ y.1 := hr.trans (hf _)
    exact .iteFst hy (hy.emitPort _ _).pair
theorem Keeps.CutRun_start (hs : Keeps s₀ s) (port : Nat) : Keeps s₀ (CutRun.start s port).s := hs
theorem Keeps.outGo {r : CutRun} (hr : Keeps s₀ r.s) (es : List CutEntry) (bs : Bytes) : Keeps s₀ (outGo es bs r).s := by
  induction es generalizing bs r with
  | nil => exact hr
  | cons e es ih => exact ih (hr.entry e (fun u => .iteFst (.refl u) (.iteFst (.refl u) (Keeps.emitPort (.refl u) _ _).pair))) _
theorem Keeps.streamOut (hs : Keeps s₀ s) (port : Nat) (es : List CutEntry) (bs : Bytes) : Keeps s₀ (s.streamOut port es bs).s := by
  unfold State.streamOut
  extract_lets s1
  have h1 : Keeps s₀ s1.s := hs.CutRun_start _
  split
  · exact h1
  · exact (hs.CutRun_start _).outGo _ _
theorem Keeps.inGo (es : List CutEntry) (r : CutRun × Bytes) (hr : Keeps s₀ r.1.s) : Keeps s₀ (inGo es r).1.s := by
  induction es generalizing r with
  | nil => exact hr
  | cons e es ih => exact ih _ (hr.entry e (fun u => .refl u))

/- The operations of Machine/Parcels. -/
theorem Keeps.hSysInfo (hs : Keeps s₀ s) : Keeps s₀ (hSysInfo s).1 := hs.replies
theorem Keeps.movePrincipal (hs : Keeps s₀ s) (p : Nat) : Keeps s₀ (s.movePrincipal p) := ((hs.modRaising _).modTrellis _).eventAll _
theorem Keeps.hPrincipalMove (hs : Keeps s₀ s) (newPort : Nat) (nonce : Bytes) (keyId sigR sigS : Nat) :
    Keeps s₀ (hPrincipalMove newPort nonce keyId sigR sigS s).1 := by
  unfold Machine.hPrincipalMove
  extract_lets fresh _ s1 key signed
  have h1 : Keeps s₀ s1 := hs.writeSeal
  exact .iteFst h1.refuses (.iteFst h1.refuses (.iteFst h1.refuses (h1.movePrincipal _).replies))
theorem Keeps.hCreate (hs : Keeps s₀ s) (parcel owner c0 r0 w h : Nat) (taps : BitVec 8) (found : List FieldFindings) :
    Keeps s₀ (hCreate parcel owner c0 r0 w h taps found s).1 := by
  unfold Machine.hCreate
  extract_lets _ _ s1 _ s2
  have h1 : Keeps s₀ s1 := (hs.setParcel _ _).setPState _ _
  have h2 : Keeps s₀ s2 := h1.bringUpAll _ _
  split
  · exact hs.refuses
  · split
    · exact hs.refuses
    · split
      · exact (((h2.parkAgain _).setPState _ _).setParcel _ _).refuses
      · exact (h2.setPState _ _).replies
theorem Keeps.dropPages (hs : Keeps s₀ s) (p : Nat) : Keeps s₀ (s.dropPages p) := .foldl _ _ hs (fun _ _ => (Keeps.refl _).modPort _ _)
theorem Keeps.hDelete (hs : Keeps s₀ s) (p : Nat) : Keeps s₀ (hDelete p s).1 := by
  unfold Machine.hDelete
  extract_lets q s1 s2 _ _ s3 s4
  have h1 : Keeps s₀ s1 := .foldl _ _ hs (fun u _ => Keeps.modCask (.refl u) _ _ (fun _ _ => rfl))
  have h2 : Keeps s₀ s2 := .foldl _ _ h1 (fun u _ => .ite (Keeps.fieldOff (.refl u) _ _) (.refl u))
  have h3 : Keeps s₀ s3 := .foldl _ _ h2 (fun u _ => .ite ((Keeps.tapDown (.refl u) _).modTap _ _) (.refl u))
  have h4 : Keeps s₀ s4 := ((h3.dropPages _).answerWaits _ _).setPState _ _
  exact .iteFst hs.refuses (h4.setParcel _ _).replies
theorem Keeps.hAssign (hs : Keeps s₀ s) (p owner : Nat) : Keeps s₀ (hAssign p owner s).1 := .iteFst hs.refuses (((hs.dropPages _).modParcel _ _).replies)
theorem Keeps.hPark (hs : Keeps s₀ s) (rq : Requester) (p : Nat) : Keeps s₀ (hPark rq p s).1 := .iteFst (((hs.await _ _ _ _).askPark _ _).pair) hs.refuses
theorem Keeps.hResume (hs : Keeps s₀ s) (p : Nat) (found : List FieldFindings) : Keeps s₀ (hResume p found s).1 := by
  unfold Machine.hResume
  extract_lets s1
  have h1 : Keeps s₀ s1.1 := hs.resumeParcel _ _
  exact .iteFst hs.refuses (Keeps.iteFst hs.refuses h1.replies)
theorem Keeps.hUnload (hs : Keeps s₀ s) (p : Nat) : Keeps s₀ (hUnload p s).1 := by
  unfold Machine.hUnload
  extract_lets _ s1
  have h1 : Keeps s₀ s1 := (hs.clearResident _).modParcel _ _
  exact .iteFst hs.refuses (Keeps.iteFst hs.refuses ((Keeps.foldl _ _ h1 (fun _ _ => (Keeps.refl _).modCask _ _)).replies))
theorem Keeps.hImageInfo (hs : Keeps s₀ s) (rq : Requester) (p : Nat) (cut : Option CutEntry) : Keeps s₀ (hImageInfo rq p cut s).1 := by
  unfold Machine.hImageInfo
  extract_lets _ _ _
  split
  · exact hs.refuses
  · split
    · exact .iteFst hs.replies hs.replies
    · exact (hs.streamOut _ _ _).pair

/- The operations of Machine/CazerCask. -/
theorem Keeps.hWindowSet (hs : Keeps s₀ s) (rq : Requester) (parcel page rcask gib : Nat) : Keeps s₀ (hWindowSet rq parcel page rcask gib s).1 :=
  .iteFst hs.refuses ((hs.modPort _ _).replies)
theorem Keeps.hWindowClear (hs : Keeps s₀ s) (rq : Requester) (parcel page : Nat) : Keeps s₀ (hWindowClear rq parcel page s).1 := .iteFst hs.refuses ((hs.modPort _ _).replies)
theorem Keeps.closeRegion (hs : Keeps s₀ s) (c : Nat) (r : Region) : Keeps s₀ (s.closeRegion c r) := hs.modCask _ _
theorem Keeps.hRegionClose (hs : Keeps s₀ s) (rq : Requester) (parcel rcask base : Nat) : Keeps s₀ (hRegionClose rq parcel rcask base s).1 := by
  unfold Machine.hRegionClose
  split
  · exact hs.refuses
  · split
    · exact hs.refuses
    · exact ((hs.closeRegion _ _).await _ _ _ _).pair
theorem execRegionDigestDone_keeps (s : State) (cask base : Nat) : KeepsOut s (execRegionDigestDone cask base s) := by
  unfold Machine.execRegionDigestDone
  extract_lets _
  split
  · exact .refused
  · refine .next ?_
    split
    · extract_lets _
      exact .ite ((Keeps.refl _).answerWaits _ _) (Keeps.ite (((Keeps.refl _).modCask _ _).answerWaits _ _) (((Keeps.refl _).modCask _ _).answerWaits _ _))
    · exact (Keeps.refl _).answerWaits _ _
theorem Keeps.hStaveFail (hs : Keeps s₀ s) (cask stave : Nat) : Keeps s₀ (hStaveFail cask stave s).1 := by
  unfold Machine.hStaveFail
  extract_lets _ s1
  have h1 : Keeps s₀ s1 := hs.staveFails _ _
  exact .iteFst hs.refuses (Keeps.iteFst h1.replies ((Keeps.ite (h1.report _) h1).refuses))
theorem Keeps.hCaskStatus (hs : Keeps s₀ s) (parcel cask : Nat) : Keeps s₀ (hCaskStatus parcel cask s).1 :=
  .iteFst (Keeps.iteFst hs.refuses hs.replies) (Keeps.iteFst hs.replies hs.refuses)
theorem execStaveFailing_keeps (s : State) (cask stave : Nat) (_cause : StaveCause) : KeepsOut s (execStaveFailing cask stave _cause s) := by
  unfold Machine.execStaveFailing
  split
  · exact .refused
  · exact .next ((Keeps.refl _).staveFails _ _)
theorem execStaveSpared_keeps (s : State) (cask : Nat) : KeepsOut s (execStaveSpared cask s) := by
  unfold Machine.execStaveSpared
  split
  · exact .refused
  · exact .next (Keeps.ite ((Keeps.refl _).staveSpared _) (Keeps.refl _))
theorem execRestStarved_keeps (s : State) (cask forced : Nat) (delays : Bool) : KeepsOut s (execRestStarved cask forced delays s) := by
  unfold Machine.execRestStarved
  extract_lets _ s1 _
  have h1 : Keeps s s1 := ((Keeps.refl _).modCask _ _).caskCount _ _ _
  split
  · exact .refused
  · exact .next (Keeps.ite (Keeps.refl _) (Keeps.ite h1 (h1.report _)))
theorem execVatRetentionScrub_keeps (s : State) (b : BayId) (ce ue : List Nat) : KeepsOut s (execVatRetentionScrub b ce ue s) := by
  unfold Machine.execVatRetentionScrub
  split
  · exact .refused
  · exact .next (Keeps.ite ((Keeps.refl _).modBay _ _) (Keeps.refl _))
theorem execPlanScrub_keeps (s : State) (b : BayId) (_ce _ue : Nat) : KeepsOut s (execPlanScrub b _ce _ue s) := by
  unfold Machine.execPlanScrub
  split
  · exact .refused
  · exact .next (Keeps.refl _)
theorem execPatrolScrub_keeps (s : State) (cask off : Nat) (err : PieceErr) : KeepsOut s (execPatrolScrub cask off err s) := by
  unfold Machine.execPatrolScrub
  split
  · exact .refused
  · refine .next ?_
    split
    · exact Keeps.refl _
    · split
      · exact ((Keeps.refl _).symbolCorrected _ _).caskCount _ _ _
      · exact Keeps.refl _
      · exact (Keeps.refl _).findingCounts _ _

/- The operations of Machine/ExportOps. -/
theorem Keeps.exportCut (hs : Keeps s₀ s) (rq : Option Requester) (cut : List CutEntry) (bs : Bytes) : Keeps s₀ (s.exportCut rq cut bs).1 := (hs.streamOut _ _ _).pair
theorem Keeps.exportsDue (hs : Keeps s₀ s) (p : Nat) : Keeps s₀ (s.exportsDue p) := by
  unfold State.exportsDue
  split
  · exact hs
  · extract_lets _ _ _ _ s1 s2
    have h1 : Keeps s₀ s1 := hs.write
    have h2 : Keeps s₀ s2 := by
      unfold s2
      refine .foldl _ _ h1 ?_
      intro u _
      extract_lets _ s3
      have h3 : Keeps u s3.1 := (Keeps.refl _).exportCut _ _ _
      exact .ite ((Keeps.refl _).cutDies _) (h3.answer _ _ _ _ _)
    exact h2.modParcel _ _
theorem Keeps.importCasks (hs : Keeps s₀ s) (p : Nat) (i : Import) : Keeps s₀ (s.importCasks p i) :=
  .foldl _ _ hs (fun u _ => Keeps.modCask (.refl u) _ _ (fun k => Cask.putBytes_mem { k with writes := [], journal := [] } _ _ _))
theorem Keeps.importRun (hs : Keeps s₀ s) (p : Nat) (m : Image) (i : Import) : Keeps s₀ (s.importRun p m i) := by
  unfold State.importRun
  extract_lets _ s1 s2
  have h1 : Keeps s₀ s1 := (hs.write.importCasks _ _).loadBays _ _
  have h2 : Keeps s₀ s2 := h1.modParcel _ _
  exact (h2.restoreVintage _ _ _).setPState _ _

/- The operations of Machine/Invocation. -/
theorem State.onParcel_keeps (s : State) (p : Nat) (f : State → State) (hf : ∀ u, Keeps u (f u)) : KeepsOut s (s.onParcel p f) := by
  unfold State.onParcel
  split
  · exact .next ((Keeps.refl _).trans (hf _))
  · exact .refused
theorem Keeps.nameDraws (hs : Keeps s₀ s) (p peg : Nat) : Keeps s₀ (s.nameDraws p peg) := hs.write
theorem Keeps.decidePeg (hs : Keeps s₀ s) (p : Nat) (i : Inv) (m : Image) (count : Nat) : Keeps s₀ (s.decidePeg p i m count) := by
  unfold State.decidePeg
  extract_lets _ _ _ s1 s2 _ s3
  have h1 : Keeps s₀ s1 := hs.modInv _ _
  have h2 : Keeps s₀ s2 := h1.emit _
  have h3 : Keeps s₀ s3 := .ite ((h2.nameDraws _ _).modInv _ _) h2
  exact .ite h1 (Keeps.ite (Keeps.foldl _ _ h2 (fun _ _ => (Keeps.refl _).lateCommand _ _)) (h3.modInv _ _))
theorem execStopDecision_keeps (s : State) (parcel : Nat) : KeepsOut s (execStopDecision parcel s) := by
  unfold Machine.execStopDecision
  refine State.onParcel_keeps _ _ _ ?_
  intro u
  split
  · split
    · exact .ite ((Keeps.refl _).decidePeg _ _ _ _) (Keeps.refl _)
    · exact Keeps.refl _
  · exact Keeps.refl _
theorem Keeps.xphase (hs : Keeps s₀ s) (p : Nat) : Keeps s₀ (s.xphase p) := by
  unfold State.xphase
  extract_lets _ _ _ _ _ _
  split
  · refine .foldl _ _ hs ?_
    intro u _
    extract_lets _ _ s1
    have h1 : Keeps u s1 := (Keeps.refl _).modSeam _ _
    exact .ite ((h1.modSeam _ _).report _) h1
  · exact hs
theorem execParcelStop_keeps (s : State) (parcel : Nat) : KeepsOut s (execParcelStop parcel s) := by
  unfold Machine.execParcelStop
  refine State.onParcel_keeps _ _ _ ?_
  intro u
  split
  · split
    · extract_lets s1 s2
      have h1 : Keeps u s1 := (Keeps.refl _).modInv _ _
      have h2 : Keeps u s2 := (Keeps.foldl _ _ h1 (fun _ _ => (Keeps.refl _).readsComplete _)).xphase _
      exact .ite (Keeps.ite (h2.endAndPark _ _ _) h2) (Keeps.refl _)
    · exact Keeps.refl _
  · exact Keeps.refl _
theorem execRestart_keeps (s : State) (parcel lead : Nat) : KeepsOut s (execRestart parcel lead s) := by
  unfold Machine.execRestart
  refine State.onParcel_keeps _ _ _ ?_
  intro u
  split
  · split
    · extract_lets _ _ _
      exact .ite (((Keeps.refl _).modInv _ _).emit _) (Keeps.refl _)
    · exact Keeps.refl _
  · exact Keeps.refl _
theorem execStopResume_keeps (s : State) (parcel : Nat) : KeepsOut s (execStopResume parcel s) := by
  unfold Machine.execStopResume
  refine State.onParcel_keeps _ _ _ ?_
  intro u
  split
  · split
    · extract_lets s1 s2 _ s3
      have h1 : Keeps u s1 := .foldl _ _ (Keeps.refl _) (fun _ _ => (Keeps.refl _).modBay _ _)
      have h2 : Keeps u s2 := h1.modInv _ _
      have h3 : Keeps u s3 := .ite h2.write h2
      exact .ite (h3.setPState _ _) (Keeps.refl _)
    · exact Keeps.refl _
  · exact Keeps.refl _
theorem execVintageValid_keeps (s : State) (parcel : Nat) : KeepsOut s (execVintageValid parcel s) := by
  unfold execVintageValid
  refine State.onParcel_keeps _ _ _ (fun u => ?_)
  split
  · next i m _ _ =>
    split
    · next t _ =>
      refine .ite ?_ (.refl u)
      have h1 : Keeps u (u.settleData i).1 := Keeps.settleData (.refl u) _
      have h2 := h1.vintageDrawn parcel t { (((u.settleData i).1.parcel parcel).inv.getD i) with dfault := none } m
      exact .ite (h2.endAndPark _ _ _) (h2.exportsDue _)
    · exact .refl u
  · exact .refl u
theorem Keeps.parkFields (hs : Keeps s₀ s) (mask : BitVec 10) : Keeps s₀ (s.parkFields mask) := .foldl _ _ hs (fun _ _ => .ite ((Keeps.refl _).fieldOff _ _) (Keeps.refl _))
theorem execPark_keeps (s : State) (t : ParkTarget) : KeepsOut s (execPark t s) := by
  unfold Machine.execPark
  split
  · extract_lets s1
    have h1 : Keeps s s1.1 := (Keeps.refl _).raiseTake _ _ _ _
    refine .next ?_
    split
    · exact h1
    · exact (h1.parkFields _).raiseIdle
  · refine State.onParcel_keeps _ _ _ ?_
    intro u
    split
    · split
      · split
        · exact ((Keeps.refl _).modInv _ _).parkNow _ _
        · exact Keeps.refl _
      · exact Keeps.refl _
    · exact Keeps.refl _
theorem execInvocationStart_keeps (s : State) (parcel : Nat) : KeepsOut s (execInvocationStart parcel s) := by
  unfold Machine.execInvocationStart
  refine State.onParcel_keeps _ _ _ ?_
  intro u
  split
  · exact .ite ((Keeps.refl _).startInv _ _ _) (Keeps.refl _)
  · exact Keeps.refl _
theorem execInvocationComplete_keeps (s : State) (parcel : Nat) : KeepsOut s (execInvocationComplete parcel s) := by
  unfold execInvocationComplete
  refine State.onParcel_keeps _ _ _ (fun u => ?_)
  split
  · next i _ =>
    refine .ite ?_ (.refl u)
    have h1 : Keeps u ((u.settleBays parcel).settleData i).1 := (Keeps.settleBays (.refl u) _).settleData _
    extract_lets s0
    split
    next s1 b hs =>
    rw [hs] at h1
    extract_lets s2
    have h2 : Keeps u s2 := .foldl _ _ h1 (fun v _ => Keeps.modCask (.refl v) _ _ (fun k => k.commit_mem none))
    split
    · exact h2
    · split
      · exact h2.endAndPark _ _ _
      · exact (h2.modInv _ _).endAndPark _ _ _
  · exact .refl u
theorem execRollback_keeps (s : State) (parcel : Nat) (found : PathFinding) : KeepsOut s (execRollback parcel found s) := by
  unfold Machine.execRollback
  refine State.onParcel_keeps _ _ _ ?_
  intro u
  split
  · split
    · exact .ite ((Keeps.refl _).rollback _ _ _ _ _) (Keeps.refl _)
    · exact Keeps.refl _
  · exact Keeps.refl _
theorem Keeps.failAll (hs : Keeps s₀ s) (code unit idx : Nat) : Keeps s₀ (s.failAll code unit idx) :=
  .foldl _ _ hs (fun _ _ => .ite ((Keeps.refl _).modInv _ _) (Keeps.refl _))
theorem Keeps.pairFails (hs : Keeps s₀ s) (pair : Nat) : Keeps s₀ (s.pairFails pair) := by
  unfold State.pairFails
  extract_lets _ _ s1 s2 _ s3 s4
  have h1 : Keeps s₀ s1 := hs.write
  have h2 : Keeps s₀ s2 := (h1.report _).failAll _ _ _
  have h3 : Keeps s₀ s3 := h2.write
  have h4 : Keeps s₀ s4 := h3.report _
  exact .ite hs (Keeps.ite (Keeps.foldl _ _ h4 (fun _ _ => .ite ((Keeps.refl _).askPark _ _) (Keeps.refl _))) h2)
theorem execCmstLockstep_keeps (s : State) (pair : Nat) : KeepsOut s (execCmstLockstep pair s) := by
  unfold Machine.execCmstLockstep
  split
  · exact .refused
  · exact .next ((Keeps.refl _).pairFails _)
theorem Keeps.sealFails (hs : Keeps s₀ s) : Keeps s₀ s.sealFails := by
  unfold State.sealFails
  split
  · exact hs
  · have h1 : Keeps s₀ { s with sealU := { s.sealU with halted := true } } := hs.writeSeal
    exact (h1.report _).unsignLabels
theorem execEntropyHealthFail_keeps (s : State) : KeepsOut s (execEntropyHealthFail s) := by
  refine .next ?_
  split
  · exact .refl s
  · split
    · exact Keeps.writeSeal (.refl s)
    · have h1 : Keeps s { s with sealU := { s.sealU with entropyFails := s.sealU.entropyFails + 1, halted := true } } := Keeps.writeSeal (.refl s)
      exact (h1.report _).unsignLabels

/- The operations of Machine/CazerFault. -/
theorem Keeps.stressFails (hs : Keeps s₀ s) (unit : Nat) (found : SoundFinding) : Keeps s₀ (s.stressFails unit found) := by
  unfold State.stressFails
  split
  · exact .foldl _ _ hs (fun _ _ => .ite (Keeps.refl _) ((Keeps.refl _).retireSeam _))
  · exact .foldl _ _ hs (fun _ _ => (Keeps.refl _).caskFaulted _)
  · exact .foldl _ _ hs (fun _ _ => (Keeps.refl _).pairFails _)
  · exact hs.sealFails
  · exact hs.trellisFails
  · exact hs
theorem Keeps.hSoundRun (hs : Keeps s₀ s) (rq : Requester) (parcel : Nat) (f : SoundF) (found : SoundFinding) : Keeps s₀ (hSoundRun rq parcel f found s).1 := by
  unfold Machine.hSoundRun
  split
  · exact hs.refuses
  · split
    · exact hs.refuses
    · extract_lets _ s1
      have h1 : Keeps s₀ s1 := hs.soundRun _ _ _
      split
      · exact hs.refuses
      · split
        · exact hs.refuses
        · split
          · extract_lets s2
            have h2 : Keeps s₀ s2 := .ite hs (hs.stressFails _ _)
            exact .iteFst hs.refuses h2.replies
          · exact .iteFst hs.refuses (Keeps.iteFst ((hs.await _ _ _ _).pair) h1.replies)
theorem Keeps.hFaultLog (hs : Keeps s₀ s) (rq : Requester) (fromSeq max_ : Nat) (cut : Option CutEntry) : Keeps s₀ (hFaultLog rq fromSeq max_ cut s).1 := by
  unfold Machine.hFaultLog
  extract_lets _ _ _ _ _
  split
  · split
    · exact hs.refuses
    · split
      · exact hs.replies
      · exact (hs.streamOut _ _ _).replies
  · split
    · exact hs.refuses
    · split
      · exact hs.replies
      · exact (hs.streamOut _ _ _).replies
theorem Keeps.hFaultSummary (hs : Keeps s₀ s) : Keeps s₀ (hFaultSummary s).1 := hs.replies
theorem Keeps.hLogClear (hs : Keeps s₀ s) (cflag : Word) : Keeps s₀ (hLogClear cflag s).1 :=
  .iteFst hs.refuses (hs.writeLog (fun _ => FaultLog.empty_sound _ rfl)).replies
theorem Keeps.hFaultCounters (hs : Keeps s₀ s) (p unit x y idx : Nat) : Keeps s₀ (hFaultCounters p unit x y idx s).1 := by
  unfold Machine.hFaultCounters
  split
  · exact hs.replies
  · exact hs.refuses

/- The operations of Machine/CazerPower. -/
theorem Keeps.hCapSet (hs : Keeps s₀ s) (w : Nat) (pflag : Word) : Keeps s₀ (hCapSet w pflag s).1 := by
  unfold Machine.hCapSet
  extract_lets s1
  have h1 : Keeps s₀ s1 := hs.modTrellis _
  exact .iteFst hs.refuses (Keeps.iteFst hs.refuses h1.replies)
theorem Keeps.hShareSet (hs : Keeps s₀ s) (p weight floor : Nat) : Keeps s₀ (hShareSet p weight floor s).1 := .iteFst hs.refuses ((hs.modTr _ _).replies)
theorem Keeps.hLeaseSet (hs : Keeps s₀ s) (rq : Requester) (cap dur expiry : Nat) : Keeps s₀ (hLeaseSet rq cap dur expiry s).1 :=
  .iteFst hs.refuses (Keeps.iteFst hs.refuses ((hs.modTrellis _).replies))
theorem Keeps.newContract (hs : Keeps s₀ s) (lessee : Bool) (target rate deadline : Nat) : Keeps s₀ (s.newContract lessee target rate deadline) := by
  unfold State.newContract
  exact hs.modTrellis _
theorem Keeps.hContractSet (hs : Keeps s₀ s) (rq : Requester) (target rate deadline : Nat) : Keeps s₀ (hContractSet rq target rate deadline s).1 := by
  unfold Machine.hContractSet
  extract_lets _ _ _
  exact .iteFst hs.refuses (Keeps.iteFst hs.refuses ((hs.newContract _ _ _ _).replies))
theorem Keeps.hForecast (hs : Keeps s₀ s) : Keeps s₀ (hForecast s).1 := hs.replies
theorem Keeps.hPowerStatus (hs : Keeps s₀ s) : Keeps s₀ (hPowerStatus s).1 := hs.replies
theorem Keeps.hSidebandSet (hs : Keeps s₀ s) (eid : Nat) : Keeps s₀ (hSidebandSet eid s).1 := .iteFst hs.refuses ((hs.modTrellis _).replies)

/- The operations of Machine/CazerRun. -/
theorem Keeps.hRunStart (hs : Keeps s₀ s) (rq : Requester) (p : Nat) (key : BitVec 128) (digest : BitVec 384) : Keeps s₀ (hRunStart rq p key digest s).1 := by
  unfold Machine.hRunStart
  extract_lets _ _ _ s1
  have h1 : Keeps s₀ s1 := hs.modParcel _ _
  exact .iteFst hs.refuses (Keeps.iteFst h1.replies ((h1.await _ _ _ _).pair))
theorem Keeps.hRunAbort (hs : Keeps s₀ s) (p serial : Nat) : Keeps s₀ (hRunAbort p serial s).1 := by
  unfold Machine.hRunAbort
  split
  · extract_lets s1
    have h1 : Keeps s₀ s1 := hs.modInv _ _
    split
    · exact (Keeps.ite (h1.endAndPark _ _ _) h1).replies
    · split
      · exact .iteFst hs.replies hs.refuses
      · exact hs.refuses
  · split
    · exact .iteFst hs.replies hs.refuses
    · exact hs.refuses
theorem Keeps.hRunResult (hs : Keeps s₀ s) (p serial : Nat) : Keeps s₀ (hRunResult p serial s).1 := by
  unfold Machine.hRunResult
  split
  · exact hs.replies
  · exact hs.refuses
theorem Keeps.hVintageDraw (hs : Keeps s₀ s) (rq : Requester) (p : Nat) : Keeps s₀ (hVintageDraw rq p s).1 := .iteFst (((hs.await _ _ _ _).modInv _ _).pair) hs.refuses
theorem Keeps.openExport (hs : Keeps s₀ s) (rq : Requester) (p stream : Nat) (park : Bool) (bytes : Bytes) : Keeps s₀ (s.openExport rq p stream park bytes) := by
  unfold State.openExport
  extract_lets s1
  have h1 : Keeps s₀ s1.2 := hs.fresh
  split
  · exact hs
  · exact h1.modParcel _ _
theorem Keeps.hVintageExport (hs : Keeps s₀ s) (rq : Requester) (p : Nat) (vflag : BitVec 8) (stream : Nat) (cut : List CutEntry) :
    Keeps s₀ (hVintageExport rq p vflag stream cut s).1 := by
  unfold Machine.hVintageExport
  extract_lets _ _ _ s1 s2 s3
  have h1 : Keeps s₀ s1 := hs.modInv _ _
  have h2 : Keeps s₀ s2 := .ite ((h1.modParcel _ _).setPState _ _) h1
  have h3 : Keeps s₀ s3 := .ite (h2.openExport _ _ _ _ _) h2
  split
  · exact hs.refuses
  · split
    · exact hs.refuses
    · split
      · exact hs.refuses
      · split
        · exact hs.refuses
        · split
          · exact (h3.await _ _ _ _).pair
          · split
            · exact hs.refuses
            · extract_lets _ s4
              have h4 : Keeps s₀ s4.1 := hs.exportCut _ _ _
              exact .iteFst (((hs.openExport _ _ _ _ _).await _ _ _ _).pair) h4.replies
theorem Keeps.hVintageRestore (hs : Keeps s₀ s) (p : Nat) (stream : Bytes) : Keeps s₀ (hVintageRestore p stream s).1 := by
  unfold Machine.hVintageRestore
  extract_lets _ _
  split
  · exact hs.refuses
  · split
    · exact hs.refuses
    · split
      · exact hs.refuses
      · split
        · exact (hs.importRun _ _ _).replies
        · exact hs.refuses
theorem Keeps.hVintageStatus (hs : Keeps s₀ s) (p : Nat) : Keeps s₀ (hVintageStatus p s).1 := hs.replies

/- The operations of Machine/Clocks. -/
theorem State.onField_keeps (s : State) (f : Nat) (g : State → State) (hg : ∀ u, Keeps u (g u)) : KeepsOut s (s.onField f g) := by
  unfold State.onField
  split
  · exact .next ((Keeps.refl _).trans (hg _))
  · exact .refused
theorem State.onSeam_keeps (s : State) (n : Nat) (g : State → State) (hg : ∀ u, Keeps u (g u)) : KeepsOut s (s.onSeam n g) := by
  unfold State.onSeam
  split
  · exact .next ((Keeps.refl _).trans (hg _))
  · exact .refused
theorem Keeps.alignFails (hs : Keeps s₀ s) (f : Nat) : Keeps s₀ (s.alignFails f) := by
  unfold State.alignFails
  split
  · exact (hs.fieldOff _ _).modField _ _
  · exact (hs.fieldOff _ _).modField _ _
  · exact hs
theorem Keeps.alignRetry (hs : Keeps s₀ s) (n k : Nat) : Keeps s₀ (s.alignRetry n k) := .foldl _ _ hs (fun _ _ => (Keeps.refl _).modField _ _)
theorem execAlignCheck_keeps (s : State) (seam : Nat) (sigmas : List Int) : KeepsOut s (execAlignCheck seam sigmas s) := by
  unfold Machine.execAlignCheck
  refine State.onSeam_keeps _ _ _ ?_
  intro u
  extract_lets _ _ s1
  have h1 : Keeps u s1 := (Keeps.refl _).modSeam _ _
  split
  · split
    · exact Keeps.refl _
    · exact .ite ((Keeps.refl _).modSeam _ _) (Keeps.ite (h1.alignRetry _ _) (Keeps.foldl _ _ (h1.modSeam _ _) (fun _ _ => (Keeps.refl _).alignFails _)))
  · exact Keeps.refl _
theorem execSwitchUnlocked_keeps (s : State) (field : Nat) : KeepsOut s (execSwitchUnlocked field s) := by
  unfold Machine.execSwitchUnlocked
  refine State.onField_keeps _ _ _ ?_
  intro u
  split
  · extract_lets s1 s2
    have h1 : Keeps u s1 := (Keeps.refl _).modField _ _
    have h2 : Keeps u s2 := h1.report _
    exact .ite (Keeps.refl _) (Keeps.foldl _ _ h2 (fun _ _ => (Keeps.refl _).clockCancel _ _))
  · exact Keeps.refl _
theorem execSwitchAtCount_keeps (s : State) (field : Nat) : KeepsOut s (execSwitchAtCount field s) := by
  unfold Machine.execSwitchAtCount
  refine State.onField_keeps _ _ _ ?_
  intro u
  extract_lets _ _
  split
  · extract_lets s1
    have h1 : Keeps u s1 := .ite ((Keeps.refl _).stopRebase _) (Keeps.refl _)
    exact .ite (h1.setField _ _) (Keeps.refl _)
  · exact Keeps.refl _
theorem execSwitched_keeps (s : State) (field : Nat) : KeepsOut s (execSwitched field s) := by
  unfold Machine.execSwitched
  refine State.onField_keeps _ _ _ ?_
  intro u
  split
  · extract_lets s1 _
    have h1 : Keeps u s1 := ((Keeps.refl _).modField _ _).emit _
    exact .ite (Keeps.ite (h1.settleVolts _) h1) (Keeps.refl _)
  · exact Keeps.refl _
theorem Keeps.stretch (hs : Keeps s₀ s) (f i : Nat) : Keeps s₀ (s.stretch f i) := (hs.modField _ _).emit _
theorem execStretchLocal_keeps (s : State) (field : Nat) : KeepsOut s (execStretchLocal field s) :=
  State.onField_keeps _ _ _ (fun _ => .ite ((Keeps.refl _).stretch _ _) (Keeps.refl _))
theorem execStretchWave_keeps (s : State) (field : Nat) : KeepsOut s (execStretchWave field s) :=
  State.onField_keeps _ _ _ (fun _ => .ite ((Keeps.refl _).stretch _ _) (Keeps.refl _))
theorem execCrossingOverrun_keeps (s : State) (link : ScarfLink) (sigma : Int) : KeepsOut s (execCrossingOverrun link sigma s) := by
  unfold Machine.execCrossingOverrun
  split
  · refine State.onSeam_keeps _ _ _ ?_
    intro u
    extract_lets _ _ _ _
    exact .ite (((Keeps.refl _).modSeam _ _).report _) (Keeps.refl _)
  · exact .refused
theorem Keeps.refEvent (hs : Keeps s₀ s) (r : Nat) : Keeps s₀ (s.refEvent r) := (hs.report _).eventAll _
theorem Keeps.portRefLost (hs : Keeps s₀ s) (p : Nat) : Keeps s₀ (s.portRefLost p) := by
  unfold State.portRefLost
  exact (hs.write.portDown _).modPort _ _
theorem Keeps.relock (hs : Keeps s₀ s) : Keeps s₀ (s.relock) := by
  unfold State.relock
  extract_lets _
  exact .ite hs.write hs
theorem State.onPort_keeps (s : State) (p : Nat) (g : State → State) (hg : ∀ u, Keeps u (g u)) : KeepsOut s (s.onPort p g) := by
  unfold State.onPort
  split
  · exact .next ((Keeps.refl _).trans (hg _))
  · exact .refused
theorem State.barWrite_keeps (s : State) (p : Nat) (i : Instr) (g : State → State) (hg : ∀ u, Keeps u (g u)) : KeepsOut s (s.barWrite p i g) :=
  State.onPort_keeps _ _ _ (fun _ => .ite ((Keeps.refl _).holdWrite _ _) ((Keeps.refl _).trans (hg _)))
theorem execRefLoss_keeps (s : State) (r : Ref) : KeepsOut s (execRefLoss r s) := by
  unfold Machine.execRefLoss
  split
  · extract_lets _ s1 s2
    have h1 : Keeps s s1 := (Keeps.refl _).write
    have h2 : Keeps s s2 := h1.refEvent _
    exact .next (Keeps.ite (Keeps.refl _) (Keeps.foldl _ _ h2 (fun _ _ => .ite ((Keeps.refl _).askPark _ _) (Keeps.refl _))))
  · extract_lets _ s1
    have h1 : Keeps s s1 := (Keeps.refl _).write
    exact .next (Keeps.ite (Keeps.refl _) (Keeps.foldl _ _ (h1.refEvent _) (fun _ _ => (Keeps.refl _).tapDown _)))
  · exact State.onPort_keeps _ _ _ (fun _ => .ite (Keeps.refl _) (((Keeps.refl _).portRefLost _).refEvent _))
  · extract_lets _ s1
    have h1 : Keeps s s1 := (Keeps.refl _).write
    exact .next (Keeps.ite (Keeps.refl _) (Keeps.foldl _ _ (h1.refEvent _) (fun _ _ => .ite ((Keeps.refl _).portRefLost _) (Keeps.refl _))))
theorem execRefRestored_keeps (s : State) (r : Ref) : KeepsOut s (execRefRestored r s) := by
  unfold Machine.execRefRestored
  split
  · extract_lets _
    exact .next (Keeps.ite (((Keeps.refl _).write.relock).eventAll _) (Keeps.refl _))
  · extract_lets _
    exact .next (Keeps.ite ((Keeps.refl _).write.eventAll _) (Keeps.refl _))
  · exact State.onPort_keeps _ _ _ (fun _ => .ite (((Keeps.refl _).modPort _ _).eventAll _) (Keeps.refl _))
  · extract_lets _ s1
    have h1 : Keeps s s1 := (Keeps.refl _).write
    exact .next (Keeps.ite ((Keeps.foldl _ _ h1 (fun _ _ => .ite ((Keeps.refl _).modPort _ _) (Keeps.refl _))).eventAll _) (Keeps.refl _))
theorem execPtmExchange_keeps (s : State) (offsetNs : Int) : KeepsOut s (execPtmExchange offsetNs s) := by
  unfold Machine.execPtmExchange
  refine .next ?_
  split
  · extract_lets _ _
    split
    · exact Keeps.refl _
    · split
      · exact (Keeps.refl _).write.emit _
      · exact (((Keeps.refl _).fresh).write).emit _
  · exact Keeps.refl _

/- The operations of Machine/TapOps. -/
theorem Keeps.rackSend (hs : Keeps s₀ s) (f : RackOpenF) (type rflag : Nat) (session : DWord) (arg : Nat) (body : Bytes) : Keeps s₀ (s.rackSend f type rflag session arg body) := by
  unfold State.rackSend
  split
  · exact hs.sendUdp _ _ _ _ _ _
  · exact hs
theorem Keeps.modRack (hs : Keeps s₀ s) (p n : Nat) (g : Rack → Rack) : Keeps s₀ (s.modRack p n g) := hs.modParcel _ _
theorem Keeps.sendReadReq (hs : Keeps s₀ s) (r : Rack) (first count : Nat) : Keeps s₀ (s.sendReadReq r first count) := hs.rackSend _ _ _ _ _ _
theorem Keeps.sendCredit (hs : Keeps s₀ s) (p n : Nat) : Keeps s₀ (s.sendCredit p n) := by
  unfold State.sendCredit
  split
  · exact (hs.modRack _ _ _).rackSend _ _ _ _ _ _
  · exact hs
theorem Keeps.creditDue (hs : Keeps s₀ s) (p n : Nat) : Keeps s₀ (s.creditDue p n) := by
  unfold State.creditDue
  split
  · extract_lets _ s1
    have h1 : Keeps s₀ s1 := hs.modRack _ _ _
    exact .ite (h1.sendCredit _ _) h1
  · exact hs
theorem Keeps.rackFails (hs : Keeps s₀ s) (p n : Nat) : Keeps s₀ (s.rackFails p n) := hs.modRack _ _ _
theorem Keeps.closeCovered (hs : Keeps s₀ s) (p : Nat) (f : RackOpenF) : Keeps s₀ (s.closeCovered p f) := by
  unfold State.closeCovered
  split
  · split
    · exact .ite (hs.closeRegion _ _) hs
    · exact hs
  · exact hs
theorem Keeps.sendSack (hs : Keeps s₀ s) (p n : Nat) : Keeps s₀ (s.sendSack p n) := by
  unfold State.sendSack
  split
  · extract_lets s1 s2 s3
    have h1 : Keeps s₀ s1 := hs.rackSend _ _ _ _ _ _
    have h2 : Keeps s₀ s2 := by
      unfold s2
      split
      · exact .foldl _ _ h1 (fun _ _ => (Keeps.refl _).landed _ _ _)
      · exact h1
    have h3 : Keeps s₀ s3 := h2.modRack _ _ _
    exact .ite hs (Keeps.ite ((h3.modRack _ _ _).closeCovered _ _) h3)
  · exact hs
theorem Keeps.rerequest (hs : Keeps s₀ s) (p n k : Nat) : Keeps s₀ (s.rerequest p n k) := by
  unfold State.rerequest
  split
  · extract_lets s1
    have h1 : Keeps s₀ s1 := hs.modRack _ _ _
    exact .ite hs (Keeps.ite (hs.rackFails _ _) (h1.sendReadReq _ _ _))
  · exact hs
theorem Keeps.linkRerequest (hs : Keeps s₀ s) (t u : Nat) : Keeps s₀ (s.linkRerequest t u) :=
  .foldl _ _ hs (fun _ _ => .foldl _ _ (Keeps.refl _) (fun _ _ => .ite (Keeps.foldl _ _ (Keeps.refl _) (fun _ _ => (Keeps.refl _).rerequest _ _ _)) (Keeps.refl _)))
theorem Keeps.rackCrcError (hs : Keeps s₀ s) (a0 : RackTo) : Keeps s₀ (s.rackCrcError a0) := by
  unfold State.rackCrcError
  split
  · exact hs.modRack _ _ _
  · exact hs
theorem State.rackIn_keeps (s : State) (a : PeerAddr) (h : RackHdr) (type : Nat) (f : RackTo → State → State) (hf : ∀ a0 u, Keeps u (f a0 u)) :
    KeepsOut s (s.rackIn a h type f) := by
  unfold State.rackIn
  split
  · exact .refused
  · refine .next ?_
    split
    · exact Keeps.refl _
    · split
      · split
        · exact (Keeps.refl _).rackCrcError _
        · exact (Keeps.refl _).rxDiscard _ _
      · split
        · exact (Keeps.refl _).rxDiscard _ _
        · split
          · exact (Keeps.refl _).trans (hf _ _)
          · exact (Keeps.refl _).rxDiscard _ _
theorem Keeps.modExport (hs : Keeps s₀ s) (p : Nat) (g : Export → Export) : Keeps s₀ (s.modExport p g) := hs.modParcel _ _
theorem Keeps.exportPump (hs : Keeps s₀ s) (p : Nat) : Keeps s₀ (s.exportPump p) := by
  unfold State.exportPump
  split
  · extract_lets _ s1 _
    have h1 : Keeps s₀ s1 := hs.modExport _ _
    split
    · exact .foldl _ _ h1 (fun _ _ => (Keeps.refl _).sendUdp _ _ _ _ _ _)
    · exact h1
  · exact hs
theorem Keeps.exportOver (hs : Keeps s₀ s) (p : Nat) (a : Ans) : Keeps s₀ (s.exportOver p a) := by
  unfold State.exportOver
  split
  · exact (hs.modParcel _ _).answerWaits _ _
  · exact hs
theorem Keeps.sendOffer (hs : Keeps s₀ s) (p : Nat) : Keeps s₀ (s.sendOffer p) := by
  unfold State.sendOffer
  split
  · exact (hs.modExport _ _).rackSend _ _ _ _ _ _
  · exact hs

/- The operations of Machine/Pour. -/
theorem Keeps.clearMap (hs : Keeps s₀ s) (p : Nat) : Keeps s₀ (s.clearMap p) := by
  unfold State.clearMap
  split
  · exact hs.pourWrite _ _ _
  · exact hs
theorem Keeps.hPourStart (hs : Keeps s₀ s) (p port maxSeq : Nat) (taps : BitVec 8) : Keeps s₀ (hPourStart p port maxSeq taps s).1 := by
  unfold Machine.hPourStart
  extract_lets _ _
  exact .iteFst hs.refuses (((hs.modParcel _ _).clearMap _).replies)
theorem Keeps.pourDrain (hs : Keeps s₀ s) (p : Nat) : Keeps s₀ (s.pourDrain p) := by
  unfold State.pourDrain
  extract_lets _ _ s1
  have h1 : Keeps s₀ s1 := .foldl _ _ hs (fun _ _ => (Keeps.refl _).pourRefuse _ _ _ _ _)
  exact h1.setPour _ _
theorem Keeps.pourSettle (hs : Keeps s₀ s) (p : Nat) : Keeps s₀ (s.pourSettle p) := .ite hs (Keeps.ite ((hs.pourEndAll _ _).pourOver _) (Keeps.ite (hs.pourOver _) hs))
theorem Keeps.hPourStop (hs : Keeps s₀ s) (rq : Requester) (p : Nat) (sflag : BitVec 8) : Keeps s₀ (hPourStop rq p sflag s).1 := by
  unfold Machine.hPourStop
  extract_lets _ s1 s2
  have h1 : Keeps s₀ s1 := hs.await _ _ _ _
  have h2 : Keeps s₀ s2 := by
    unfold s2
    split
    · exact h1.pourDrain _
    · exact h1.modParcel _ _
  exact .iteFst hs.refuses (Keeps.iteFst hs.refuses ((h2.pourSettle _).pair))
theorem Keeps.pourQueue (hs : Keeps s₀ s) (p id : Nat) : Keeps s₀ (s.pourQueue p id) := by
  unfold State.pourQueue
  extract_lets _ _
  split
  · extract_lets s1
    have h1 : Keeps s₀ s1 := hs.setPour _ _
    exact .ite (h1.pourSend _ _ _ _) hs
  · exact hs
theorem Keeps.pourRequest (hs : Keeps s₀ s) (p : Nat) (d : PourDecl) (src : PourSource) (f : PFrame) : Keeps s₀ (s.pourRequest p d src f).1 :=
  .iteFst ((hs.pourRefuse _ _ _ _ _).pair) (((hs.setPour _ _).pourQueue _ _).pair)
theorem Keeps.pourAppend (hs : Keeps s₀ s) (p : Nat) (d : PourDecl) (src : PourSource) (f : PFrame) : Keeps s₀ (s.pourAppend p d src f).1 := by
  unfold State.pourAppend
  extract_lets _ _ _ s1
  have h1 : Keeps s₀ s1 := hs.modParcel _ _
  exact .iteFst ((hs.pourRefuse _ _ _ _ _).pair) ((h1.pourQueue _ _).pair)
theorem Keeps.pourCancelSeq (hs : Keeps s₀ s) (p : Nat) (q : PourSeq) : Keeps s₀ (s.pourCancelSeq p q) := .ite (hs.modParcel _ _) ((hs.pourEnd _ _ _ _).pourSettle _)
theorem Keeps.pourCancelFrame (hs : Keeps s₀ s) (p : Nat) (src : PourSource) (f : PFrame) : Keeps s₀ (s.pourCancelFrame p src f).1 := by
  unfold State.pourCancelFrame
  split
  · exact (hs.pourRefuse _ _ _ _ _).pair
  · split
    · exact (hs.pourRefuse _ _ _ _ _).pair
    · exact .iteFst ((hs.pourRefuse _ _ _ _ _).pair) ((hs.pourCancelSeq _ _).pair)
theorem Keeps.pourFetch (hs : Keeps s₀ s) (p : Nat) (src : PourSource) (f : PFrame) : Keeps s₀ (s.pourFetch p src f).1 := by
  unfold State.pourFetch
  extract_lets _ _
  split
  · exact (hs.pourRefuse _ _ _ _ _).pair
  · split
    · exact (hs.pourRefuse _ _ _ _ _).pair
    · split
      · exact (hs.pourRefuse _ _ _ _ _).pair
      · extract_lets _ _
        exact .iteFst ((hs.pourRefuse _ _ _ _ _).pair) ((hs.pourSend _ _ _ _).pair)
theorem Keeps.pourDiscard (hs : Keeps s₀ s) (a0 : PourSource) : Keeps s₀ (s.pourDiscard a0) := by
  unfold State.pourDiscard
  split
  · exact hs.rxDiscard _ _
  · exact hs
theorem Keeps.pourIn (hs : Keeps s₀ s) (p : Nat) (src : PourSource) (frame : Bytes) (only : Option Nat) : Keeps s₀ (s.pourIn p src frame only).1 := by
  unfold State.pourIn
  split
  · split
    · exact (hs.pourDiscard _).pair
    · split
      · exact hs.pourRequest _ _ _ _
      · exact .iteFst (hs.pourAppend _ _ _ _) (Keeps.iteFst (hs.pourCancelFrame _ _ _) (Keeps.iteFst (hs.pourFetch _ _ _) ((hs.pourDiscard _).pair)))
  · exact (hs.pourDiscard _).pair
theorem State.pourFrameRow_keeps (s : State) (p : Nat) (src : PourSource) (frame : Bytes) (type : Nat) : KeepsOut s (s.pourFrameRow p src frame type) := by
  unfold State.pourFrameRow
  split
  · exact .refused
  · exact .next (Keeps.ite ((Keeps.refl _).pourIn _ _ _ _) (Keeps.refl _))
theorem Keeps.hPourSubmit (hs : Keeps s₀ s) (rq : Requester) (p : Nat) (frames : Bytes) : Keeps s₀ (hPourSubmit rq p frames s).1 := by
  unfold Machine.hPourSubmit
  extract_lets src r
  have hr : Keeps s₀ r.1 := by
    refine hs.foldl_pair _ _ ?_
    intro u f
    extract_lets o
    have ho : Keeps u.1 o.1 := .iteFst (Keeps.pourIn (.refl u.1) _ _ _ _) (.refl u.1)
    exact .iteFst ho ho
  exact hr.replies
theorem Keeps.hPourCancel (hs : Keeps s₀ s) (rq : Requester) (p : Nat) (ids : List Nat) : Keeps s₀ (hPourCancel rq p ids s).1 := by
  unfold Machine.hPourCancel
  extract_lets _ s1
  have h1 : Keeps s₀ s1 := .foldl _ _ hs (fun _ _ => (Keeps.refl _).pourCancelSeq _ _)
  exact .iteFst hs.refuses (Keeps.iteFst ((h1.await _ _ _ _).pair) h1.replies)
theorem Keeps.hPourStatus (hs : Keeps s₀ s) (p : Nat) : Keeps s₀ (hPourStatus p s).1 := hs.replies
theorem Keeps.hPourLabel (hs : Keeps s₀ s) (p id : Nat) : Keeps s₀ (hPourLabel p id s).1 := by
  unfold Machine.hPourLabel
  split
  · exact hs.replies
  · exact hs.refuses
theorem execPourIncompleteTimeout_keeps (s : State) (parcel seqId : Nat) : KeepsOut s (execPourIncompleteTimeout parcel seqId s) := by
  unfold Machine.execPourIncompleteTimeout
  refine State.onParcel_keeps _ _ _ ?_
  intro u
  extract_lets _
  split
  · exact .ite (((Keeps.refl _).pourRefuse _ _ _ _ _).setPour _ _) (Keeps.refl _)
  · exact Keeps.refl _
theorem Keeps.pourStep (hs : Keeps s₀ s) (p : Nat) (d : PourDecl) (m : Image) : Keeps s₀ (s.pourStep p d m) := by
  unfold State.pourStep
  extract_lets _ _ _ s1 s2 s3 _ _
  have h1 : Keeps s₀ s1 := hs.setPour _ _
  have h2 : Keeps s₀ s2 := .ite (h1.eventOwner _ _) h1
  have h3 : Keeps s₀ s3 := h2.pourWrite _ _ _
  exact .ite hs (h3.startInv _ _ _)
theorem execPourStepStart_keeps (s : State) (parcel : Nat) : KeepsOut s (execPourStepStart parcel s) := by
  unfold Machine.execPourStepStart
  refine State.onParcel_keeps _ _ _ ?_
  intro u
  extract_lets _
  split
  · exact .ite ((Keeps.refl _).pourStep _ _ _) (Keeps.refl _)
  · exact Keeps.refl _
theorem Keeps.pourToken (hs : Keeps s₀ s) (p : Nat) (d : PourDecl) (m : Image) (q : PourSeq) (tok : Nat) : Keeps s₀ (s.pourToken p d m q tok) := by
  unfold State.pourToken
  extract_lets y x _ s1 s2 why l s3
  have h2 : Keeps s₀ s2 := (hs.modParcel _ _).pourSend _ _ _ _
  have h3 : Keeps s₀ s3 := h2.pourEnd _ _ _ _
  refine .ite h2 ?_
  cases l with
  | none => exact h3
  | some b => exact .ite h3 (h3.pourSend _ _ _ _)
theorem Keeps.pourAdvance (hs : Keeps s₀ s) (p : Nat) (d : PourDecl) (m : Image) (holds : Nat) (held : Bool) (id : Nat) : Keeps s₀ (s.pourAdvance p d m holds held id) := by
  unfold State.pourAdvance
  split
  · split
    · extract_lets _ s1
      have h1 : Keeps s₀ s1 := hs.modParcel _ _
      exact .ite (h1.pourToken _ _ _ _ _) h1
    · exact hs
  · exact hs
theorem Keeps.pourBoundary (hs : Keeps s₀ s) (p : Nat) (d : PourDecl) (m : Image) (holds : Nat) (held : Bool) : Keeps s₀ (s.pourBoundary p d m holds held) := by
  unfold State.pourBoundary
  extract_lets _ s1 s2 s3
  have h1 : Keeps s₀ s1 := .foldl _ _ hs (fun _ _ => (Keeps.refl _).pourAdvance _ _ _ _ _ _)
  have h2 : Keeps s₀ s2 := .foldl _ _ h1 (fun _ _ => (Keeps.refl _).pourEnd _ _ _ _)
  have h3 : Keeps s₀ s3 := h2.modParcel _ _
  exact (h3.answerCancels _ _).pourSettle _
theorem execPourStepEnd_keeps (s : State) (parcel : Nat) : KeepsOut s (execPourStepEnd parcel s) := by
  unfold execPourStepEnd
  refine State.onParcel_keeps _ _ _ (fun u => ?_)
  split
  · next i d m _ _ _ =>
    refine .ite ?_ (.refl u)
    have h1 : Keeps u ((u.settleBays parcel).settleData i).1 := (Keeps.settleBays (.refl u) _).settleData _
    extract_lets s0
    split
    next s1 b hs =>
    rw [hs] at h1
    extract_lets s2
    have h2 : Keeps u s2 := .foldl _ _ h1 (fun v _ => Keeps.modCask (.refl v) _ _ (fun k => k.commit_mem none))
    split
    · next j _ =>
      have h3 := (h2.endRun parcel 0 0).pourBoundary parcel d m j.holdCount (j.digestsHeld && s2.weightsValid parcel)
      exact .ite h2 (.ite (h3.parkNow _ _) h3)
    · exact h2
  · exact .refl u
theorem Keeps.signSeq (hs : Keeps s₀ s) (p id : Nat) : Keeps s₀ (s.signSeq p id) := by
  unfold State.signSeq
  split
  · exact (hs.modParcel _ _).pourSend _ _ _ _
  · exact hs
theorem execLabelSigned_keeps (s : State) : KeepsOut s (execLabelSigned s) := by
  unfold execLabelSigned
  extract_lets first
  refine .ite (.next (.refl s)) (.next ?_)
  rcases first with _ | ⟨w, p, pour, n⟩
  · exact .refl s
  · cases pour with
    | true => exact Keeps.signSeq (.refl s) _ _
    | false => exact (Keeps.modParcel (.refl s) _ _).eventOwner _ _

/- The operations of Machine/Tap. -/
theorem Keeps.hRackOpen (hs : Keeps s₀ s) (p : Nat) (f : RackOpenF) : Keeps s₀ (hRackOpen p f s).1 := by
  unfold Machine.hRackOpen
  split
  · exact hs.refuses
  · extract_lets s1 _ s2
    have h1 : Keeps s₀ s1.2 := hs.fresh
    have h2 : Keeps s₀ s2 := h1.modParcel _ _
    split
    · exact hs.refuses
    · exact .iteFst hs.refuses (Keeps.iteFst hs.refuses (Keeps.iteFst hs.refuses (Keeps.iteFst hs.refuses (((h2.sendReadReq _ _ _).sendCredit _ _).replies))))
theorem Keeps.hRackClose (hs : Keeps s₀ s) (p n : Nat) : Keeps s₀ (hRackClose p n s).1 := by
  unfold Machine.hRackClose
  split
  · exact (hs.modParcel _ _).replies
  · exact hs.refuses
theorem Keeps.hRackStatus (hs : Keeps s₀ s) (p n : Nat) : Keeps s₀ (hRackStatus p n s).1 := by
  unfold Machine.hRackStatus
  split
  · exact hs.replies
  · exact hs.refuses
theorem Keeps.hTapConfig (hs : Keeps s₀ s) (rq : Requester) (p : Nat) (f : TapConfigF) : Keeps s₀ (hTapConfig rq p f s).1 := by
  unfold Machine.hTapConfig
  extract_lets _ _ s1
  have h1 : Keeps s₀ s1 := (hs.tapDown _).modTap _ _
  exact .iteFst hs.refuses (Keeps.iteFst hs.refuses (Keeps.iteFst hs.refuses (Keeps.iteFst h1.replies ((h1.await _ _ _ _).pair))))
theorem Keeps.hTapKeySet (hs : Keeps s₀ s) (p key : Nat) (bytes : Bytes) : Keeps s₀ (hTapKeySet p key bytes s).1 :=
  .iteFst hs.refuses (Keeps.iteFst hs.refuses ((hs.modParcel _ _).replies))
theorem Keeps.hTapStatus (hs : Keeps s₀ s) (p : Nat) (tap : BitVec 8) : Keeps s₀ (hTapStatus p tap s).1 := by
  unfold Machine.hTapStatus
  split
  · exact hs.refuses
  · exact .iteFst hs.refuses hs.replies
theorem Keeps.subUp (hs : Keeps s₀ s) (t u : Nat) : Keeps s₀ (s.subUp t u) := by
  unfold State.subUp
  extract_lets s1 s2 s3
  have h1 : Keeps s₀ s1 := hs.modSub _ _ _
  have h2 : Keeps s₀ s2 := by
    unfold s2
    split
    · exact h1.eventOwner _ _
    · exact h1
  have h3 : Keeps s₀ s3 := .ite (h2.answerWaits _ _) h2
  exact h3.linkRerequest _ _
theorem execTapLinkChange_keeps (s : State) (tap sub : Nat) (up : Bool) : KeepsOut s (execTapLinkChange tap sub up s) := by
  unfold Machine.execTapLinkChange
  split
  · exact .refused
  · exact .next (Keeps.ite (Keeps.ite (Keeps.refl _) ((Keeps.refl _).subUp _ _)) ((Keeps.refl _).subDown _ _))
theorem Keeps.arpIn (hs : Keeps s₀ s) (t u : Nat) (srcMac : BitVec 48) (srcIp target : BitVec 32) : Keeps s₀ (s.arpIn t u srcMac srcIp target) :=
  .ite ((hs.modSub _ _ _).sendOut _ _ _) hs
theorem execArpRequest_keeps (s : State) (tap sub : Nat) (srcMac : BitVec 48) (srcIp target : BitVec 32) : KeepsOut s (execArpRequest tap sub srcMac srcIp target s) := by
  unfold Machine.execArpRequest
  split
  · exact .refused
  · exact .next ((Keeps.refl _).arpIn _ _ _ _ _)
theorem Keeps.ndpIn (hs : Keeps s₀ s) (t u : Nat) (srcMac : BitVec 48) (srcIp target : BitVec 128) : Keeps s₀ (s.ndpIn t u srcMac srcIp target) :=
  .ite ((hs.modSub _ _ _).sendOut _ _ _) hs
theorem execNeighbourSolicitation_keeps (s : State) (tap sub : Nat) (srcMac : BitVec 48) (srcIp target : BitVec 128) :
    KeepsOut s (execNeighbourSolicitation tap sub srcMac srcIp target s) := by
  unfold Machine.execNeighbourSolicitation
  split
  · exact .refused
  · exact .next ((Keeps.refl _).ndpIn _ _ _ _ _)
theorem Keeps.echoIn (hs : Keeps s₀ s) (t u : Nat) (v6 : Bool) (srcIp dstIp : BitVec 128) (body : Bytes) : Keeps s₀ (s.echoIn t u v6 srcIp dstIp body) :=
  .ite (hs.sendOut _ _ _) hs
theorem execEchoRequest_keeps (s : State) (tap sub : Nat) (v6 : Bool) (srcIp dstIp : BitVec 128) (body : Bytes) : KeepsOut s (execEchoRequest tap sub v6 srcIp dstIp body s) := by
  unfold Machine.execEchoRequest
  split
  · exact .refused
  · exact .next ((Keeps.refl _).echoIn _ _ _ _ _ _)
theorem Keeps.readReqIn (hs : Keeps s₀ s) (h : RackHdr) (total count : Nat) (dest : RackTo) : Keeps s₀ (State.readReqIn h total count dest s) := by
  unfold State.readReqIn
  split
  · exact hs
  · split
    · exact hs
    · extract_lets _
      exact .ite hs (Keeps.ite (hs.rackSend _ _ _ _ _ _) ((hs.modExport _ _).exportPump _))
theorem Keeps.dataIn (hs : Keeps s₀ s) (h : RackHdr) (body : Bytes) (dest : RackTo) : Keeps s₀ (State.dataIn h body dest s) := by
  unfold State.dataIn
  split
  · exact hs
  · split
    · exact hs
    · split
      · exact hs
      · split
        · exact hs.modRack _ _ _
        · exact hs.rackCrcError _
theorem Keeps.sackIn (hs : Keeps s₀ s) (h : RackHdr) (dest : RackTo) : Keeps s₀ (State.sackIn h dest s) := by
  unfold State.sackIn
  split
  · exact hs
  · split
    · exact hs
    · exact .ite (hs.exportOver _ _) hs
theorem Keeps.creditIn (hs : Keeps s₀ s) (h : RackHdr) (dest : RackTo) : Keeps s₀ (State.creditIn h dest s) := by
  unfold State.creditIn
  split
  · exact hs
  · exact .ite ((hs.modExport _ _).exportPump _) hs
theorem Keeps.failIn (hs : Keeps s₀ s) (h : RackHdr) (dest : RackTo) : Keeps s₀ (State.failIn h dest s) := by
  unfold State.failIn
  split
  · exact hs
  · split
    · exact hs
    · exact .ite hs (Keeps.ite (hs.modRack _ _ _) (hs.rackFails _ _))
theorem execOffer_keeps (s : State) (parcel stream : Nat) : KeepsOut s (execOffer parcel stream s) := by
  unfold Machine.execOffer
  split
  · exact .refused
  · refine .next ?_
    split
    · exact .ite ((Keeps.refl _).sendOffer _) (Keeps.refl _)
    · exact Keeps.refl _
theorem Keeps.segmentLands (hs : Keeps s₀ s) (p n k : Nat) (r : Rack) (c : Nat) (d : Bytes) (beats : List Ecc) : Keeps s₀ (s.segmentLands p n k r c d beats) := by
  unfold State.segmentLands
  split
  · exact (hs.gwRefused _).rackFails _ _
  · next t ht =>
    have ht : Keeps s₀ t := hs.gwWrite ht
    extract_lets u
    have hu : Keeps s₀ u := (ht.modRack _ _ _).creditDue _ _
    exact .ite (hu.sendSack _ _) hu
theorem execSegmentLanded_keeps (s : State) (parcel stream : Nat) (seg : LandedSeg) : KeepsOut s (execSegmentLanded parcel stream seg s) := by
  unfold Machine.execSegmentLanded
  split
  · exact .refused
  · refine .next ?_
    split
    · exact Keeps.refl _
    · split
      · exact .ite ((Keeps.refl _).segmentLands _ _ _ _ _ _ _) (Keeps.refl _)
      · exact Keeps.refl _
theorem execRackCreditTimer_keeps (s : State) (parcel stream : Nat) (sackTimer : Bool) : KeepsOut s (execRackCreditTimer parcel stream sackTimer s) := by
  unfold Machine.execRackCreditTimer
  split
  · exact .refused
  · refine .next ?_
    split
    · exact Keeps.refl _
    · exact .ite (Keeps.refl _) (Keeps.ite ((Keeps.refl _).sendSack _ _) ((Keeps.refl _).sendCredit _ _))
theorem execRackRerequest_keeps (s : State) (parcel stream seq : Nat) : KeepsOut s (execRackRerequest parcel stream seq s) := by
  unfold Machine.execRackRerequest
  split
  · exact .refused
  · exact .next ((Keeps.refl _).rerequest _ _ _)
theorem execRackBusyRetry_keeps (s : State) (parcel stream : Nat) : KeepsOut s (execRackBusyRetry parcel stream s) := by
  unfold Machine.execRackBusyRetry
  split
  · exact .refused
  · refine .next ?_
    split
    · exact Keeps.refl _
    · exact .ite (((Keeps.refl _).modRack _ _ _).sendReadReq _ _ _) (Keeps.refl _)
theorem execOfferResend_keeps (s : State) (parcel stream : Nat) : KeepsOut s (execOfferResend parcel stream s) := by
  unfold Machine.execOfferResend
  split
  · exact .refused
  · refine .next ?_
    split
    · exact .ite (Keeps.refl _) (Keeps.ite ((Keeps.refl _).exportOver _ _) ((Keeps.refl _).sendOffer _))
    · exact Keeps.refl _

/- The operations of Machine/Frames. -/
theorem State.rackFrame_keeps (s : State) (f : Frame) : KeepsOut s (s.rackFrame f) := by
  unfold State.rackFrame
  extract_lets _ _ _
  split
  · exact .next ((Keeps.refl _).rxDiscard _ _)
  · split
    · exact State.rackIn_keeps _ _ _ _ _ (fun _ _ => (Keeps.refl _).readReqIn _ _ _ _)
    · exact State.rackIn_keeps _ _ _ _ _ (fun _ _ => (Keeps.refl _).dataIn _ _ _)
    · exact State.rackIn_keeps _ _ _ _ _ (fun _ _ => (Keeps.refl _).sackIn _ _)
    · exact State.rackIn_keeps _ _ _ _ _ (fun _ _ => (Keeps.refl _).creditIn _ _)
    · exact State.rackIn_keeps _ _ _ _ _ (fun _ _ => (Keeps.refl _).failIn _ _)
    · exact State.rackIn_keeps _ _ _ _ _ (fun _ _ => Keeps.refl _)
theorem State.udpIn_keeps (s : State) (f : Frame) : KeepsOut s (s.udpIn f) := by
  unfold State.udpIn
  split
  · exact .next ((Keeps.refl _).pourIn _ _ _ _)
  · split
    · exact State.rackFrame_keeps _ _
    · exact .next ((Keeps.refl _).rxDiscard _ _)
theorem Keeps.icmpIn (hs : Keeps s₀ s) (f : Frame) (v6 : Bool) : Keeps s₀ (s.icmpIn f v6) :=
  .ite (Keeps.ite (hs.echoIn _ _ _ _ _ _) (Keeps.ite (hs.ndpIn _ _ _ _ _) hs)) (Keeps.ite (hs.echoIn _ _ _ _ _ _) hs)
theorem Keeps.arpFrame (hs : Keeps s₀ s) (f : Frame) : Keeps s₀ (s.arpFrame f) := .ite (hs.arpIn _ _ _ _ _) hs
theorem State.frameUp_keeps (s : State) (f : Frame) : KeepsOut s (s.frameUp f) := by
  unfold State.frameUp
  extract_lets _
  split
  · exact .next ((Keeps.refl _).arpFrame _)
  · split
    · exact .next (Keeps.refl _)
    · split
      · exact .next ((Keeps.refl _).icmpIn _ _)
      · split
        · exact .next (Keeps.refl _)
        · exact State.udpIn_keeps _ _
theorem execFrameReceive_keeps (s : State) (f : Frame) : KeepsOut s (execFrameReceive f s) := by
  unfold execFrameReceive
  extract_lets s1 s2
  have h1 : Keeps s s1 := (Keeps.subCount (.refl s) _ _ _ _).subCount _ _ _ _
  have h2 : Keeps s s2 := .ite (h1.subCount _ _ _ _) h1
  exact .ite .refused (.ite (.next (.refl s)) (.ite (.next (h2.rxDiscard _ _)) (.ite (.next h2) (h2.out (State.frameUp_keeps _ _)))))

/- The operations of Machine/Loader. -/
theorem Keeps.installImage (hs : Keeps s₀ s) (p : Nat) (bs : Bytes) : Keeps s₀ (s.installImage p bs) := by
  unfold State.installImage
  extract_lets _ _ _ _ s1 s2
  have h1 : Keeps s₀ s1 := .foldl _ _ hs.write (fun _ _ => (Keeps.refl _).modCask _ _)
  have h2 : Keeps s₀ s2 := (h1.clearResident _).loadBays _ _
  exact h2.modParcel _ _
theorem Keeps.hImageLoad (hs : Keeps s₀ s) (p imageBytes : Nat) (stream : Bytes) (crcSeen : List (BayId × List Word)) : Keeps s₀ (hImageLoad p imageBytes stream crcSeen s).1 := by
  unfold Machine.hImageLoad
  split
  · exact hs.refuses
  · split
    · exact hs.replies
    · extract_lets _ _ _ _
      split
      · exact (hs.report _).refuses
      · exact (hs.installImage _ _).replies

/- The operations of Machine/SealMsgs. -/
theorem Keeps.hAttest (hs : Keeps s₀ s) (rq : Requester) (nonce : Bytes) : Keeps s₀ (hAttest rq nonce s).1 := by
  unfold Machine.hAttest
  extract_lets f side device b g s1
  have h1 : Keeps s₀ s1 := hs.write
  refine .iteFst hs.refuses (Keeps.replies ?_)
  split
  · exact h1.writeSeal
  · exact h1
theorem Keeps.hCertGet (hs : Keeps s₀ s) (rq : Requester) (cut : Option CutEntry) : Keeps s₀ (hCertGet rq cut s).1 := by
  unfold Machine.hCertGet
  extract_lets _ _
  split
  · exact .iteFst hs.refuses hs.replies
  · exact (hs.streamOut _ _ _).pair
theorem Keeps.featuresLost (hs : Keeps s₀ s) : Keeps s₀ (s.featuresLost) := by
  unfold State.featuresLost
  extract_lets s1
  have h1 : Keeps s₀ s1 := .ite hs (Keeps.foldl _ _ (hs.modPrt _) (fun _ _ => (Keeps.refl _).modParcel _ _))
  exact .ite h1 h1.unsignLabels
theorem Keeps.hLicence (hs : Keeps s₀ s) (l : Bytes) : Keeps s₀ (hLicence l s).1 := by
  unfold Machine.hLicence
  refine .iteFst hs.refuses (.iteFst hs.refuses (.iteFst hs.refuses ?_))
  extract_lets n x _ s1 s2
  have h1 : Keeps s₀ s1 := hs.writeSeal (by exact fun h => (Seal.extend_mr_length _ _ _).trans h) (by exact ⟨Nat.le_refl _, Nat.le_refl _, Nat.le_refl _, Nat.le_succ _⟩)
  exact h1.featuresLost.replies
theorem Keeps.setKeys (hs : Keeps s₀ s) (ks : List RegKey) : Keeps s₀ (s.setKeys ks) :=
  hs.writeSeal (by exact fun h => (Seal.extend_mr_length _ _ _).trans h) (by exact ⟨Nat.le_refl _, Nat.le_refl _, Nat.le_refl _, Nat.le_succ _⟩)
theorem Keeps.hKeysAdd (hs : Keeps s₀ s) (id use_ : Nat) (pub : Bytes) : Keeps s₀ (hKeysAdd id use_ pub s).1 :=
  .iteFst hs.refuses (Keeps.iteFst hs.refuses (Keeps.iteFst hs.refuses (Keeps.iteFst hs.refuses ((hs.setKeys _).replies))))
theorem Keeps.hKeysRemove (hs : Keeps s₀ s) (id : Nat) : Keeps s₀ (hKeysRemove id s).1 := .iteFst hs.refuses (Keeps.iteFst hs.refuses ((hs.setKeys _).replies))
theorem Keeps.hKeysList (hs : Keeps s₀ s) : Keeps s₀ (hKeysList s).1 := hs.replies
theorem Keeps.hUnlock (hs : Keeps s₀ s) (t : Bytes) : Keeps s₀ (hUnlock t s).1 := by
  unfold Machine.hUnlock
  refine .iteFst hs.refuses (.iteFst hs.refuses ?_)
  extract_lets k x s1
  have h1 : Keeps s₀ s1 := hs.writeSeal (by exact fun h => (Seal.extend_mr_length _ _ _).trans h)
    (by exact ⟨Nat.le_refl _, Nat.le_refl _, Nat.le_succ _, Nat.le_refl _⟩)
  exact (Keeps.ite h1.unsignLabels h1).replies
theorem Keeps.hPerturbEnable (hs : Keeps s₀ s) (p : Nat) : Keeps s₀ (hPerturbEnable p s).1 := .iteFst hs.refuses (Keeps.iteFst hs.refuses ((hs.modParcel _ _).replies))
theorem Keeps.hPerturbDisable (hs : Keeps s₀ s) (p : Nat) : Keeps s₀ (hPerturbDisable p s).1 := by
  unfold Machine.hPerturbDisable
  extract_lets s1
  have h1 : Keeps s₀ s1 := hs.modParcel _ _
  exact .iteFst hs.refuses ((Keeps.ite (h1.modPrt _) h1).replies)

/- The operations of Machine/Give. -/
/-- A handler that keeps what `Keeps` names, whatever state it meets. -/
def HandlerKeeps (h : Handler) : Prop := ∀ s, Keeps s (h s).1
theorem plainHandler_keeps (rq : Requester) (r : Req) : HandlerKeeps (plainHandler rq r) := by
  unfold Machine.plainHandler
  extract_lets b p
  split
  · exact fun _ => Keeps.hSysInfo (.refl _) ..
  · exact fun _ => Keeps.hPrincipalMove (.refl _) ..
  · exact fun _ => Keeps.hCreate (.refl _) ..
  · exact fun _ => Keeps.hDelete (.refl _) ..
  · exact fun _ => Keeps.hAssign (.refl _) ..
  · exact fun _ => Keeps.hPark (.refl _) ..
  · exact fun _ => Keeps.hResume (.refl _) ..
  · exact fun _ => (Keeps.refl _).replies
  · exact fun _ => Keeps.hUnload (.refl _) ..
  · exact fun _ => Keeps.hImageInfo (.refl _) ..
  · exact fun _ => Keeps.hWindowSet (.refl _) ..
  · exact fun _ => Keeps.hWindowClear (.refl _) ..
  · exact fun _ => Keeps.hRegionClose (.refl _) ..
  · exact fun _ => Keeps.hStaveFail (.refl _) ..
  · exact fun _ => Keeps.hCaskStatus (.refl _) ..
  · exact fun _ => Keeps.hRackOpen (.refl _) ..
  · exact fun _ => Keeps.hRackClose (.refl _) ..
  · exact fun _ => Keeps.hRackStatus (.refl _) ..
  · exact fun _ => Keeps.hRunStart (.refl _) ..
  · exact fun _ => Keeps.hRunAbort (.refl _) ..
  · exact fun _ => Keeps.hRunResult (.refl _) ..
  · exact fun _ => Keeps.hVintageDraw (.refl _) ..
  · exact fun _ => Keeps.hVintageExport (.refl _) ..
  · exact fun _ => Keeps.hVintageStatus (.refl _) ..
  · exact fun _ => Keeps.hCapSet (.refl _) ..
  · exact fun _ => Keeps.hShareSet (.refl _) ..
  · exact fun _ => Keeps.hLeaseSet (.refl _) ..
  · exact fun _ => Keeps.hContractSet (.refl _) ..
  · exact fun _ => Keeps.hForecast (.refl _) ..
  · exact fun _ => Keeps.hPowerStatus (.refl _) ..
  · exact fun _ => Keeps.hSidebandSet (.refl _) ..
  · exact fun _ => Keeps.hSoundRun (.refl _) ..
  · exact fun _ => Keeps.hFaultLog (.refl _) ..
  · exact fun _ => Keeps.hFaultSummary (.refl _) ..
  · exact fun _ => Keeps.hLogClear (.refl _) ..
  · exact fun _ => Keeps.hFaultCounters (.refl _) ..
  · exact fun _ => Keeps.hTapConfig (.refl _) ..
  · exact fun _ => Keeps.hTapKeySet (.refl _) ..
  · exact fun _ => Keeps.hTapStatus (.refl _) ..
  · exact fun _ => Keeps.hPourStart (.refl _) ..
  · exact fun _ => Keeps.hPourStop (.refl _) ..
  · split
    · exact fun _ => (Keeps.refl _).refuses
    · exact fun _ => Keeps.hPourCancel (.refl _) ..
  · exact fun _ => Keeps.hPourStatus (.refl _) ..
  · exact fun _ => Keeps.hPourLabel (.refl _) ..
  · exact fun _ => Keeps.hAttest (.refl _) ..
  · exact fun _ => Keeps.hCertGet (.refl _) ..
  · exact fun _ => Keeps.hLicence (.refl _) ..
  · exact fun _ => Keeps.hKeysAdd (.refl _) ..
  · exact fun _ => Keeps.hKeysRemove (.refl _) ..
  · exact fun _ => Keeps.hKeysList (.refl _) ..
  · exact fun _ => Keeps.hUnlock (.refl _) ..
  · exact fun _ => Keeps.hPerturbEnable (.refl _) ..
  · exact fun _ => Keeps.hPerturbDisable (.refl _) ..
  · exact fun _ => (Keeps.refl _).refuses
theorem Keeps.plainHandler (hs : Keeps s₀ s) (rq : Requester) (r : Req) : Keeps s₀ (plainHandler rq r s).1 :=
  hs.trans (plainHandler_keeps rq r s)
theorem Keeps.runReq (hs : Keeps s₀ s) (rq : Requester) (r : Req) (nested : Bool) (h : Handler) (hh : ∀ u, Keeps u (h u).1) : Keeps s₀ (s.runReq rq r nested h).1 :=
  .iteFst hs.pair (hs.effect _ _ _ _ (fun _ => .iteFst ((Keeps.refl _).trans (hh _)) ((Keeps.refl _).refuses)))
theorem Keeps.runEntry (hs : Keeps s₀ s) (port slot : Nat) (e : CutEntry) : Keeps s₀ (s.runEntry port slot e).1 := by
  unfold State.runEntry
  extract_lets back r rq now x
  have hback : ∀ n, Keeps s₀ (back n).1 := fun _ => (hs.emitPort _ _).pair
  have hx : Keeps s₀ x.1 := hs.runReq _ _ _ _ (fun u => Keeps.plainHandler (.refl u) _ _)
  refine .iteFst (hback _) (.iteFst (hback _) ?_)
  split
  · exact (hx.answer _ _ _ _ _).pair
  · exact hx
theorem Keeps.transferGo {r : CutRun} (hr : Keeps s₀ r.s) (rq : Requester) (parcel : Nat) (es : List CutEntry) : Keeps s₀ (transferGo rq parcel es r).1.s := by
  induction es generalizing r with
  | nil => exact hr
  | cons e es ih =>
    unfold Machine.transferGo
    split
    · exact hr
    · split
      · exact hr
      · exact ih (hr.entry e (fun u => .iteFst (Keeps.runEntry (.refl u) _ _ _) (.iteFst (Keeps.segOut (.refl u) _ _ _) (Keeps.segIn (.refl u) _ _))))
theorem Keeps.hTransfer (hs : Keeps s₀ s) (rq : Requester) (parcel : Nat) (cut : List CutEntry) : Keeps s₀ (hTransfer rq parcel cut s).1 := by
  unfold Machine.hTransfer
  extract_lets r
  have hr : Keeps s₀ r.1.s := Keeps.transferGo (r := CutRun.start s _) hs _ _ _
  split
  · exact hr.replies
  · exact (hr.await _ _ _ _).pair
theorem execCaskTransfer_keeps (s : State) (rq : Requester) (parcel : Nat) (cut : List CutEntry) : KeepsOut s (execCaskTransfer rq parcel cut s) :=
  State.deliver_keeps _ _ _ _ _ _ (fun _ => .ite ((Keeps.refl _).answer _ _ _ _ _) ((Keeps.refl _).serve _ _ _ _ (fun _ => (Keeps.refl _).hTransfer _ _ _)))
theorem Keeps.streamHandler (hs : Keeps s₀ s) (rq : Requester) (es : List CutEntry) {h : Bytes → Handler} (hh : ∀ bs u, Keeps u (h bs u).1) :
    Keeps s₀ (streamHandler rq es h s).1 := by
  unfold Machine.streamHandler
  extract_lets x y
  have hx : Keeps s₀ x.1.s := Keeps.inGo _ (CutRun.start s _, []) hs
  exact .iteFst hx (hx.trans (hh _ _))
theorem HandlerKeeps.streamed {h : Bytes → Handler} (hh : ∀ bs, HandlerKeeps (h bs)) (rq : Requester) (es : List CutEntry) : HandlerKeeps (streamHandler rq es h) :=
  fun s => Keeps.streamHandler (.refl s) rq es hh
theorem HandlerKeeps.single {h : Option CutEntry → Handler} (hh : ∀ e, HandlerKeeps (h e)) (es : List CutEntry) :
    HandlerKeeps (if es.length = 1 then h es.head? else fun s => refuses s eMalformed) := by
  split
  · exact hh _
  · exact fun _ => (Keeps.refl _).refuses
theorem cutHandler_keeps (rq : Requester) (r : Req) (es : List CutEntry) : HandlerKeeps (cutHandler rq r es) := by
  unfold Machine.cutHandler
  extract_lets b p one
  split
  · exact .streamed (fun _ _ => Keeps.hImageLoad (.refl _) ..) _ _
  · exact .single (fun _ _ => Keeps.hImageInfo (.refl _) ..) _
  · exact fun _ => Keeps.hTransfer (.refl _) ..
  · exact fun _ => Keeps.hVintageExport (.refl _) ..
  · exact .streamed (fun _ _ => Keeps.hVintageRestore (.refl _) ..) _ _
  · exact .single (fun _ _ => Keeps.hFaultLog (.refl _) ..) _
  · exact .streamed (fun _ _ => Keeps.hPourSubmit (.refl _) ..) _ _
  · exact .single (fun _ _ => Keeps.hCertGet (.refl _) ..) _
  · exact plainHandler_keeps rq r
theorem Keeps.cutHandler (hs : Keeps s₀ s) (rq : Requester) (r : Req) (es : List CutEntry) : Keeps s₀ (cutHandler rq r es s).1 :=
  hs.trans (cutHandler_keeps rq r es s)
theorem Keeps.listHandler (hs : Keeps s₀ s) (rq : Requester) (r : Req) (m : List (Nat × Byte)) : Keeps s₀ (listHandler rq r m s).1 := by
  unfold Machine.listHandler
  split
  · exact hs.plainHandler _ _
  · split
    · exact hs.cutHandler _ _ _
    · exact hs.refuses
theorem Keeps.giveSlot (hs : Keeps s₀ s) (port slot : Nat) (hostMem : List (Nat × Byte)) : Keeps s₀ (s.giveSlot port slot hostMem) := by
  unfold State.giveSlot
  extract_lets s1 _ _ _ _ s2
  have h1 : Keeps s₀ s1.1 := hs.takeSlot _ _
  have h2 : Keeps s₀ s2.1 := h1.runReq _ _ _ _ (fun _ => (Keeps.refl _).listHandler _ _ _)
  split
  · exact h1
  · split
    · exact h1.holdReq _ _ _ _ _
    · split
      · exact h2.answer _ _ _ _ _
      · exact h2
theorem execGive_keeps (s : State) (port slot : Nat) (hostMem : List (Nat × Byte)) : KeepsOut s (execGive port slot hostMem s) := by
  unfold Machine.execGive
  split
  · exact .refused
  · exact .next (Keeps.ite (Keeps.refl _) (Keeps.ite ((Keeps.refl _).holdWrite _ _) ((Keeps.refl _).giveSlot _ _ _)))
theorem execMsg_keeps (s : State) (port slot : Nat) (e : CutEntry) : KeepsOut s (execMsg port slot e s) := by
  unfold Machine.execMsg
  split
  · exact .refused
  · exact .next (Keeps.ite ((Keeps.refl _).runEntry _ _ _) (Keeps.refl _))

/- The operations of Machine/Gateway. -/
theorem Keeps.portErr (hs : Keeps s₀ s) (p bit : Nat) : Keeps s₀ (s.portErr p bit) := hs.modPort _ _
theorem Keeps.bar2Put (hs : Keeps s₀ s) (port off : Nat) (data : Bytes) (beats : List Ecc) : Keeps s₀ (s.bar2Put port off data beats) := by
  unfold State.bar2Put
  split
  · exact hs.portErr _ _
  · exact hs.portErr _ _
  · split
    · next ht => exact hs.gwWrite ht
    · exact (hs.gwRefused _).portErr _ _
theorem Keeps.bar2Get (hs : Keeps s₀ s) (port off len : Nat) : Keeps s₀ (s.bar2Get port off len) := by
  unfold State.bar2Get
  split
  · exact (hs.portErr _ _).emit _
  · exact (hs.portErr _ _).emit _
  · split
    · exact (Keeps.ite (hs.portErr _ _) hs).emit _
    · exact (hs.portErr _ _).emit _
theorem Keeps.serveWrites (hs : Keeps s₀ s) (ps stuck : List Nat) : Keeps s₀ (State.serveWrites ps stuck s) := by
  induction ps generalizing stuck s with
  | nil => exact hs
  | cons p ps ih =>
    unfold State.serveWrites
    split
    · exact ih hs _
    · split
      · exact ih hs.write _
      · exact ih ((hs.modPort _ _).bar2Put _ _ _ _) _
theorem Keeps.servePosted (hs : Keeps s₀ s) : Keeps s₀ (s.servePosted) := hs.write.serveWrites _ _
theorem Keeps.serveReads (hs : Keeps s₀ s) (port : Nat) (rs : List (Nat × Nat)) : Keeps s₀ (State.serveReads port rs s) := by
  induction rs generalizing s with
  | nil => exact hs
  | cons r rs ih => exact .ite (ih (hs.modPort _ _)) (ih (hs.bar2Get _ _ _))
theorem Keeps.portReads (hs : Keeps s₀ s) (port : Nat) : Keeps s₀ (s.portReads port) := .ite ((hs.modPort _ _).serveReads _ _) hs
theorem Keeps.portServe (hs : Keeps s₀ s) (port : Nat) : Keeps s₀ (s.portServe port) := hs.servePosted.portReads _
theorem Keeps.transferOn (hs : Keeps s₀ s) (w : Wait) : Keeps s₀ (s.transferOn w) := by
  unfold State.transferOn
  split
  · next rq done fail rest _ _ =>
    extract_lets t _ x
    have hx : Keeps s₀ x.1.s := Keeps.transferGo (r := { CutRun.start t ((requesterPort rq).getD 0) with done := done, fail := fail }) hs.write _ _ _
    split
    · exact hx.answer _ _ _ _ _
    · exact hx.write
  · exact hs.write.cutDies _
  · exact hs
theorem Keeps.gwServe (hs : Keeps s₀ s) : Keeps s₀ (s.gwServe) :=
  .foldl _ _ (Keeps.foldl _ _ hs.servePosted (fun _ _ => (Keeps.refl _).portReads _)) (fun _ _ => (Keeps.refl _).transferOn _)
theorem Keeps.released (hs : Keeps s₀ s) (h : Held) (rest : List Held) : Keeps s₀ (s.released h rest) := by
  unfold State.released
  extract_lets s1
  have h1 : Keeps s₀ s1 := by
    unfold s1
    split
    · exact hs.modPort _ _
    · exact hs
  exact h1.write

/- The operations of Machine/Raising. -/
theorem State.raiseWrite_keeps (s : State) (p : Nat) (i : Instr) (g : State → State) (hg : ∀ u, Keeps u (g u)) : KeepsOut s (s.raiseWrite p i g) :=
  State.onPort_keeps _ _ _ (fun _ => .ite ((Keeps.refl _).holdWrite _ _) ((Keeps.refl _).trans (hg _)))
theorem Keeps.claimBy (hs : Keeps s₀ s) (port : Nat) : Keeps s₀ (s.claimBy port) :=
  .ite hs ((hs.modRaising _).writeSeal (by exact fun _ => rfl))
theorem execClaim_keeps (s : State) (port : Nat) : KeepsOut s (execClaim port s) := State.raiseWrite_keeps _ _ _ _ (fun _ => .ite ((Keeps.refl _).claimBy _) (Keeps.refl _))
theorem execVerifyFw_keeps (s : State) (port : Nat) : KeepsOut s (execVerifyFw port s) := by
  unfold Machine.execVerifyFw
  refine State.raiseWrite_keeps _ _ _ _ ?_
  intro u
  extract_lets t s1 m code h d x s2
  have ht : Keeps u t.1 := Keeps.raiseTake (.refl u) _ _ _ _
  have h1 : Keeps u s1 := ht.raiseIdle
  have h2 : Keeps u s2 := h1.writeSeal (by exact fun h => by simp only [x, Seal.extend_mr_length, h])
  split
  · exact ht
  · exact .ite (h1.raiseErr _ _ _ _) (h2.modRaising _)
theorem execStartCmst_keeps (s : State) (port : Nat) : KeepsOut s (execStartCmst port s) := State.raiseWrite_keeps _ _ _ _ (fun _ => (Keeps.refl _).raiseTake _ _ _ _)
theorem execCmstReady_keeps (s : State) : KeepsOut s (execCmstReady s) := by
  refine .next ?_
  split
  · next c _ =>
    have h1 : Keeps s (s.raiseIdle.modRaising (fun r => { r with stage := 3 })) := (Keeps.raiseIdle (.refl s)).modRaising _
    exact .ite (h1.writeSeal (hle := by exact ⟨Nat.le_max_left _ _, Nat.le_refl _, Nat.le_refl _, Nat.le_refl _⟩)) (.refl s)
  · exact .refl s
theorem Keeps.applyEsc (hs : Keeps s₀ s) (f : Nat) : Keeps s₀ (s.applyEsc f) := by
  unfold State.applyEsc
  extract_lets _ s1 s2
  have h1 : Keeps s₀ s1 := .foldl _ _ hs (fun _ _ => (Keeps.refl _).modBent _ _ _)
  have h2 : Keeps s₀ s2 := .foldl _ _ h1 (fun _ _ => (Keeps.refl _).modCask _ _)
  exact h2.modField _ _
theorem Keeps.readLicence (hs : Keeps s₀ s) : Keeps s₀ s.readLicence := by
  unfold State.readLicence
  extract_lets l ok _ _ x
  have hx : (s.sealU.mr.length = 8 → x.mr.length = 8) ∧ s.sealU.NotBelow x := by
    unfold x
    split
    · exact ⟨fun h => (Seal.extend_mr_length _ _ _).trans h, .refl _⟩
    · exact ⟨id, .refl _⟩
  exact hs.writeSeal (by exact hx.1) (by exact hx.2)
theorem Keeps.reportTrips (hs : Keeps s₀ s) : Keeps s₀ s.reportTrips := by
  unfold State.reportTrips
  extract_lets s1
  have h1 : Keeps s₀ s1 := .foldl _ _ hs (fun u _ => (Keeps.report (.refl u) _).writeLog id)
  exact h1.write
theorem Keeps.releaseLath (hs : Keeps s₀ s) : Keeps s₀ (s.releaseLath) := (Keeps.foldl _ _ hs (fun _ _ => (Keeps.refl _).modSeam _ _)).write
theorem Keeps.readGrain (hs : Keeps s₀ s) (g : GrainBody) : Keeps s₀ (s.readGrain g) := by
  unfold State.readGrain
  extract_lets s1 s2
  have h1 : Keeps s₀ s1 := .foldl _ _ hs (fun _ _ => .ite ((Keeps.refl _).modBent _ _ _) (Keeps.refl _))
  have h2 : Keeps s₀ s2 := .foldl _ _ h1 (fun _ _ => .ite ((Keeps.refl _).modBent _ _ _) (Keeps.refl _))
  exact .foldl _ _ h2 (fun _ _ => .ite ((Keeps.refl _).modField _ _) (Keeps.refl _))
theorem execVerifyConfig_keeps (s : State) (port : Nat) (grainMap : Bytes) (body : GrainBody) (shortedHubs : List Nat) :
    KeepsOut s (execVerifyConfig port grainMap body shortedHubs s) := by
  unfold Machine.execVerifyConfig
  refine State.raiseWrite_keeps _ _ _ _ ?_
  intro u
  extract_lets t s1 ok x s2 s3 s4 s5 s6 s7 dark s8 s9 s10 _ s11 s12
  have ht : Keeps u t.1 := Keeps.raiseTake (.refl u) _ _ _ _
  have h1 : Keeps u s1 := ht.raiseIdle
  have hx : (s1.sealU.mr.length = 8 → x.mr.length = 8) ∧ s1.sealU.NotBelow x := by
    unfold x
    split
    · exact ⟨fun h => (Seal.extend_mr_length _ _ _).trans h, .refl _⟩
    · exact ⟨id, .refl _⟩
  have h2 : Keeps u s2 := h1.writeSeal (by exact hx.1) (by exact hx.2)
  have h3 : Keeps u s3 := h2.readLicence
  have h4 : Keeps u s4 := h3.writeSeal (by exact fun h => (Seal.extend_mr_length _ _ _).trans h)
  have h5 : Keeps u s5 := .ite (h4.readGrain _) h4
  have h6 : Keeps u s6 := .foldl _ _ h5 (fun v _ => Keeps.applyEsc (.refl v) _)
  have h7 : Keeps u s7 := .foldl _ _ h6 (fun v _ => Keeps.modSeam (.refl v) _ _)
  have h8 : Keeps u s8 := .foldl _ _ h7 (fun v _ => Keeps.modField (.refl v) _ _)
  have h9 : Keeps u s9 := h8.releaseLath
  have h10 : Keeps u s10 := h9.reportTrips
  have h11 : Keeps u s11 := h10.write
  have h12 : Keeps u s12 := h11.modRaising _
  split
  · exact ht
  · exact h12.raiseErr _ _ _ _
theorem execRaise_keeps (s : State) (port : Nat) (fields : BitVec 10) (memtest : Bool) (found : List FieldFindings) : KeepsOut s (execRaise port fields memtest found s) := by
  unfold Machine.execRaise
  refine State.raiseWrite_keeps _ _ _ _ ?_
  intro u
  extract_lets s1 s2
  have h1 : Keeps u s1.1 := (Keeps.refl _).raiseTake _ _ _ _
  have h2 : Keeps u s2 := h1
  split
  · exact h1
  · exact (h2.raiseGo _ _ _ _ _).raiseIdle
theorem execUnpark_keeps (s : State) (port : Nat) (fields : BitVec 10) (found : List FieldFindings) : KeepsOut s (execUnpark port fields found s) := by
  unfold Machine.execUnpark
  refine State.raiseWrite_keeps _ _ _ _ ?_
  intro u
  extract_lets s1 s2
  have h1 : Keeps u s1.1 := (Keeps.refl _).raiseTake _ _ _ _
  have h2 : Keeps u s2 := h1
  split
  · exact h1
  · exact (Keeps.foldl _ _ h2 (fun _ _ => ((Keeps.refl _).fastField _ _).noteRaise _ _ _)).raiseIdle
theorem execRaiseStepTimeout_keeps (s : State) (field : Nat) : KeepsOut s (execRaiseStepTimeout field s) := by
  unfold Machine.execRaiseStepTimeout
  refine State.onField_keeps _ _ _ ?_
  intro u
  extract_lets x r e s1
  have he : Keeps u e.1 := Keeps.finish (r := r) (.refl u) _ _ _
  have h1 : Keeps u s1 := he.noteRaise _ _ _
  exact .ite (.ite h1 h1.raiseIdle) (.refl u)
theorem execRaiseDone_keeps (s : State) (port : Nat) : KeepsOut s (execRaiseDone port s) := by
  unfold Machine.execRaiseDone
  refine State.raiseWrite_keeps _ _ _ _ ?_
  intro u
  extract_lets s1 s2
  have h1 : Keeps u s1 := .foldl _ _ (Keeps.refl _) (fun _ _ => .ite ((Keeps.refl _).fieldOff _ _) (Keeps.refl _))
  have h2 : Keeps u s2 := h1.modRaising _
  exact .ite (Keeps.foldl _ _ h2 (fun _ _ => (Keeps.refl _).flushVectors _)) (Keeps.refl _)

/- The operations of Machine/HostPorts. -/
theorem execPerstN_keeps (s : State) (port : Nat) (kind : PortReset) : KeepsOut s (execPerstN port kind s) := by
  unfold Machine.execPerstN
  refine State.onPort_keeps _ _ _ ?_
  intro u
  extract_lets s1
  have h1 : Keeps u s1 := (Keeps.refl _).portDown _
  exact .ite (h1.modPort _ _) h1
theorem execFlr_keeps (s : State) (port : Nat) : KeepsOut s (execFlr port s) := State.onPort_keeps _ _ _ (fun _ => .ite ((Keeps.refl _).portClear _) (Keeps.refl _))
theorem Keeps.entryEnds {x : State × Nat × Nat} (hx : Keeps s₀ x.1) (port : Nat) (e : CutEntry) : Keeps s₀ (State.entryEnds x port e) := hx.emitPort _ _
theorem execSegIn_keeps (s : State) (port parcel : Nat) (e : CutEntry) : KeepsOut s (execSegIn port parcel e s) :=
  .ite .refused (.next (.ite (.refl s) (Keeps.entryEnds (Keeps.segIn (.refl s) _ _) _ _)))
theorem execSegOut_keeps (s : State) (port parcel : Nat) (e : CutEntry) : KeepsOut s (execSegOut port parcel e s) :=
  .ite .refused (.next (.ite (.refl s) (Keeps.entryEnds (Keeps.segOut (.refl s) _ _ _) _ _)))
theorem execBar2Write_keeps (s : State) (port off : Nat) (d : HostWrite) : KeepsOut s (execBar2Write port off d s) := by
  unfold Machine.execBar2Write
  refine State.onPort_keeps _ _ _ ?_
  intro u
  extract_lets _ s1
  have h1 : Keeps u s1 := (Keeps.refl _).modPort _ _
  exact .ite (Keeps.refl _) (Keeps.ite ((Keeps.refl _).holdWrite _ _) (h1.write.portServe _))
theorem execBar2Read_keeps (s : State) (port off len : Nat) : KeepsOut s (execBar2Read port off len s) :=
  State.onPort_keeps _ _ _ (fun _ => .ite (Keeps.refl _) (((Keeps.refl _).modPort _ _).portServe _))
theorem execBar2ReadTimeout_keeps (s : State) (port off len : Nat) : KeepsOut s (execBar2ReadTimeout port off len s) :=
  State.onPort_keeps _ _ _ (fun _ => .ite ((((Keeps.refl _).modPort _ _).portErr _ _).emit _) (Keeps.refl _))
theorem Keeps.keepLatch (hs : Keeps s₀ s) (k : Nat) (w : Word) : Keeps s₀ (s.keepLatch k w) := hs.write
theorem execCounterLowRead_keeps (s : State) (r : Reader) (c : CounterName) : KeepsOut s (execCounterLowRead r c s) := by
  unfold Machine.execCounterLowRead
  extract_lets _
  split
  · refine State.onPort_keeps _ _ _ ?_
    intro u
    split
    · exact Keeps.refl _
    · split
      · exact (Keeps.refl _).keepLatch _ _
      · exact (Keeps.refl _).keepLatch _ _
      · exact Keeps.refl _
  · split
    · exact .next (Keeps.ite ((Keeps.refl _).keepLatch _ _) (Keeps.refl _))
    · exact .next (Keeps.refl _)
    · split
      · exact .refused
      · exact .next (Keeps.ite ((Keeps.refl _).keepLatch _ _) (Keeps.refl _))
theorem execCounterSatClear_keeps (s : State) (u : CounterUnit) (sameCycleEvent : Bool) : KeepsOut s (execCounterSatClear u sameCycleEvent s) := by
  unfold Machine.execCounterSatClear
  split
  · exact .refused
  · refine .next ?_
    split
    · exact (Keeps.refl _).modPort _ _
    · exact Keeps.refl _
theorem Keeps.writeFastCap (hs : Keeps s₀ s) (v : Word) : Keeps s₀ (s.writeFastCap v) := .ite (hs.modTrellis _) (hs.modTrellis _)
theorem execTrlFastCap_keeps (s : State) (port : Nat) (value : Word) : KeepsOut s (execTrlFastCap port value s) :=
  State.barWrite_keeps _ _ _ _ (fun _ => .ite ((Keeps.refl _).writeFastCap _) (Keeps.refl _))
theorem execFastCapEffect_keeps (s : State) : KeepsOut s (execFastCapEffect s) := by
  unfold Machine.execFastCapEffect
  refine .next ?_
  split
  · exact (Keeps.refl _).modTrellis _
  · exact Keeps.refl _
theorem Keeps.forceSwitch (hs : Keeps s₀ s) (p : Nat) : Keeps s₀ (s.forceSwitch p) := by
  unfold State.forceSwitch
  extract_lets _ _ _
  split
  · exact hs.modPrt _
  · split
    · exact hs.modPrt _
    · extract_lets s1
      have h1 : Keeps s₀ s1 := .ite (hs.modPrt _) hs
      exact .ite (((Keeps.foldl _ _ h1 (fun _ _ => (Keeps.refl _).vfabTo _ _)).modTr _ _).risen _) (h1.sendSwitch _ _ _)
theorem Keeps.writeFsw (hs : Keeps s₀ s) (v : Word) : Keeps s₀ (s.writeFsw v) := by
  unfold State.writeFsw
  extract_lets s1
  have h1 : Keeps s₀ s1 := hs.modPrt _
  exact .ite (h1.forceSwitch _) h1
theorem execPrtFsw_keeps (s : State) (port : Nat) (value : Word) : KeepsOut s (execPrtFsw port value s) :=
  State.barWrite_keeps _ _ _ _ (fun _ => .ite ((Keeps.refl _).writeFsw _) (Keeps.refl _))
theorem Keeps.writeInjCtrl (hs : Keeps s₀ s) (v : Word) : Keeps s₀ (s.writeInjCtrl v) := by
  unfold State.writeInjCtrl
  extract_lets s1
  have h1 : Keeps s₀ s1 := hs.modPrt _
  exact .ite (h1.modPrt _) h1
theorem execPrtInjGo_keeps (s : State) (port : Nat) (value : Word) : KeepsOut s (execPrtInjGo port value s) :=
  State.barWrite_keeps _ _ _ _ (fun _ => .ite ((Keeps.refl _).writeInjCtrl _) (Keeps.refl _))
theorem Keeps.freeFields (hs : Keeps s₀ s) (ks : List Nat) : Keeps s₀ (s.freeFields ks).2 := by
  induction ks generalizing s with
  | nil => exact hs
  | cons k ks ih => exact ih hs.fresh
theorem Keeps.injected (hs : Keeps s₀ s) (r : Report) (known : List (Nat × Nat)) (open_ : List Nat) : Keeps s₀ (s.injected r known open_) := (hs.freeFields _).report _
theorem Keeps.injectOne (hs : Keeps s₀ s) (p unit sub : Nat) (b : BayId) : Keeps s₀ (s.injectOne p unit sub b).1 := by
  unfold State.injectOne
  split
  · exact (hs.modBay _ _).pair
  · exact (hs.modBay _ _).pair
  · exact (hs.modBay _ _).pair
  · split
    · exact (hs.caskCount _ _ _).pair
    · exact hs.pair
  · split
    · exact (hs.fresh.symbolCorrected _ _).pair
    · exact hs.pair
  · exact hs.pair
theorem Keeps.injectTwo (hs : Keeps s₀ s) (p unit sub : Nat) (b : BayId) : Keeps s₀ (s.injectTwo p unit sub b) := by
  unfold State.injectTwo
  extract_lets _ _ _ s1
  have h1 : Keeps s₀ s1.2 := hs.fresh
  split
  · exact hs.modBay _ _
  · exact hs.injected _ _ _
  · exact hs.injected _ _ _
  · exact hs.injected _ _ _
  · split
    · exact hs.modCask _ _
    · exact hs
  · split
    · exact h1.modCask _ _
    · exact hs
  · exact hs.injected _ _ _
  · exact hs.injected _ _ _
  · exact hs.injected _ _ _
  · exact hs.injected _ _ _
  · exact hs
theorem execInjection_keeps (s : State) : KeepsOut s (execInjection s) := by
  unfold Machine.execInjection
  refine .next ?_
  split
  · extract_lets _ _ _ _ _ _ _ s1 s2
    have h1 : Keeps s s1 := (Keeps.refl _).modPrt _
    have h2 : Keeps s s2.1 := h1.injectOne _ _ _ _
    exact .ite (Keeps.ite h2 (h1.injectTwo _ _ _ _)) (Keeps.refl _)
  · exact Keeps.refl _
theorem Keeps.slotPut (hs : Keeps s₀ s) (port slot off : Nat) (data : Bytes) : Keeps s₀ (s.slotPut port slot off data) := .ite (hs.strayWrite _) (hs.modPort _ _)
theorem execSlotWrite_keeps (s : State) (port slot off : Nat) (data : Bytes) : KeepsOut s (execSlotWrite port slot off data s) := by
  unfold Machine.execSlotWrite
  split
  · exact .refused
  · exact .next (Keeps.ite ((Keeps.refl _).holdWrite _ _) (Keeps.ite ((Keeps.refl _).slotPut _ _ _ _) (Keeps.refl _)))
theorem Keeps.stagePut (hs : Keeps s₀ s) (port off : Nat) (data : Bytes) : Keeps s₀ (s.stagePut port off data) := .ite (hs.modRaising _) hs
theorem execStagingWindowWrite_keeps (s : State) (port off : Nat) (data : Bytes) : KeepsOut s (execStagingWindowWrite port off data s) :=
  State.barWrite_keeps _ _ _ _ (fun _ => .ite ((Keeps.refl _).stagePut _ _ _) (Keeps.refl _))
theorem Keeps.writeRaise (hs : Keeps s₀ s) (port off : Nat) (v : Word) : Keeps s₀ (s.writeRaise port off v) := by
  unfold State.writeRaise
  split
  · exact .ite (hs.claimBy _) hs
  · split
    · exact hs
    · split
      · exact .ite (hs.modRaising _) hs
      · exact .ite (hs.raiseAccept _ _ _ _) (Keeps.ite (Keeps.ite (hs.modRaising _) hs) (Keeps.ite (Keeps.ite (hs.modRaising _) hs) hs))
theorem Keeps.writeMailbox (hs : Keeps s₀ s) (port off : Nat) (v : Word) : Keeps s₀ (s.writeMailbox port off v) :=
  .ite (hs.modPort _ _) (Keeps.ite (hs.modPort _ _) (Keeps.ite (Keeps.ite (hs.modPort _ _) hs) (Keeps.ite (Keeps.ite (hs.giveSlot _ _ _) hs) hs)))
theorem Keeps.writeTel (hs : Keeps s₀ s) (port off : Nat) (v : Word) : Keeps s₀ (s.writeTel port off v) :=
  .ite hs (Keeps.ite (hs.writeFastCap _) (Keeps.ite (hs.modTrellis _) hs))
theorem Keeps.writePrt (hs : Keeps s₀ s) (port off : Nat) (v : Word) : Keeps s₀ (s.writePrt port off v) :=
  .ite hs (Keeps.ite (hs.modPrt _) (Keeps.ite (hs.writeFsw _) (Keeps.ite (hs.writeInjCtrl _) (hs.modPrt _))))
theorem Keeps.writeMsix (hs : Keeps s₀ s) (port off : Nat) (v : Word) : Keeps s₀ (s.writeMsix port off v) := by
  unfold State.writeMsix
  extract_lets _ _
  exact .ite hs (Keeps.ite ((hs.modPort _ _).flushVectors _) (hs.modPort _ _))
theorem Keeps.writeReg (hs : Keeps s₀ s) (port off : Nat) (v : Word) : Keeps s₀ (s.writeReg port off v) := by
  unfold State.writeReg
  extract_lets _
  split
  · exact .ite (hs.modPort _ _) hs
  · exact hs.writeRaise _ _ _
  · exact hs.writeMailbox _ _ _
  · exact .ite (hs.modPort _ _) (Keeps.ite (hs.modPort _ _) hs)
  · exact hs.writeTel _ _ _
  · exact hs.writePrt _ _ _
  · exact hs.writeMsix _ _ _
  · exact .ite (hs.slotPut _ _ _ _) (Keeps.ite (hs.stagePut _ _ _) hs)
theorem execRegisterWrite_keeps (s : State) (port off : Nat) (value : Word) : KeepsOut s (execRegisterWrite port off value s) :=
  State.barWrite_keeps _ _ _ _ (fun _ => .ite ((Keeps.refl _).writeReg _ _ _) (Keeps.refl _))

/- The operations of Machine/Lath. -/
theorem Keeps.resendLoad (hs : Keeps s₀ s) (b : BayId) (m : LoadMsg) : Keeps s₀ (s.resendLoad b m) := hs.emit _
theorem Keeps.load (hs : Keeps s₀ s) (m : LoadMsg) (micro : Bool) (f : Bay → Bay) : Keeps s₀ (s.load m micro f) :=
  .foldl _ _ hs (fun _ _ => .ite (Keeps.ite ((Keeps.refl _).modBay _ _) ((((Keeps.refl _).modBay _ _).emit _).resendLoad _ _)) (Keeps.refl _))
theorem execPlan_keeps (s : State) (m : LoadMsg) : KeepsOut s (execPlan m s) := .next (Keeps.ite ((Keeps.refl _).load _ _ _) (Keeps.refl _))
theorem execPegtab_keeps (s : State) (m : LoadMsg) : KeepsOut s (execPegtab m s) := .next (Keeps.ite ((Keeps.refl _).load _ _ _) (Keeps.refl _))
theorem execMicro_keeps (s : State) (m : LoadMsg) : KeepsOut s (execMicro m s) := .next (Keeps.ite ((Keeps.refl _).load _ _ _) (Keeps.refl _))
theorem Keeps.nodeCount (hs : Keeps s₀ s) (n : LathNode) (i k : Nat) : Keeps s₀ (s.nodeCount n i k) := by
  unfold State.nodeCount
  split
  · exact hs.modBay _ _
  · exact hs.modField _ _
  · exact hs.write
theorem Keeps.lathLost (hs : Keeps s₀ s) (n : LathNode) (cls : LathClass) : Keeps s₀ (s.lathLost n cls) := by
  unfold State.lathLost
  split
  · exact hs
  · exact .foldl _ _ (hs.report _) (fun _ _ => (Keeps.refl _).modInv _ _)
theorem Keeps.tokenLost (hs : Keeps s₀ s) (m : LathMsg) : Keeps s₀ (s.tokenLost m) := by
  unfold State.tokenLost
  extract_lets _ _ _
  split
  · exact hs.modInv _ _
  · exact hs
theorem Keeps.loadAt (hs : Keeps s₀ s) (b : BayId) (m : LathMsg) : Keeps s₀ (s.loadAt b m) := by
  unfold State.loadAt
  extract_lets _ _ _
  split
  · exact hs
  · split
    · exact .ite (hs.load _ _ _) hs
    · exact .ite (hs.load _ _ _) hs
    · exact .ite (hs.load _ _ _) hs
    · exact hs
theorem Keeps.cmdAt (hs : Keeps s₀ s) (f : Nat) (m : LathMsg) : Keeps s₀ (s.cmdAt f m) := by
  unfold State.cmdAt
  extract_lets _
  split
  · exact hs.clockSwitch _ _
  · exact hs.clockCancel _ _
  · exact .foldl _ _ hs (fun _ _ => (Keeps.refl _).clockAlign _ _)
  · exact hs.clockEpoch _ _
  · exact .ite (hs.lateCommand _ _) hs
theorem Keeps.cmdAtBay (hs : Keeps s₀ s) (b : BayId) (m : LathMsg) : Keeps s₀ (s.cmdAtBay b m) := .ite hs (Keeps.ite (hs.report _) hs)
theorem Keeps.regEnds (hs : Keeps s₀ s) (n : LathNode) : Keeps s₀ (s.regEnds n) := hs.write
theorem Keeps.regLost (hs : Keeps s₀ s) (n : LathNode) (m : LathMsg) : Keeps s₀ (s.regLost n m) := (hs.regEnds _).write
theorem Keeps.msgLost (hs : Keeps s₀ s) (n : LathNode) (m : LathMsg) : Keeps s₀ (s.msgLost n m) := by
  unfold State.msgLost
  split
  · exact (hs.tokenLost _).lathLost _ _
  · exact hs.lathLost _ _
  · exact hs.lathLost _ _
  · exact hs.regLost _ _
  · exact (hs.emit _).resendLoad _ _
  · exact hs
theorem execLathMessageReceive_keeps (s : State) (node : LathNode) (m : LathMsg) (ecc : List Ecc) : KeepsOut s (execLathMessageReceive node m ecc s) := by
  unfold Machine.execLathMessageReceive
  extract_lets _ _ s1
  have h1 : Keeps s s1 := ((Keeps.refl _).nodeCount _ _ _).nodeCount _ _ _
  split
  · exact .refused
  · split
    · exact .next (Keeps.refl _)
    · refine .next ?_
      split
      · exact h1.msgLost _ _
      · split
        · exact h1
        · split
          · exact h1.cmdAt _ _
          · exact h1.cmdAtBay _ _
          · exact h1.loadAt _ _
          · exact h1.regEnds _
          · exact h1
theorem Keeps.checkField (hs : Keeps s₀ s) (p ord exp f : Nat) : Keeps s₀ (s.checkField p ord exp f) := .ite hs (hs.report _)
theorem Keeps.pegCheck (hs : Keeps s₀ s) (p : Nat) : Keeps s₀ (s.pegCheck p) := by
  unfold State.pegCheck
  split
  · exact hs
  · extract_lets _ _ _ _ s1 s2 s3
    have h1 : Keeps s₀ s1 := .foldl _ _ hs (fun _ _ => (Keeps.refl _).checkField _ _ _ _)
    have h2 : Keeps s₀ s2 := .foldl _ _ h1 (fun _ _ => (Keeps.refl _).modField _ _)
    have h3 : Keeps s₀ s3 := h2.pegLevers _ _
    exact h3.modInv _ _
theorem execPegCheck_keeps (s : State) (parcel : Nat) : KeepsOut s (execPegCheck parcel s) := by
  unfold Machine.execPegCheck
  split
  · exact .refused
  · exact .next (Keeps.ite ((Keeps.refl _).pegCheck _) (Keeps.refl _))

/- The operations of Machine/Power. -/
theorem Keeps.logicLost (hs : Keeps s₀ s) : Keeps s₀ s.logicLost :=
  hs.trans ⟨fun _ => ⟨⟨rfl, rfl, rfl, rfl, rfl, rfl, rfl⟩, fun _ => rfl, FaultLog.empty_sound _ rfl, rfl⟩, .refl s.sealU, rfl⟩
theorem Keeps.powerDown (hs : Keeps s₀ s) : Keeps s₀ (s.powerDown) := hs.logicLost.write
theorem Keeps.powerUp (hs : Keeps s₀ s) : Keeps s₀ (s.powerUp) := hs.write
theorem Keeps.tryPower (hs : Keeps s₀ s) : Keeps s₀ (s.tryPower) := .ite hs.powerUp hs
theorem execHvEnAssert_keeps (s : State) : KeepsOut s (execHvEnAssert s) := by
  unfold Machine.execHvEnAssert
  extract_lets _ _ s1
  have h1 : Keeps s s1 := (Keeps.refl _).write
  exact .next (Keeps.ite (Keeps.refl _) (Keeps.ite h1 h1.tryPower))
theorem execHvEnDeassert_keeps (s : State) : KeepsOut s (execHvEnDeassert s) := by
  unfold Machine.execHvEnDeassert
  extract_lets s1 _
  have h1 : Keeps s s1 := (Keeps.refl _).powerDown
  exact .next (Keeps.ite h1.write (Keeps.refl _))
theorem execPlateResetExit_keeps (s : State) : KeepsOut s (execPlateResetExit s) := by
  unfold Machine.execPlateResetExit
  extract_lets _ _
  exact .next (Keeps.ite (Keeps.refl _).write (Keeps.refl _))
theorem Keeps.moduleReset (hs : Keeps s₀ s) : Keeps s₀ (s.moduleReset) := hs.logicLost.write
theorem execModResetN_keeps (s : State) (widthNs : Nat) : KeepsOut s (execModResetN widthNs s) := .next (Keeps.ite ((Keeps.refl _).moduleReset) (Keeps.refl _))
theorem execThermtripN_keeps (s : State) (src : TripSource) : KeepsOut s (execThermtripN src s) := by
  unfold Machine.execThermtripN
  extract_lets _ _ s1
  have h1 : Keeps s s1 := (Keeps.refl _).write
  split
  · exact .next (h1.powerDown.emit _)
  · exact .refused
theorem Keeps.pwrEvent (hs : Keeps s₀ s) (k unit x idx : Nat) (p : Option Nat) (masked : Bool) : Keeps s₀ (s.pwrEvent k unit x idx p masked) :=
  .ite (hs.powerEvent _ _ _ _ _ _ _) hs
theorem Keeps.keepLast (hs : Keeps s₀ s) : Keeps s₀ s.keepLast := by
  unfold State.keepLast
  split
  · exact hs.writeLog id
  · exact hs
theorem Keeps.idleSlow (hs : Keeps s₀ s) (p : Nat) : Keeps s₀ (s.idleSlow p) := hs.idleTo _ _
theorem execInputLoss_keeps (s : State) (pulled : Bool) : KeepsOut s (execInputLoss pulled s) := by
  unfold Machine.execInputLoss
  extract_lets _ _ s1 s2
  have h1 : Keeps s s1 := (Keeps.refl _).write
  have h2 : Keeps s s2 := ((h1.pwrEvent _ _ _ _ _ _).keepLast).contractSees _
  exact .next (Keeps.ite (Keeps.foldl _ _ h2 (fun _ _ => .ite ((Keeps.refl _).askPark _ _) (Keeps.ite ((Keeps.refl _).idleSlow _) (Keeps.refl _)))) h1)
theorem execInputReturned_keeps (s : State) : KeepsOut s (execInputReturned s) := by
  unfold Machine.execInputReturned
  extract_lets _
  exact .next (Keeps.ite (Keeps.refl _).write (Keeps.refl _))
theorem execInputRestored_keeps (s : State) : KeepsOut s (execInputRestored s) := by
  unfold Machine.execInputRestored
  extract_lets _ s1 s2
  have h1 : Keeps s s1 := (Keeps.refl _).write
  have h2 : Keeps s s2 := h1.pwrEvent _ _ _ _ _ _
  exact .next (Keeps.ite (Keeps.ite h2.tryPower h2) (Keeps.refl _))
theorem execRideThroughEnd_keeps (s : State) : KeepsOut s (execRideThroughEnd s) := by
  unfold Machine.execRideThroughEnd
  extract_lets s1 _
  have h1 : Keeps s s1 := (Keeps.refl _).powerDown
  exact .next (Keeps.ite h1.write (Keeps.refl _))
theorem execConverterDegraded_keeps (s : State) (k : Nat) : KeepsOut s (execConverterDegraded k s) := by
  unfold Machine.execConverterDegraded
  extract_lets _ s1 s2
  have h1 : Keeps s s1 := (Keeps.refl _).write
  have h2 : Keeps s s2 := h1.pwrEvent _ _ _ _ _ _
  split
  · exact .refused
  · exact .next (Keeps.ite (Keeps.ite h2.powerDown h2) (Keeps.refl _))
theorem execBusCollapse_keeps (s : State) : KeepsOut s (execBusCollapse s) := .next (Keeps.ite (((Keeps.refl _).pwrEvent _ _ _ _ _ _).powerDown) (Keeps.refl _))
theorem execInsulationCheck_keeps (s : State) (plusKohm minusKohm : Nat) : KeepsOut s (execInsulationCheck plusKohm minusKohm s) := by
  unfold Machine.execInsulationCheck
  extract_lets _ _ s1
  have h1 : Keeps s s1 := (Keeps.refl _).write
  exact .next (Keeps.ite (h1.pwrEvent _ _ _ _ _ _) h1)
theorem Keeps.fieldDark (hs : Keeps s₀ s) (f : Nat) : Keeps s₀ (s.fieldDark f) := ((hs.fieldFails _).hubDown _).darkField _
theorem Keeps.supplyLost (hs : Keeps s₀ s) (f : Nat) : Keeps s₀ (s.supplyLost f) := by
  unfold State.supplyLost
  extract_lets s1 s2
  have h1 : Keeps s₀ s1 := hs.pwrEvent _ _ _ _ _ _
  have h2 : Keeps s₀ s2 := h1.modField _ _
  exact .ite hs ((h2.modEsc _).fieldDark _)
theorem Keeps.fallback (hs : Keeps s₀ s) (f : Nat) : Keeps s₀ (s.fallback f) := by
  unfold State.fallback
  extract_lets s1 s2
  have h1 : Keeps s₀ s1 := hs.modField _ _
  have h2 : Keeps s₀ s2 := h1.pwrEvent _ _ _ _ _ _
  exact .ite hs (Keeps.ite (h2.supplyLost _) h2)
theorem execPhaseDegraded_keeps (s : State) (field phase : Nat) : KeepsOut s (execPhaseDegraded field phase s) := by
  unfold Machine.execPhaseDegraded
  split
  · exact .refused
  · refine State.onField_keeps _ _ _ ?_
    intro u
    extract_lets _ s1 s2
    have h1 : Keeps u s1 := (Keeps.refl _).modField _ _
    have h2 : Keeps u s2 := h1.pwrEvent _ _ _ _ _ _
    exact .ite (Keeps.refl _) (Keeps.ite (h2.fallback _) h2)
theorem execFallbackActive_keeps (s : State) (field : Nat) : KeepsOut s (execFallbackActive field s) :=
  State.onField_keeps _ _ _ (fun _ => .ite ((Keeps.refl _).fallback _) (Keeps.refl _))
theorem execVerticalDegraded_keeps (s : State) (field : Nat) : KeepsOut s (execVerticalDegraded field s) := by
  unfold Machine.execVerticalDegraded
  refine State.onField_keeps _ _ _ ?_
  intro u
  extract_lets s1 s2
  have h1 : Keeps u s1 := (Keeps.refl _).modField _ _
  have h2 : Keeps u s2 := h1.pwrEvent _ _ _ _ _ _
  exact .ite (Keeps.refl _) (Keeps.ite (h2.supplyLost _) h2)
theorem Keeps.retireBent (hs : Keeps s₀ s) (f b slice : Nat) : Keeps s₀ (s.retireBent f b slice) := by
  unfold State.retireBent
  extract_lets s1 s2
  have h1 : Keeps s₀ s1 := hs.modBent _ _ _
  have h2 : Keeps s₀ s2 := h1.pwrEvent _ _ _ _ _ _
  exact .ite hs ((h2.modEsc _).fieldDark _)
theorem execTrimDegraded_keeps (s : State) (field bent slice : Nat) : KeepsOut s (execTrimDegraded field bent slice s) := by
  unfold Machine.execTrimDegraded
  split
  · exact .refused
  · exact State.onField_keeps _ _ _ (fun _ => .ite (Keeps.refl _) (Keeps.ite (((Keeps.refl _).modBent _ _ _).pwrEvent _ _ _ _ _ _) ((Keeps.refl _).retireBent _ _ _)))
theorem execBentRetired_keeps (s : State) (field bent slice : Nat) : KeepsOut s (execBentRetired field bent slice s) := by
  unfold Machine.execBentRetired
  split
  · exact .refused
  · exact State.onField_keeps _ _ _ (fun _ => .ite (Keeps.refl _) ((Keeps.refl _).retireBent _ _ _))
theorem execStrutInject_keeps (s : State) (x : StrutSense) : KeepsOut s (execStrutInject x s) := by
  unfold Machine.execStrutInject
  extract_lets _ _ _
  split
  · refine .next ?_
    split
    · exact (((Keeps.refl _).fresh).modField _ _).emit _
    · exact Keeps.refl _
  · exact .refused
theorem Keeps.crackEvent (hs : Keeps s₀ s) (f g : Nat) (open_ : Bool) : Keeps s₀ (s.crackEvent f g open_) := by
  unfold State.crackEvent
  extract_lets _ s1
  have h1 : Keeps s₀ s1 := hs.modField _ _
  exact .ite hs (h1.pwrEvent _ _ _ _ _ _)
theorem Keeps.crackJudge (hs : Keeps s₀ s) (f : Nat) : Keeps s₀ (s.crackJudge f) :=
  .foldl _ _ (hs.modField _ _) (fun _ _ => .ite ((Keeps.refl _).crackEvent _ _ _) (Keeps.ite ((Keeps.refl _).crackEvent _ _ _) (Keeps.refl _)))
theorem execCrackCheck_keeps (s : State) (field : Nat) (drops : List (Nat × Nat)) (currents : List (Nat × Nat)) : KeepsOut s (execCrackCheck field drops currents s) := by
  unfold Machine.execCrackCheck
  refine State.onField_keeps _ _ _ ?_
  intro u
  extract_lets _ s1
  have h1 : Keeps u s1 := (Keeps.refl _).modField _ _
  exact .ite (Keeps.refl _) (Keeps.ite (h1.crackJudge _) h1)
theorem execFieldShort_keeps (s : State) (field : Nat) : KeepsOut s (execFieldShort field s) :=
  State.onField_keeps _ _ _ (fun _ => .ite (Keeps.refl _) ((((Keeps.refl _).fieldTrips _ _).fieldFails _).darkField _))
theorem execFieldSupplyLost_keeps (s : State) (field : Nat) : KeepsOut s (execFieldSupplyLost field s) :=
  State.onField_keeps _ _ _ (fun _ => .ite ((Keeps.refl _).supplyLost _) (Keeps.refl _))
theorem execPlateLathLost_keeps (s : State) : KeepsOut s (execPlateLathLost s) := by
  unfold Machine.execPlateLathLost
  extract_lets _ s1 s2
  have h1 : Keeps s s1 := .foldl _ _ (Keeps.refl _) (fun _ _ => .foldl _ _ (Keeps.refl _) (fun _ _ => (Keeps.refl _).report _))
  have h2 : Keeps s s2 := .foldl _ _ h1 (fun _ _ => .ite ((Keeps.refl _).fieldFails _) (Keeps.refl _))
  exact .next (Keeps.ite (Keeps.refl _) (Keeps.foldl _ _ h2 (fun _ _ => (Keeps.refl _).loseParcel _)))

/- The operations of Machine/Hardware. -/
theorem execSetEndpointId_keeps (s : State) (bus : SideBus) (eid : BitVec 8) : KeepsOut s (execSetEndpointId bus eid s) := by
  unfold Machine.execSetEndpointId
  extract_lets _ s1
  have h1 : Keeps s s1 := by
    unfold s1
    split
    · exact (Keeps.refl _).write
    · exact (Keeps.refl _).write
  exact .next (Keeps.ite (Keeps.refl _) (Keeps.ite ((Keeps.refl _).emit _) (h1.emit _)))
theorem execSetdasa_keeps (s : State) (dynamicAddr : BitVec 7) (_enter : Bool) : KeepsOut s (execSetdasa dynamicAddr _enter s) := by
  unfold Machine.execSetdasa
  extract_lets _
  exact .next (Keeps.ite (Keeps.refl _).write (Keeps.refl _))
theorem Keeps.linkTrained (hs : Keeps s₀ s) (p speed width : Nat) (refclk : Bool) : Keeps s₀ (s.linkTrained p speed width refclk) := by
  unfold State.linkTrained
  extract_lets _ _ _
  exact .ite hs ((hs.modPort _ _).flushVectors _)
theorem execLinkUp_keeps (s : State) (port : Nat) (speed width : BitVec 4) (refclk : Bool) : KeepsOut s (execLinkUp port speed width refclk s) :=
  State.onPort_keeps _ _ _ (fun _ => .ite ((Keeps.refl _).linkTrained _ _ _ _) (Keeps.refl _))
theorem execD3hot_keeps (s : State) (port : Nat) (enter : Bool) : KeepsOut s (execD3hot port enter s) :=
  State.onPort_keeps _ _ _ (fun _ => .ite (Keeps.refl _) (Keeps.ite ((Keeps.refl _).modPort _ _) (Keeps.ite (Keeps.refl _) ((Keeps.foldl _ _ ((Keeps.refl _).modPort _ _) (fun _ _ => (Keeps.refl _).emit _)).flushVectors _))))
theorem execPluggablePresence_keeps (s : State) (tap : Nat) (present copper identified : Bool) : KeepsOut s (execPluggablePresence tap present copper identified s) := by
  unfold Machine.execPluggablePresence
  extract_lets s1
  have h1 : Keeps s s1 := (Keeps.refl _).modTap _ _
  split
  · exact .refused
  · exact .next (Keeps.ite (Keeps.refl _) (Keeps.ite (h1.tapDown _) h1))
theorem execRegExchangeRetry_keeps (s : State) (node : LathNode) : KeepsOut s (execRegExchangeRetry node s) := by
  unfold Machine.execRegExchangeRetry
  split
  · exact .refused
  · refine .next ?_
    split
    · exact (Keeps.refl _).emit _
    · exact Keeps.refl _
theorem execSummaryWrite_keeps (s : State) : KeepsOut s (execSummaryWrite s) :=
  .next (.ite (.refl s) (Keeps.writeLog (.refl s) (fun h => FaultLog.writeSummary_sound _ _ h)))
theorem execHvEnHoldEnd_keeps (s : State) : KeepsOut s (execHvEnHoldEnd s) := by
  unfold Machine.execHvEnHoldEnd
  refine .next ?_
  split
  · exact Keeps.refl _
  · extract_lets _ _ s1
    have h1 : Keeps s s1 := (Keeps.refl _).write
    exact .ite (Keeps.refl _).write (Keeps.ite h1.tryPower h1)
theorem Keeps.stretchInjected (hs : Keeps s₀ s) (f : Nat) : Keeps s₀ (s.stretchInjected f) := (hs.modField _ _).emit _
theorem execStretchInjection_keeps (s : State) : KeepsOut s (execStretchInjection s) := by
  unfold Machine.execStretchInjection
  extract_lets _ _ _
  exact .next (Keeps.ite (Keeps.foldl _ _ (Keeps.refl _) (fun _ _ => (Keeps.refl _).stretchInjected _)) (Keeps.refl _))
theorem execJtagInstruction_keeps (s : State) (op : JtagOp) : KeepsOut s (execJtagInstruction op s) := .next (Keeps.ite ((Keeps.refl _).emit _) (Keeps.refl _))

/- The operations of Machine/Sequencer. -/
theorem execBundleIssue_keeps (s : State) (b : BayId) (ecc : IssueFound) (pegEcc : Ecc) : KeepsOut s (execBundleIssue b ecc pegEcc s) := by
  unfold Machine.execBundleIssue
  extract_lets _ s1
  have h1 : Keeps s s1 := (Keeps.refl _).runBay _ _
  split
  · exact .refused
  · split
    · exact .next (Keeps.refl _)
    · refine .next ?_
      split
      · exact .ite ((Keeps.ite (h1.firstCount _) h1).seamsCycle _) h1
      · exact h1

/- The operations of Machine/Dispatch. -/
theorem exec_keeps (s : State) (i : Instr) : KeepsOut s (exec i s) := by
  cases i with
  | bundleIssue => exact execBundleIssue_keeps _ _ _ _
  | loop | peg | endPlan | crush | iset | iseth | istep | ild | qset | qmask | qiter | pegOverdue | lda | ldb | setup | kstep | cellAccumulate
    | shim | drain | drainr | drainRowCapture | taste | tasteRowCompare | mode | clrf | iadd | isub | imul | iand | ior | ixor | ishl | ishr | isra
    | imin | imax | icmpEq | icmpLt | icmpLtu | mov | sel | bcast | movc | fabs | fneg | fadd | fsub | fmul | ffma | fmin | fmax | fcmpEq | fcmpLt
    | fcmpLe | cvtI2f | cvtF2i | cvtUnpack | cvtPack | frcp | fsqrt | frsqrt | fexp | fexp2 | flog | flog2 | ftanh | fsigm | fsilu | fgelus | fgelut
    | rsum | rmax | tclr | tacc | tmac | xsum | tsum | tloadc | tstore | tdrain | cgen | lfrd | lfclr | vld | vst | latheResultLand | vfillPattern
    | vfillTun | vcopy | vmode | vpower | bankSleep | bankWake | crd | cwr | cbw | crdDelivery | gather | scatter | scatterAdd | dotSweep
    | softblend | digest | fill | copy | sillOpResult | send | recv | flitArrive => exact State.bayOp_keeps _ _ _ _
  | lathMessageReceive => exact execLathMessageReceive_keeps _ _ _ _
  | pegCheck => exact execPegCheck_keeps _ _
  | plan => exact execPlan_keeps _ _
  | pegtab => exact execPegtab_keeps _ _
  | micro => exact execMicro_keeps _ _
  | claim => exact execClaim_keeps _ _
  | verifyFw => exact execVerifyFw_keeps _ _
  | startCmst => exact execStartCmst_keeps _ _
  | cmstReady => exact execCmstReady_keeps _
  | verifyConfig => exact execVerifyConfig_keeps _ _ _ _ _
  | raise => exact execRaise_keeps _ _ _ _ _
  | unpark => exact execUnpark_keeps _ _ _ _
  | raiseStepTimeout => exact execRaiseStepTimeout_keeps _ _
  | raiseDone => exact execRaiseDone_keeps _ _
  | perstN => exact execPerstN_keeps _ _ _
  | flr => exact execFlr_keeps _ _
  | give => exact execGive_keeps _ _ _ _
  | bar2Write => exact execBar2Write_keeps _ _ _ _
  | bar2Read => exact execBar2Read_keeps _ _ _ _
  | bar2ReadTimeout => exact execBar2ReadTimeout_keeps _ _ _ _
  | segIn => exact execSegIn_keeps _ _ _ _
  | segOut => exact execSegOut_keeps _ _ _ _
  | msg => exact execMsg_keeps _ _ _ _
  | counterLowRead => exact execCounterLowRead_keeps _ _ _
  | counterSatClear => exact execCounterSatClear_keeps _ _ _
  | registerWrite => exact execRegisterWrite_keeps _ _ _ _
  | trlFastCap => exact execTrlFastCap_keeps _ _ _
  | fastCapEffect => exact execFastCapEffect_keeps _
  | prtFsw => exact execPrtFsw_keeps _ _ _
  | prtInjGo => exact execPrtInjGo_keeps _ _ _
  | injection => exact execInjection_keeps _
  | sysInfo => exact State.request_keeps _ _ _ _ _ _ (fun _ => (Keeps.refl _).hSysInfo)
  | sysPrincipalMove => exact State.request_keeps _ _ _ _ _ _ (fun _ => (Keeps.refl _).hPrincipalMove _ _ _ _ _)
  | parcelCreate => exact State.request_keeps _ _ _ _ _ _ (fun _ => (Keeps.refl _).hCreate _ _ _ _ _ _ _ _)
  | parcelDelete => exact State.request_keeps _ _ _ _ _ _ (fun _ => (Keeps.refl _).hDelete _)
  | parcelAssign => exact State.request_keeps _ _ _ _ _ _ (fun _ => (Keeps.refl _).hAssign _ _)
  | parcelPark => exact State.request_keeps _ _ _ _ _ _ (fun _ => (Keeps.refl _).hPark _ _)
  | parcelResume => exact State.request_keeps _ _ _ _ _ _ (fun _ => (Keeps.refl _).hResume _ _)
  | parcelStatus => exact State.request_keeps _ _ _ _ _ _ (fun _ => (Keeps.refl _).replies)
  | imageLoad => exact State.request_keeps _ _ _ _ _ _ (fun _ => (Keeps.refl _).hImageLoad _ _ _ _)
  | imageUnload => exact State.request_keeps _ _ _ _ _ _ (fun _ => (Keeps.refl _).hUnload _)
  | imageInfo => exact State.request_keeps _ _ _ _ _ _ (fun _ => (Keeps.refl _).hImageInfo _ _ _)
  | caskWindowSet => exact State.request_keeps _ _ _ _ _ _ (fun _ => (Keeps.refl _).hWindowSet _ _ _ _ _)
  | caskWindowClear => exact State.request_keeps _ _ _ _ _ _ (fun _ => (Keeps.refl _).hWindowClear _ _ _)
  | caskTransfer => exact execCaskTransfer_keeps _ _ _ _
  | caskRegionClose => exact State.request_keeps _ _ _ _ _ _ (fun _ => (Keeps.refl _).hRegionClose _ _ _ _)
  | regionDigestDone => exact execRegionDigestDone_keeps _ _ _
  | caskStaveFail => exact State.request_keeps _ _ _ _ _ _ (fun _ => (Keeps.refl _).hStaveFail _ _)
  | caskStatus => exact State.request_keeps _ _ _ _ _ _ (fun _ => (Keeps.refl _).hCaskStatus _ _)
  | staveFailing cask stave cause => exact execStaveFailing_keeps s cask stave cause
  | staveSpared => exact execStaveSpared_keeps _ _
  | restStarved => exact execRestStarved_keeps _ _ _ _
  | vatRetentionScrub => exact execVatRetentionScrub_keeps _ _ _ _
  | planScrub b ce ue => exact execPlanScrub_keeps s b ce ue
  | patrolScrub => exact execPatrolScrub_keeps _ _ _ _
  | rackOpen => exact State.request_keeps _ _ _ _ _ _ (fun _ => (Keeps.refl _).hRackOpen _ _)
  | rackClose => exact State.request_keeps _ _ _ _ _ _ (fun _ => (Keeps.refl _).hRackClose _ _)
  | rackStatus => exact State.request_keeps _ _ _ _ _ _ (fun _ => (Keeps.refl _).hRackStatus _ _)
  | runStart => exact State.request_keeps _ _ _ _ _ _ (fun _ => (Keeps.refl _).hRunStart _ _ _ _)
  | runAbort => exact State.request_keeps _ _ _ _ _ _ (fun _ => (Keeps.refl _).hRunAbort _ _)
  | runResult => exact State.request_keeps _ _ _ _ _ _ (fun _ => (Keeps.refl _).hRunResult _ _)
  | vintageDrawRequest => exact State.request_keeps _ _ _ _ _ _ (fun _ => (Keeps.refl _).hVintageDraw _ _)
  | vintageExport => exact State.request_keeps _ _ _ _ _ _ (fun _ => (Keeps.refl _).hVintageExport _ _ _ _ _)
  | vintageRestore => exact State.request_keeps _ _ _ _ _ _ (fun _ => (Keeps.refl _).hVintageRestore _ _)
  | vintageStatus => exact State.request_keeps _ _ _ _ _ _ (fun _ => (Keeps.refl _).hVintageStatus _)
  | powerCapSet => exact State.request_keeps _ _ _ _ _ _ (fun _ => (Keeps.refl _).hCapSet _ _)
  | powerShareSet => exact State.request_keeps _ _ _ _ _ _ (fun _ => (Keeps.refl _).hShareSet _ _ _)
  | powerLeaseSet => exact State.request_keeps _ _ _ _ _ _ (fun _ => (Keeps.refl _).hLeaseSet _ _ _ _)
  | powerContractSet => exact State.request_keeps _ _ _ _ _ _ (fun _ => (Keeps.refl _).hContractSet _ _ _ _)
  | powerForecast => exact State.request_keeps _ _ _ _ _ _ (fun _ => (Keeps.refl _).hForecast)
  | powerStatus => exact State.request_keeps _ _ _ _ _ _ (fun _ => (Keeps.refl _).hPowerStatus)
  | powerSidebandSet => exact State.request_keeps _ _ _ _ _ _ (fun _ => (Keeps.refl _).hSidebandSet _)
  | soundRun => exact State.request_keeps _ _ _ _ _ _ (fun _ => (Keeps.refl _).hSoundRun _ _ _ _)
  | faultLog => exact State.request_keeps _ _ _ _ _ _ (fun _ => (Keeps.refl _).hFaultLog _ _ _ _)
  | faultSummary => exact State.request_keeps _ _ _ _ _ _ (fun _ => (Keeps.refl _).hFaultSummary)
  | faultLogClear => exact State.request_keeps _ _ _ _ _ _ (fun _ => (Keeps.refl _).hLogClear _)
  | faultCounters => exact State.request_keeps _ _ _ _ _ _ (fun _ => (Keeps.refl _).hFaultCounters _ _ _ _ _)
  | tapConfig => exact State.request_keeps _ _ _ _ _ _ (fun _ => (Keeps.refl _).hTapConfig _ _ _)
  | tapKeySet => exact State.request_keeps _ _ _ _ _ _ (fun _ => (Keeps.refl _).hTapKeySet _ _ _)
  | tapStatus => exact State.request_keeps _ _ _ _ _ _ (fun _ => (Keeps.refl _).hTapStatus _ _)
  | tapLinkChange => exact execTapLinkChange_keeps _ _ _ _
  | frameReceive => exact execFrameReceive_keeps _ _
  | arpRequest => exact execArpRequest_keeps _ _ _ _ _ _
  | neighbourSolicitation => exact execNeighbourSolicitation_keeps _ _ _ _ _ _
  | echoRequest => exact execEchoRequest_keeps _ _ _ _ _ _ _
  | readReq => exact State.rackIn_keeps _ _ _ _ _ (fun _ _ => (Keeps.refl _).readReqIn _ _ _ _)
  | data => exact State.rackIn_keeps _ _ _ _ _ (fun _ _ => (Keeps.refl _).dataIn _ _ _)
  | sack => exact State.rackIn_keeps _ _ _ _ _ (fun _ _ => (Keeps.refl _).sackIn _ _)
  | credit => exact State.rackIn_keeps _ _ _ _ _ (fun _ _ => (Keeps.refl _).creditIn _ _)
  | fail => exact State.rackIn_keeps _ _ _ _ _ (fun _ _ => (Keeps.refl _).failIn _ _)
  | offer => exact execOffer_keeps _ _ _
  | segmentLanded => exact execSegmentLanded_keeps _ _ _ _
  | rackCreditTimer => exact execRackCreditTimer_keeps _ _ _ _
  | rackRerequest => exact execRackRerequest_keeps _ _ _ _
  | rackBusyRetry => exact execRackBusyRetry_keeps _ _ _
  | offerResend => exact execOfferResend_keeps _ _ _
  | pourStart => exact State.request_keeps _ _ _ _ _ _ (fun _ => (Keeps.refl _).hPourStart _ _ _ _)
  | pourStop => exact State.request_keeps _ _ _ _ _ _ (fun _ => (Keeps.refl _).hPourStop _ _ _)
  | pourSubmit => exact State.request_keeps _ _ _ _ _ _ (fun _ => (Keeps.refl _).hPourSubmit _ _ _)
  | pourCancel => exact State.request_keeps _ _ _ _ _ _ (fun _ => (Keeps.refl _).hPourCancel _ _ _)
  | pourStatus => exact State.request_keeps _ _ _ _ _ _ (fun _ => (Keeps.refl _).hPourStatus _)
  | pourLabel => exact State.request_keeps _ _ _ _ _ _ (fun _ => (Keeps.refl _).hPourLabel _ _)
  | request | append | cancelFrame | fetch => exact State.pourFrameRow_keeps _ _ _ _ _
  | pourIncompleteTimeout => exact execPourIncompleteTimeout_keeps _ _ _
  | pourStepStart => exact execPourStepStart_keeps _ _
  | pourStepEnd => exact execPourStepEnd_keeps _ _
  | sealAttest => exact State.request_keeps _ _ _ _ _ _ (fun _ => (Keeps.refl _).hAttest _ _)
  | sealCertGet => exact State.request_keeps _ _ _ _ _ _ (fun _ => (Keeps.refl _).hCertGet _ _)
  | sealLicenceInstall => exact State.request_keeps _ _ _ _ _ _ (fun _ => (Keeps.refl _).hLicence _)
  | sealKeysAdd => exact State.request_keeps _ _ _ _ _ _ (fun _ => (Keeps.refl _).hKeysAdd _ _ _)
  | sealKeysRemove => exact State.request_keeps _ _ _ _ _ _ (fun _ => (Keeps.refl _).hKeysRemove _)
  | sealKeysList => exact State.request_keeps _ _ _ _ _ _ (fun _ => (Keeps.refl _).hKeysList)
  | sealDebugUnlock => exact State.request_keeps _ _ _ _ _ _ (fun _ => (Keeps.refl _).hUnlock _)
  | perturbEnable => exact State.request_keeps _ _ _ _ _ _ (fun _ => (Keeps.refl _).hPerturbEnable _)
  | perturbDisable => exact State.request_keeps _ _ _ _ _ _ (fun _ => (Keeps.refl _).hPerturbDisable _)
  | setEndpointId => exact execSetEndpointId_keeps _ _ _
  | linkUp => exact execLinkUp_keeps _ _ _ _ _
  | d3hot => exact execD3hot_keeps _ _ _
  | stagingWindowWrite => exact execStagingWindowWrite_keeps _ _ _ _
  | slotWrite => exact execSlotWrite_keeps _ _ _ _ _
  | pluggablePresence => exact execPluggablePresence_keeps _ _ _ _ _
  | regExchangeRetry => exact execRegExchangeRetry_keeps _ _
  | summaryWrite => exact execSummaryWrite_keeps _
  | hvEnHoldEnd => exact execHvEnHoldEnd_keeps _
  | stretchInjection => exact execStretchInjection_keeps _
  | jtagInstruction => exact execJtagInstruction_keeps _ _
  | setdasa dynamicAddr enter => exact execSetdasa_keeps s dynamicAddr enter
  | stopDecision => exact execStopDecision_keeps _ _
  | parcelStop => exact execParcelStop_keeps _ _
  | restart => exact execRestart_keeps _ _ _
  | stopResume => exact execStopResume_keeps _ _
  | vintageValid => exact execVintageValid_keeps _ _
  | park => exact execPark_keeps _ _
  | invocationStart => exact execInvocationStart_keeps _ _
  | invocationComplete => exact execInvocationComplete_keeps _ _
  | labelSigned => exact execLabelSigned_keeps _
  | rollback => exact execRollback_keeps _ _ _
  | cmstLockstep => exact execCmstLockstep_keeps _ _
  | sealLockstep => exact .next ((Keeps.refl _).sealFails)
  | entropyHealthFail => exact execEntropyHealthFail_keeps _
  | switch => exact State.onField_keeps _ _ _ (fun _ => (Keeps.refl _).clockSwitch _ _)
  | cancel => exact State.onField_keeps _ _ _ (fun _ => (Keeps.refl _).clockCancel _ _)
  | align => exact State.onSeam_keeps _ _ _ (fun _ => (Keeps.refl _).clockAlign _ _)
  | epochLoad => exact State.onField_keeps _ _ _ (fun _ => (Keeps.refl _).clockEpoch _ _)
  | alignCheck => exact execAlignCheck_keeps _ _ _
  | switchUnlocked => exact execSwitchUnlocked_keeps _ _
  | switchAtCount => exact execSwitchAtCount_keeps _ _
  | switched => exact execSwitched_keeps _ _
  | stretchLocal => exact execStretchLocal_keeps _ _
  | stretchWave => exact execStretchWave_keeps _ _
  | crossingOverrun => exact execCrossingOverrun_keeps _ _ _
  | refLoss => exact execRefLoss_keeps _ _
  | refRestored => exact execRefRestored_keeps _ _
  | ptmExchange => exact execPtmExchange_keeps _ _
  | hvEnAssert => exact execHvEnAssert_keeps _
  | hvEnDeassert => exact execHvEnDeassert_keeps _
  | plateResetExit => exact execPlateResetExit_keeps _
  | modResetN => exact execModResetN_keeps _ _
  | thermtripN => exact execThermtripN_keeps _ _
  | inputLoss => exact execInputLoss_keeps _ _
  | inputReturned => exact execInputReturned_keeps _
  | inputRestored => exact execInputRestored_keeps _
  | rideThroughEnd => exact execRideThroughEnd_keeps _
  | converterDegraded => exact execConverterDegraded_keeps _ _
  | busCollapse => exact execBusCollapse_keeps _
  | insulationCheck => exact execInsulationCheck_keeps _ _ _
  | phaseDegraded => exact execPhaseDegraded_keeps _ _ _
  | fallbackActive => exact execFallbackActive_keeps _ _
  | verticalDegraded => exact execVerticalDegraded_keeps _ _
  | trimDegraded => exact execTrimDegraded_keeps _ _ _ _
  | bentRetired => exact execBentRetired_keeps _ _ _ _
  | strutInject => exact execStrutInject_keeps _ _
  | crackCheck => exact execCrackCheck_keeps _ _ _ _
  | fieldShort => exact execFieldShort_keeps _ _
  | fieldSupplyLost => exact execFieldSupplyLost_keeps _ _
  | plateLathLost => exact execPlateLathLost_keeps _
  | trellisControlLoop => exact execTrellisControlLoop_keeps _ _
  | trellisReload => exact execTrellisReload_keeps _
  | forecastPublish => exact execForecastPublish_keeps _
  | phaseLearn => exact execPhaseLearn_keeps _ _
  | crushHint => exact execCrushHint_keeps _ _ _ _
  | leaseExpired => exact execLeaseExpired_keeps _
  | contractMissed => exact execContractMissed_keeps _ _

/- The operations of Machine/Time. -/
theorem Keeps.fref (hs : Keeps s₀ s) : Keeps s₀ (s.fref) := by
  unfold State.fref
  extract_lets _ _ s1 s2
  have h1 : Keeps s₀ s1 := hs.write
  have h2 : Keeps s₀ s2 := .foldl _ _ h1 (fun _ _ => .ite ((Keeps.refl _).seamRelease _) (Keeps.refl _))
  exact .foldl _ _ h2 (fun _ _ => .ite ((Keeps.refl _).modField _ _) (Keeps.refl _))
theorem Keeps.cmstDue (hs : Keeps s₀ s) : Keeps s₀ (s.cmstDue) := by
  unfold State.cmstDue
  split
  · exact .ite (hs.raiseIdle.raiseErr _ _ _ _) hs
  · exact hs
theorem Keeps.tapDue (hs : Keeps s₀ s) : Keeps s₀ (s.tapDue) := hs.answerWaits _ _
theorem Keeps.stepPresses (hs : Keeps s₀ s) (p : Nat) : Keeps s₀ (s.stepPresses p) := by
  unfold State.stepPresses
  split
  · split
    · exact .foldl _ _ hs (fun _ _ => (Keeps.refl _).modBay _ _)
    · exact hs
  · exact hs
theorem Keeps.ledgers (hs : Keeps s₀ s) : Keeps s₀ s.ledgers :=
  .foldl _ _ hs (fun u _ => .ite (.refl u) (Keeps.modCask (.refl u) _ _ (fun k h => by rw [Cask.ledgerTick_mem]; exact h)))
theorem Keeps.idle (hs : Keeps s₀ s) : Keeps s₀ (s.idle) := by
  unfold State.idle
  extract_lets _ s1 s2 s3 s4
  have h1 : Keeps s₀ s1 := hs.write
  have h2 : Keeps s₀ s2 := h1.write
  have h3 : Keeps s₀ s3 := .ite h2.fref h2
  have h4 : Keeps s₀ s4 := .foldl _ _ h3 (fun _ _ => (Keeps.refl _).stepPresses _)
  exact .ite h1 h4.ledgers.cmstDue.tapDue.relock.gwServe

end Sys2Proof.Machine
end

section
/-! A step keeps soundness and the counters of the seal (O57, O58, O59), and what the machine holds at reset (O56). -/

namespace Sys2Proof.Machine
open Sys2Proof

/-- What is taken up on a tick keeps what the tick keeps. -/
theorem takeHeld_keeps (s : State) (i : Instr) (t : State) (h : s.takeHeld [] s.held = some (i, t)) : Keeps s t := by
  obtain ⟨a, x, c, _, _, rfl, _⟩ := State.takeHeld_some s [] s.held i t h
  exact (Keeps.refl s).released _ _

theorem turnOver_keeps {s : State} {o : Host.Outcome State Fault Refusal} (h : KeepsOut s o) : KeepsOut s (turnOver o) := by
  cases o with
  | next t => exact .next ((h t rfl).write)
  | refused r => exact .refused
  | fault f => exact .fault

/-- A step keeps soundness and the floors: it runs one command, or is one tick with at most one command that has waited. -/
theorem step_keeps (s : State) (hq : s.pending = []) : KeepsOut s (step s) := by
  unfold step
  rw [hq]
  cases ht : s.idle.takeHeld [] s.idle.held with
  | none => exact .next (Keeps.refl s).idle
  | some x => exact turnOver_keeps (((Keeps.refl s).idle.trans (takeHeld_keeps _ _ _ ht)).out (exec_keeps _ _))

/-- The queue's form is no part of soundness. -/
theorem State.Sound.dequeue {s : State} (h : s.Sound) (rest : List Instr) : State.Sound { s with pending := rest } := h

/-- Settles O57: every store and the log are empty at reset. -/
theorem resetIsSound : Obligations.ResetIsSound := by
  refine ⟨⟨rfl, rfl, rfl, rfl, rfl, rfl, rfl⟩, fun _ => rfl, ⟨?_, .nil, ?_⟩, rfl⟩
  · exact Nat.zero_le _
  · intro e he
    cases he

/-- Settles O56: every unit reads as its initial value. -/
theorem resetState : Obligations.ResetState := by
  refine ⟨rfl, rfl, rfl, rfl, rfl, rfl, rfl, fun _ => ⟨rfl, rfl, rfl⟩, fun _ => rfl, fun _ => ⟨rfl, rfl, rfl, rfl, rfl⟩, fun _ => ⟨rfl, rfl, rfl⟩,
    fun _ _ => rfl, rfl, rfl, rfl, rfl, rfl⟩

/-- Settles O58: a command keeps soundness (exec_keeps), and so does the tick with the one command that it takes up. -/
theorem stepKeepsSoundness : Obligations.StepKeepsSoundness := by
  intro s t hs h
  cases hq : s.pending with
  | nil => exact (step_keeps s hq t h).sound hs
  | cons i rest =>
    have hk : exec i { s with pending := rest } = .next t := by rw [← h, step, hq]
    exact (exec_keeps _ _ t hk).sound (hs.dequeue rest)

/-- Settles O59, from the same lemmas: the counters and the queue are the other two parts of Keeps. -/
theorem stepLowersNoSealCounter : Obligations.StepLowersNoSealCounter := by
  refine ⟨fun s t h => ?_, fun c s t h => (exec_keeps s c t h).queue⟩
  cases hq : s.pending with
  | nil => exact (step_keeps s hq t h).floors
  | cons i rest =>
    have hk : exec i { s with pending := rest } = .next t := by rw [← h, step, hq]
    exact (exec_keeps _ _ t hk).floors

end Sys2Proof.Machine
end

section
/-! A step and its queue (O1); a command that names a field, a seam or a port that the module has. -/

namespace Sys2Proof.Machine
open Sys2Proof

/-- A tick in reset moves the module's own time only. -/
theorem State.idle_of_reset (s : State) (h : s.plate.plateReset = true) : s.idle = { s with tNs := s.tNs + 10 } := by
  simp [State.idle, h]

/-- Settles O1: `step` is what the clauses say, by its equations; on a tick in reset nothing waits. -/
theorem stepTakesTheFrontCommand : Obligations.StepTakesTheFrontCommand := by
  refine ⟨fun s c rest => rfl, fun s hq hn => ?idle, fun s i t hq ht => ?held, fun s hq hr hh => ?reset⟩
  case idle => simp only [step, hq, hn]
  case held => simp only [step, hq, ht]
  case reset =>
    have hn : s.idle.takeHeld [] s.idle.held = none := by rw [s.idle_of_reset hr, hh]; rfl
    simp only [step, hq, hn]
    rw [s.idle_of_reset hr, hq]

theorem State.onField_of_lt (s : State) {f : Nat} (g : State → State) (h : f < 10) : s.onField f g = .next (g s) := if_pos h
theorem State.onSeam_of_lt (s : State) {n : Nat} (g : State → State) (h : n < 13) : s.onSeam n g = .next (g s) := if_pos h
theorem State.onPort_of_lt (s : State) {p : Nat} (g : State → State) (h : p < 4) : s.onPort p g = .next (g s) := if_pos h

end Sys2Proof.Machine
end

section
/-! Clock commands, alignment, stretches, switches and references (12 R247 to R262): O27 to O30. -/

namespace Sys2Proof.Machine
open Sys2Proof

theorem exec_align (s : State) {n : Nat} (e : Nat) (h : n < 13) : exec (.align n e) s = .next (s.clockAlign n e) := if_pos h

/-- Settles O27: each command is refused, late or effective by its own tests, in the order in which the hub makes them. -/
theorem clockCommands : Obligations.ClockCommands := by
  intro s f c hf
  dsimp only
  refine ⟨fun hv h1 h2 hl => ?late, fun hv h1 h2 hl hn => ?switch, fun h => ?left, fun hv hl => ?cancelLate, fun w hv hl hw hc hs => ?cancel,
    fun e hv he => ?epoch, fun e hv he => ?epochLate, fun n e hn ho hr he hl => ?align⟩
  case late =>
    rw [exec_switch s c hf]
    simp [State.clockSwitch, hv, fcodeOk, h1, h2, hl]
  case switch =>
    rw [exec_switch s c hf]
    have hstop : (c.stop && !s.stopNamed f c) = false := by cases hc : c.stop <;> simp [hc] at hn ⊢; exact hn
    simp [State.clockSwitch, hv, fcodeOk, h1, h2, hl, hstop]
  case left =>
    have hno : (!(s.field f).supply.vfab || !fcodeOk c.fcode) = true := by
      rcases h with h | h | h
      · simp [h]
      · simp [fcodeOk, Nat.not_le.2 h]
      · simp [fcodeOk, Nat.not_le.2 h]
    rw [exec_switch s c hf, State.clockSwitch, if_pos hno]
  case cancelLate =>
    rw [exec_cancel s c hf]
    simp [State.clockCancel, hv, hl]
  case cancel =>
    rw [exec_cancel s c hf]
    simp [State.clockCancel, hv, hl, hw, hc, hs]
  case epoch =>
    rw [exec_epochLoad s e hf]
    simp [State.clockEpoch, hv, Nat.not_lt.2 he]
  case epochLate =>
    rw [exec_epochLoad s e hf]
    simp [State.clockEpoch, hv, he]
  case align =>
    rw [exec_align s e hn]
    simp [State.clockAlign, ho, hr, Nat.not_lt.2 he, hl]

/-- Separations within 1 of the design value 6 are those of 5 to 7. -/
theorem sigmasOk_eq (sigmas : List Int) : sigmasOk sigmas = sigmas.all (fun v => decide (5 ≤ v) && decide (v ≤ 7)) := by
  unfold sigmasOk
  congr 1
  funext v
  rw [← Bool.decide_and, decide_eq_decide]
  omega

theorem exec_alignCheck_due {s : State} {n e : Nat} {sigmas : List Int} (hn : n < 13) (ha : (s.seam n).alignAt = some e) (hr : (s.seam n).released = true)
    (he : e + 48 ≤ s.plate.master) : exec (.alignCheck n sigmas) s = .next (
      if sigmasOk (sigmas.take 24) then s.modSeam n (fun x => x.checked (sigmas.take 24))
      else
        let t := s.modSeam n (fun x => { x.reset with tries := x.tries + 1 })
        if (s.seam n).tries < 3 then t.alignRetry n 1
        else [(seamEnds n).1, (seamEnds n).2].foldl (fun s f => s.alignFails f) (t.modSeam n (fun x => { x with tries := 0 }))) := by
  change execAlignCheck n sigmas s = _
  rw [execAlignCheck, s.onSeam_of_lt _ hn]
  simp only [ha, hr, Nat.not_lt.2 he]
  rfl

theorem exec_alignCheck_still {s : State} {n : Nat} (sigmas : List Int) (hn : n < 13) (h : (s.seam n).alignAt = none ∨ (s.seam n).released = false) :
    exec (.alignCheck n sigmas) s = .next s := by
  change execAlignCheck n sigmas s = _
  rw [execAlignCheck, s.onSeam_of_lt _ hn]
  cases ha : (s.seam n).alignAt with
  | none => simp only [ha]
  | some e =>
    have hr : (s.seam n).released = false := h.resolve_left (by simp [ha])
    simp [ha, hr]

theorem exec_stretchLocal {s : State} {f : Nat} (hf : f < 10) (hv : (s.field f).supply.vfab = true) (hh : s.stretchHeld f = false) :
    exec (.stretchLocal f) s = .next (s.stretch f 0) := by
  change execStretchLocal f s = _
  rw [execStretchLocal, s.onField_of_lt _ hf]
  simp [hv, hh]
theorem exec_stretchWave {s : State} {f : Nat} (hf : f < 10) :
    exec (.stretchWave f) s = .next (if (s.field f).supply.vfab && s.waveAhead f then s.stretch f 1 else s) := s.onField_of_lt _ hf
theorem exec_crossingOverrun {s : State} {l : ScarfLink} (sigma : Int) (hl : l.line < 12) (hs : l.seam < 13) :
    exec (.crossingOverrun l sigma) s = .next (
      let x := s.seam l.seam
      let f := (seamEnds l.seam).1
      let s0 := Sparse.get 6 x.sigma0 (linkReader l)
      if x.released && decide (4 < (sigma - s0).natAbs) && !x.overrun.contains l then
        let c := (s.islandCount f).toNat
        (s.modSeam l.seam (fun x => { x with overrun := x.overrun ++ [l] })).report
          { code := 0x0308, parcel := s.parcelOfField f, count := c, unit := 0x03, x := l.seam, idx := l.line
            detail := [(1, l.seam), (1, l.line), (1, if l.up then 0 else 1), (4, (BitVec.ofInt 32 sigma).toNat), (4, (BitVec.ofInt 32 s0).toNat), (8, c)] }
      else s) := (if_pos hl).trans (s.onSeam_of_lt _ hs)

/-- Settles O28: the rows of alignment, stretches and crossings by their conditions. -/
theorem alignmentStretchesAndOverruns : Obligations.AlignmentStretchesAndOverruns := by
  intro s
  refine ⟨fun n e sigmas hn ha hr he => ⟨fun h => ?near, fun h htries => ?far⟩, fun n sigmas hn h => exec_alignCheck_still sigmas hn h, fun n => rfl,
    fun f hf hv hh => exec_stretchLocal hf hv hh, fun f hf hv hw => ?wave, fun f hf hw => ?noWave, fun l sig hl hs hr h4 hno => ?overrun,
    fun l sig hl hs h4 => ?within⟩
  case near =>
    rw [exec_alignCheck_due hn ha hr he, sigmasOk_eq, if_pos h]
    rfl
  case far =>
    have hbad : ¬ (sigmas.take 24).all (fun v => decide (5 ≤ v) && decide (v ≤ 7)) = true := by simp [h]
    rw [exec_alignCheck_due hn ha hr he, sigmasOk_eq, if_neg hbad]
    exact congrArg _ (if_pos htries)
  case wave =>
    rw [exec_stretchWave hf, hv, hw]
    rfl
  case noWave =>
    rw [exec_stretchWave hf, hw, Bool.and_false]
    rfl
  case overrun =>
    rw [exec_crossingOverrun sig hl hs]
    simp [hr, h4, hno]
  case within =>
    rw [exec_crossingOverrun sig hl hs]
    simp [Nat.not_lt.2 h4]

/-- Settles O29: each row of a switch by the switch that stands and the counts that the island has reached. -/
theorem switchTakesPlace : Obligations.SwitchTakesPlace := by
  intro s f hf
  refine ⟨fun c hc hstop hdue hl => ?takes, fun hl => ?unlocked, fun h => ?none, fun c hc hr => ?reports, fun c hc hstop hr => ?waits, fun c hc hr => ?withdrawn⟩
  case takes =>
    have hc : (s.field f).island.switch = some c := hc
    have hl : (s.field f).island.locked = true := hl
    change execSwitchAtCount f s = _
    rw [execSwitchAtCount, s.onField_of_lt _ hf]
    simp [hc, hdue, hl, hstop]
  case unlocked =>
    have hl : (s.field f).island.locked = false := hl
    change execSwitchAtCount f s = _
    rw [execSwitchAtCount, s.onField_of_lt _ hf]
    cases hc : (s.field f).island.switch <;> simp [hc, hl]
  case none =>
    have h : (s.field f).island.switchedDue = none := h
    change execSwitched f s = _
    rw [execSwitched, s.onField_of_lt _ hf]
    simp [h]
  case reports =>
    have hc : (s.field f).island.switchedDue = some c := hc
    change execSwitched f s = _
    rw [execSwitched, s.onField_of_lt _ hf]
    simp [hc, hr]
  case waits =>
    have hc : (s.field f).island.switchedDue = some c := hc
    change execSwitched f s = _
    rw [execSwitched, s.onField_of_lt _ hf]
    simp [hc, hr, hstop]
  case withdrawn =>
    have hc : (s.field f).island.switch = some c := hc
    change execSwitchUnlocked f s = _
    rw [execSwitchUnlocked, s.onField_of_lt _ hf]
    simp only [hc, hr]
    rfl

/-- A write of a value that is not the initial one: every other key reads as before, in any map. -/
theorem Sparse.get_set_listed {α : Type} [DecidableEq α] (d : α) {v : α} (hv : v ≠ d) : ∀ (m : Sparse α) (k j : Nat),
    Sparse.get d (Sparse.set d m k v) j = if j = k then v else Sparse.get d m j
  | [], k, j => by
    by_cases h : j = k
    · simp [Sparse.set, Sparse.get, hv, h]
    · by_cases hlt : j < k <;> simp [Sparse.set, Sparse.get, hv, h]
  | (a, w) :: r, k, j => by
    have ih := Sparse.get_set_listed d hv r k j
    unfold Sparse.set
    split
    · rename_i hka
      rcases Nat.lt_trichotomy j k with h | h | h
      · simp [Sparse.get, h, Nat.ne_of_lt h, Nat.lt_trans h hka]
      · simp [Sparse.get, h]
      · simp [Sparse.get, Nat.not_lt.2 (Nat.le_of_lt h), Nat.ne_of_gt h]
    · split
      · rename_i hka
        subst hka
        by_cases h : j < k <;> by_cases h' : j = k <;> simp [Sparse.get, h, h']
      · rename_i hlt hne
        have hak : a < k := by omega
        rw [Sparse.get, Sparse.get, ih]
        by_cases h : j = k
        · subst h; simp [hlt, hne]
        · simp [h]

/-- A change of a port that does not leave it as at reset changes no other port, whatever form the store of ports has. -/
theorem State.port_modPort_listed (s : State) (p : Nat) {g : Port → Port} (hg : g (s.port p) ≠ Port.init) (k : Nat) :
    (s.modPort p g).port k = if k = p then g (s.port p) else s.port k := Sparse.get_set_listed Port.init hg s.ports p k

/-- A word in which a bit has been set is not 0. -/
theorem or_two_pow_ne_zero {w k : Nat} (x : BitVec w) (hk : k < w) : x ||| BitVec.ofNat w (2 ^ k) ≠ 0#w := fun h => by
  have hb : (x ||| BitVec.ofNat w (2 ^ k)).getLsbD k = (0#w).getLsbD k := congrArg (fun y => y.getLsbD k) h
  rw [BitVec.getLsbD_or, BitVec.getLsbD_ofNat, Nat.testBit_two_pow_self, BitVec.getLsbD_zero] at hb
  simp [hk] at hb

/-- Every port selects the reference clock that it selected. -/
def State.SameRefmodes (s t : State) : Prop := ∀ k, (t.port k).refmode = (s.port k).refmode

namespace State.SameRefmodes
theorem refl (s : State) : s.SameRefmodes s := fun _ => rfl
theorem trans {s t u : State} (h : s.SameRefmodes t) (h' : t.SameRefmodes u) : s.SameRefmodes u := fun k => (h' k).trans (h k)
theorem of_ports {s t : State} (h : t.ports = s.ports) : s.SameRefmodes t := fun k => by simp only [State.port, h]
theorem modPort (s : State) (p : Nat) {g : Port → Port} (hne : g (s.port p) ≠ Port.init) (hg : ∀ q, (g q).refmode = q.refmode) : s.SameRefmodes (s.modPort p g) := fun k => by
  rw [s.port_modPort_listed p hne]
  split
  · next h => rw [hg, h]
  · rfl
theorem foldl {α : Type} (f : State → α → State) (hf : ∀ (u : State) a, u.SameRefmodes (f u a)) : ∀ (l : List α) (s : State), s.SameRefmodes (l.foldl f s)
  | [], s => refl s
  | a :: l, s => (hf s a).trans (foldl f hf l (f s a))
theorem emitPort (s : State) (p : Nat) (o : OutEv) : s.SameRefmodes (s.emitPort p o) := by
  unfold State.emitPort
  split
  · exact modPort s p (fun h => by simpa [Port.init] using congrArg Port.held h) (fun _ => rfl)
  · exact of_ports rfl
theorem vector (s : State) (p : Nat) {v : Nat} (hv : v < 96) : s.SameRefmodes (s.vector p v) := by
  unfold State.vector
  dsimp only
  split
  · refine modPort s p (fun h => ?_) (fun _ => rfl)
    exact or_two_pow_ne_zero _ hv (congrArg Port.pba h)
  · exact emitPort s p _
theorem event (s : State) (p : Nat) {k : Nat} (hk : k < 16) : s.SameRefmodes (s.event p k) := by
  unfold State.event
  dsimp only
  have hm : s.SameRefmodes (s.modPort p (fun q => { q with evtPend := q.evtPend ||| BitVec.ofNat 16 (2 ^ k) })) := by
    refine modPort s p (fun h => ?_) (fun _ => rfl)
    exact or_two_pow_ne_zero _ hk (congrArg Port.evtPend h)
  split
  · exact refl s
  · split
    · exact hm.trans (vector _ p (by omega))
    · exact hm
theorem eventAll (s : State) {k : Nat} (hk : k < 16) : s.SameRefmodes (s.eventAll k) := foldl _ (fun u p => event u p hk) _ _
theorem logEntry (s : State) (r : Report) (secondary : Bool) : s.SameRefmodes (s.logEntry r secondary) := by
  unfold State.logEntry
  extract_lets e t
  have ht : s.SameRefmodes t := of_ports rfl
  split
  · exact ht.trans (event t _ (by decide))
  · exact ht.trans (eventAll t (by decide))
theorem refEvent (s : State) (r : Nat) : s.SameRefmodes (s.refEvent r) := by
  have hlog : s.SameRefmodes (s.report { code := 0x0801, unit := 0x0B, detail := [(1, r)] }) := logEntry s { code := 0x0801, unit := 0x0B, detail := [(1, r)] } false
  exact hlog.trans (eventAll _ (by decide : 6 < 16))
end State.SameRefmodes

/-- A port that does not select the oscillator keeps its link (12 R248). -/
theorem foldl_refmode_ne (u : State) : ∀ l : List Nat, (∀ p, p ∈ l → (u.port p).refmode ≠ 1) →
    l.foldl (fun s p => if (s.port p).refmode = 1 then s.portRefLost p else s) u = u
  | [], _ => rfl
  | p :: l, h => by
    rw [List.foldl_cons, if_neg (h p (.head l))]
    exact foldl_refmode_ne u l (fun q hq => h q (.tail p hq))

/-- An exchange within 1 ms sets a slew toward the host (12 R250). -/
theorem exec_ptmExchange_slews {s : State} {p : Nat} {o : Int} (ho : s.raising.owner = some p) (hl : (s.port p).linkUp = true) (h : o ≤ 1000000) :
    let r : Int := ((Config.freeNat s.freeCtr % 201 : Nat) : Int)
    exec (.ptmExchange o) s = .next (({ s with plate := { s.plate with slewPpm := if o = 0 then 0 else if 0 < o then r else -r }, freeCtr := s.freeCtr + 1 } : State).emit
      (.ptm p s.plate.wall)) := by
  change execPtmExchange o s = _
  simp only [execPtmExchange, ho, hl, Int.not_lt.2 h]
  rfl

/-- Settles O30: the row of each reference by its latch; an exchange by its offset. -/
theorem referencesAndPtm : Obligations.ReferencesAndPtm := by
  intro s
  refine ⟨fun h => ?ref25, fun h => ?ref25Again, fun h => ?ref156, fun p hp h => ?pcie, fun h hno => ?oscillator, fun hl hh hr => ?restored,
    fun p o ho hl h => ?steps, fun p o ho hl h => ?slews, fun ho o => ?unowned⟩
  case ref25 =>
    change execRefLoss .ref25 s = _
    simp only [execRefLoss, h]
    rfl
  case ref25Again =>
    change execRefLoss .ref25 s = _
    simp only [execRefLoss, h]
    rfl
  case ref156 =>
    change execRefLoss .ref156 s = _
    simp only [execRefLoss, h]
    rfl
  case pcie =>
    change execRefLoss (.pcie p) s = _
    rw [execRefLoss, s.onPort_of_lt _ hp]
    simp only [h]
    rfl
  case oscillator =>
    have hkept := State.SameRefmodes.refEvent ({ s with plate := { s.plate with oscLost := true } } : State) 6
    change execRefLoss .oscillator s = _
    simp only [execRefLoss, h]
    exact congrArg Host.Outcome.next (foldl_refmode_ne _ _ (fun p hp => by rw [hkept p]; exact hno p (List.mem_range.1 hp)))
  case restored =>
    have hnone : (List.range 4).all (fun p => !(s.parcel p).running) = true := by simpa using hr
    change execRefRestored .ref25 s = _
    have hre : State.relock { s with plate := { s.plate with ref25Lost := false } } = { s with plate := { s.plate with ref25Lost := false, holdover := false } } := by
      unfold State.relock
      rw [if_pos]
      rw [hh]
      exact hnone
    simp only [execRefRestored, hl, hre]
    rfl
  case steps =>
    change execPtmExchange o s = _
    simp only [execPtmExchange, ho, hl, h]
    rfl
  case slews =>
    have hv : Config.freeNat s.freeCtr % 201 < 201 := Nat.mod_lt _ (by decide)
    refine ⟨_, ?_, ?_, ?_, ?_, exec_ptmExchange_slews ho hl h⟩
    · split
      · decide
      · split <;> omega
    · intro h0
      rw [if_neg (by omega), if_pos h0]
      omega
    · intro h0
      rw [if_neg (by omega), if_neg (by omega)]
      omega
    · intro h0
      rw [if_pos h0]
  case unowned =>
    change execPtmExchange o s = _
    simp only [execPtmExchange, ho]

end Sys2Proof.Machine
end

section
/-! HV_EN, power loss, resets and the supply of a field (13, 23 R484 to R488): O31, O32, O33 and O35. -/

namespace Sys2Proof.Machine
open Sys2Proof

theorem State.tryPower_up {s : State} (hi : s.inputOk = true) (hp : s.pins.pwrOk = false) : s.tryPower = s.powerUp :=
  if_pos (Bool.and_eq_true_iff.2 ⟨hi, by simp [hp]⟩)
theorem State.tryPower_still {s : State} (hi : s.inputOk = false) : s.tryPower = s := if_neg (by simp [hi])

theorem exec_hvEnAssert_free {s : State} (he : s.pins.hvEn = false) (hn : s.pins.hvOffNs = none) :
    exec .hvEnAssert s = .next (State.tryPower { s with pins := { s.pins with hvEn := true, hvEnWait := false } }) := by
  change execHvEnAssert s = _
  simp [execHvEnAssert, he, hn]

/-- Settles O31: with the input in range and PWR_OK low, tryPower is powerUp. -/
theorem hvEnBringsThePlateUp : Obligations.HvEnBringsThePlateUp := by
  intro s
  refine ⟨fun he hn hi hp => ?up, fun he hn hi => ?noInput, fun t he hn ht => ?held, fun he => ?again, fun t hn he hw hi hp => ?holdEnds, fun hn => ?noHold⟩
  case up =>
    rw [exec_hvEnAssert_free he hn]
    exact congrArg _ (State.tryPower_up hi hp)
  case noInput =>
    rw [exec_hvEnAssert_free he hn]
    exact congrArg _ (State.tryPower_still hi)
  case held =>
    change execHvEnAssert s = _
    simp [execHvEnAssert, he, hn, ht]
  case again =>
    change execHvEnAssert s = _
    simp [execHvEnAssert, he]
  case holdEnds =>
    change execHvEnHoldEnd s = _
    simp only [execHvEnHoldEnd, hn, he, hw]
    exact congrArg _ (State.tryPower_up hi hp)
  case noHold =>
    change execHvEnHoldEnd s = _
    simp only [execHvEnHoldEnd, hn]

theorem FaultLog.push_recs (l : FaultLog) (e : LogEnt) : (l.push e).recs = l.recs := by unfold FaultLog.push; split <;> rfl
theorem FaultLog.push_esc (l : FaultLog) (e : LogEnt) : (l.push e).esc = l.esc := by unfold FaultLog.push; split <;> rfl
theorem FaultLog.push_next (l : FaultLog) (e : LogEnt) : (l.push e).next = l.next + 1 := by unfold FaultLog.push; split <;> rfl

/-- A report leaves what the flash keeps of the log, the seal, the queue, the clock and the pins alone. -/
theorem State.pwrEvent_eq (s : State) (k unit x idx : Nat) (p : Option Nat) (masked : Bool) :
    ∃ l qs ps os, l.recs = s.flog.recs ∧ l.esc = s.flog.esc ∧ s.pwrEvent k unit x idx p masked = { s with flog := l, parcels := qs, ports := ps, out := os } := by
  unfold State.pwrEvent
  split
  · obtain ⟨e, qs, ps, os, _, _, h⟩ := s.report_eq { code := 0x0600 + k, parcel := p, unit := unit, x := x, y := 0, idx := idx, masked := masked }
    exact ⟨s.flog.push e, qs, ps, os, s.flog.push_recs e, s.flog.push_esc e, h⟩
  · exact ⟨s.flog, s.parcels, s.ports, s.out, rfl, rfl, rfl⟩

/-- What the logic side loses, and what the flash keeps of s (13 R269, 17 R368, 21 R446). -/
def State.LogicLost (s t : State) : Prop :=
  t.bays = [] ∧ t.parcels = [] ∧ t.fields = [] ∧ t.seams = [] ∧ t.hops = [] ∧ t.casks = [] ∧ t.ports = [] ∧ t.taps = [] ∧ t.waits = [] ∧ t.baySus = [] ∧
    t.raising = Raising.init ∧ t.trellis = Trellis.init ∧ t.prt = Prt.init ∧ t.gw = Gateway.init ∧ t.flog.ring = [] ∧ t.flog.recs = s.flog.recs ∧ t.flog.esc = s.flog.esc ∧
    t.sealU.keys = [] ∧ t.sealU.licence = none ∧ t.sealU.nonce = none ∧ t.sealU.scope = 0 ∧ t.sealU.keysFlash = s.sealU.keysFlash ∧ t.sealU.licFlash = s.sealU.licFlash ∧
    t.sealU.fwFloor = s.sealU.fwFloor ∧ t.sealU.pkgFloor = s.sealU.pkgFloor ∧ t.sealU.debugCounter = s.sealU.debugCounter ∧ t.sealU.storeEpoch = s.sealU.storeEpoch ∧
    t.plate.wall = 0#64 ∧ t.plate.plateReset = true ∧ t.pending = s.pending ∧ t.tNs = s.tNs
theorem State.logicLost_powerDown (s : State) : s.LogicLost s.powerDown :=
  ⟨rfl, rfl, rfl, rfl, rfl, rfl, rfl, rfl, rfl, rfl, rfl, rfl, rfl, rfl, rfl, rfl, rfl, rfl, rfl, rfl, rfl, rfl, rfl, rfl, rfl, rfl, rfl, rfl, rfl, rfl, rfl⟩
theorem State.logicLost_moduleReset (s : State) : s.LogicLost s.moduleReset :=
  ⟨rfl, rfl, rfl, rfl, rfl, rfl, rfl, rfl, rfl, rfl, rfl, rfl, rfl, rfl, rfl, rfl, rfl, rfl, rfl, rfl, rfl, rfl, rfl, rfl, rfl, rfl, rfl, rfl, rfl, rfl, rfl⟩

/-- A state of which the flash keeps the same may stand for the one before. -/
theorem State.LogicLost.of_flash {s t : State} {l : FaultLog} {qs : Sparse Parcel} {ps : Sparse Port} {os : List OutEv}
    (h : State.LogicLost { s with flog := l, parcels := qs, ports := ps, out := os } t) (hrecs : l.recs = s.flog.recs) (hesc : l.esc = s.flog.esc) : s.LogicLost t := by
  simpa only [State.LogicLost, hrecs, hesc] using h

/-- Settles O32: every one of the five powers the module down or resets it, in a state of which the flash keeps what it keeps of s. -/
theorem logicSideStateIsLost : Obligations.LogicSideStateIsLost := by
  intro s t h
  change s.LogicLost t
  rcases h with ⟨h, he⟩ | ⟨h, hb⟩ | ⟨h, hl, hr⟩ | ⟨src, h⟩ | ⟨w, hw, h, hp⟩
  · change execHvEnDeassert s = _ at h
    simp only [execHvEnDeassert, he] at h
    cases h
    exact s.logicLost_powerDown
  · change execBusCollapse s = _ at h
    simp only [execBusCollapse, hb] at h
    cases h
    obtain ⟨l, qs, ps, os, hrecs, hesc, hs⟩ := s.pwrEvent_eq 4 0x0B 0 0 none false
    have hlost := State.logicLost_powerDown (s.pwrEvent 4 0x0B 0 0 none false)
    rw [hs] at hlost ⊢
    exact hlost.of_flash hrecs hesc
  · change execRideThroughEnd s = _ at h
    have hi : (s.inputLost && !s.plate.returned) = true := by simp [State.inputLost, hl, hr]
    simp only [execRideThroughEnd, hi] at h
    cases h
    exact s.logicLost_powerDown
  · change execThermtripN src s = _ at h
    unfold execThermtripN at h
    extract_lets ok u at h
    by_cases hok : ok = true
    · rw [if_pos hok] at h
      cases h
      exact State.logicLost_powerDown { s with pins := { s.pins with therm := some src, tripRec := s.pins.tripRec ++ [src] } }
    · rw [if_neg hok] at h
      cases h
  · change execModResetN w s = _ at h
    have hacts : (s.pins.pwrOk && !decide (w < 1000) && (decide (10000 ≤ w) || Config.shortResetActs w)) = true := by
      have h1 : ¬ w < 1000 := by omega
      simp [hp, h1, hw]
    simp only [execModResetN, hacts] at h
    cases h
    exact s.logicLost_moduleReset

theorem exec_modResetN_acts {s : State} {w : Nat} (hw : 10000 ≤ w) (hp : s.pins.pwrOk = true) : exec (.modResetN w) s = .next s.moduleReset := by
  have hlong : ¬ w < 1000 := by omega
  change execModResetN w s = _
  simp [execModResetN, hp, hlong, hw]

/-- Settles O33: each command's next state is powerDown, moduleReset or the plate's start, read field by field. -/
theorem resetsAndTheirEnds : Obligations.ResetsAndTheirEnds := by
  intro s
  refine ⟨fun he => ?deassert, fun he => ?deassertAgain, fun hb => ?collapse, fun hl hr => ?rideEnds, fun hr => ?rideReturned, ?trip, fun w hw hp => ?reset,
    fun w hw => ?short, fun hp hr hm => ?exit, fun h => ?exitNot⟩
  case deassert =>
    refine ⟨{ s.powerDown with pins := { s.powerDown.pins with hvEn := false, hvEnWait := false, hvOffNs := some s.tNs } }, ?_, rfl, rfl, rfl, rfl, rfl⟩
    change execHvEnDeassert s = _
    simp only [execHvEnDeassert, he]
    rfl
  case deassertAgain =>
    change execHvEnDeassert s = _
    simp [execHvEnDeassert, he]
  case collapse =>
    obtain ⟨l, qs, ps, os, _, _, hs⟩ := s.pwrEvent_eq 4 0x0B 0 0 none false
    refine ⟨(s.pwrEvent 4 0x0B 0 0 none false).powerDown, ?_, rfl, rfl, ?_⟩
    · change execBusCollapse s = _
      simp [execBusCollapse, hb]
    · rw [hs]
      rfl
  case rideEnds =>
    refine ⟨{ s.powerDown with pins := { s.powerDown.pins with tripRec := [] } }, ?_, rfl, rfl⟩
    change execRideThroughEnd s = _
    simp [execRideThroughEnd, State.inputLost, hl, hr]
  case rideReturned =>
    change execRideThroughEnd s = _
    simp [execRideThroughEnd, hr]
  case trip => exact ⟨_, rfl, rfl, rfl, rfl, rfl⟩
  case reset => exact ⟨_, exec_modResetN_acts hw hp, hp, rfl, rfl, rfl, rfl⟩
  case short =>
    change execModResetN w s = _
    simp [execModResetN, hw]
  case exit =>
    change execPlateResetExit s = _
    simp [execPlateResetExit, hp, hr, hm]
  case exitNot =>
    change execPlateResetExit s = _
    rcases h with h | h <;> simp [execPlateResetExit, h]

section
variable {s : State} {f : Nat}

theorem State.field_modField (hw : Sparse.wf Field.init s.fields = true) (g : Field → Field) : (s.modField f g).field f = g (s.field f) :=
  Sparse.get_set_same Field.init s.fields f _ hw
theorem State.modField_wf (hw : Sparse.wf Field.init s.fields = true) (g : Field → Field) : Sparse.wf Field.init (s.modField f g).fields = true :=
  Sparse.wf_set Field.init s.fields f _ hw
/-- Two changes that give the field the same value are one change. -/
theorem State.modField_congr {g g' : Field → Field} (h : g (s.field f) = g' (s.field f)) : s.modField f g = s.modField f g' := congrArg (s.setField f) h
theorem State.report_field (s : State) (r : Report) (k : Nat) : (s.report r).field k = s.field k := by
  obtain ⟨e, qs, ps, os, _, _, h⟩ := s.report_eq r
  rw [h]
  rfl
theorem State.report_next (s : State) (r : Report) : (s.report r).flog.next = s.flog.next + 1 := by
  obtain ⟨e, qs, ps, os, _, _, h⟩ := s.report_eq r
  rw [h]
  exact s.flog.push_next e

/-- The log entry of a supply event of field f, as the statement about the supply writes it. -/
def State.supplyLog (s : State) (f k idx : Nat) (masked : Bool) : State :=
  s.report { code := 0x0600 + k, parcel := s.parcelOfField f, unit := 0x0A, x := f, y := 0, idx := idx, masked := masked }
/-- A power event of a field of a running Cellarmaster, after a change of fields, is that entry. -/
theorem State.pwrEvent_modField (g : Field → Field) (hr : s.plate.cmstRunning = true) (k idx : Nat) (masked : Bool) :
    (s.modField f g).pwrEvent k 0x0A f idx (s.parcelOfField f) masked = (s.modField f g).supplyLog f k idx masked := if_pos hr
theorem State.modField_parcelOfField (g : Field → Field) (k : Nat) : (s.modField f g).parcelOfField k = s.parcelOfField k := rfl

section
variable (hf : f < 10) (hv : (s.field f).supply.vfab = true) (hw : Sparse.wf Field.init s.fields = true) (hr : s.plate.cmstRunning = true)
include hf hv hw hr

theorem exec_phaseDegraded_first {k : Nat} (hk : k < 24) (h : (s.field f).supply.badPhases = []) :
    exec (.phaseDegraded f k) s = .next ((s.modField f (fun x => { x with supply := { x.supply with badPhases := [k] } })).supplyLog f 6 k true) := by
  have hone : s.modField f (fun x => { x with supply := { x.supply with badPhases := x.supply.badPhases ++ [k] } }) =
      s.modField f (fun x => { x with supply := { x.supply with badPhases := [k] } }) := State.modField_congr (by simp only [h, List.nil_append])
  have hfew : ¬ 4 < (((s.modField f (fun x => { x with supply := { x.supply with badPhases := [k] } })).supplyLog f 6 k true).field f).supply.badPhases.length := by
    rw [State.supplyLog, State.report_field, State.field_modField hw]
    simp
  change execPhaseDegraded f k s = _
  rw [execPhaseDegraded, if_neg (Nat.not_le.2 hk), s.onField_of_lt _ hf]
  simp only [h, hv, List.contains_nil, Bool.not_true, Bool.or_false, Bool.false_eq_true, if_false]
  rw [hone, State.modField_parcelOfField, State.pwrEvent_modField _ hr, if_neg hfew]

theorem exec_fallbackActive_first (hl : (s.field f).supply.latFailed = false) (hvf : (s.field f).supply.verFailed = false) :
    exec (.fallbackActive f) s = .next ((s.modField f (fun x => { x with supply := { x.supply with latFailed := true, capA := min x.supply.capA 280 } })).supplyLog f 7 f false) := by
  have hkeeps : ¬ ((((s.modField f (fun x => { x with supply := { x.supply with latFailed := true, capA := min x.supply.capA 280 } })).supplyLog f 7 f false).field f).supply.verFailed) = true := by
    rw [State.supplyLog, State.report_field, State.field_modField hw]
    simp [hvf]
  change execFallbackActive f s = _
  rw [execFallbackActive, s.onField_of_lt _ hf, if_pos hv, State.fallback, if_neg (by simp [hl])]
  simp only
  rw [State.modField_parcelOfField, State.pwrEvent_modField _ hr, if_neg hkeeps]

omit hv in
theorem exec_verticalDegraded_first (hl : (s.field f).supply.latFailed = false) (hvf : (s.field f).supply.verFailed = false) (hb : s.plate.bus = true) :
    exec (.verticalDegraded f) s = .next ((s.modField f (fun x => { x with supply := { x.supply with verFailed := true } })).supplyLog f 13 f true) := by
  have hkeeps : ¬ ((((s.modField f (fun x => { x with supply := { x.supply with verFailed := true } })).supplyLog f 13 f true).field f).supply.latFailed) = true := by
    rw [State.supplyLog, State.report_field, State.field_modField hw]
    simp [hl]
  change execVerticalDegraded f s = _
  rw [execVerticalDegraded, s.onField_of_lt _ hf]
  simp only [hvf, hb, Bool.not_true, Bool.or_false, Bool.false_eq_true, if_false]
  rw [State.modField_parcelOfField, State.pwrEvent_modField _ hr, if_neg hkeeps]

omit hw in
theorem exec_trimDegraded_first {b sl : Nat} (hb : b < 12) (hsl : sl < 14) (h : (s.bent f b).slices = []) :
    exec (.trimDegraded f b sl) s = .next ((s.modBent f b (fun t => { t with slices := [sl] })).supplyLog f 8 b true) := by
  change execTrimDegraded f b sl s = _
  rw [execTrimDegraded, if_neg (by omega), s.onField_of_lt _ hf]
  simp only [hv, h, List.contains_nil, Bool.not_true, Bool.or_false, Bool.false_eq_true, if_false, if_true]
  exact congrArg _ (State.pwrEvent_modField _ hr 8 b true)
end

theorem exec_trimDegraded_again {b sl : Nat} (hf : f < 10) (hb : b < 12) (hsl : sl < 14) (h : sl ∈ (s.bent f b).slices) : exec (.trimDegraded f b sl) s = .next s := by
  change execTrimDegraded f b sl s = _
  rw [execTrimDegraded, if_neg (by omega), s.onField_of_lt _ hf]
  simp [h]

/-- The comparisons of the bump groups taken so far, with those of one check (13 R275). -/
def State.crackTaken (s : State) (f : Nat) (drops currents : List (Nat × Nat)) : State :=
  s.modField f (fun x => { x with supply := { x.supply with
    crackNs := some ((s.field f).supply.crackNs.getD s.tNs)
    crack := (drops.filter (fun e => decide (e.1 < 48))).foldl (fun m e =>
      let o := Sparse.get (0, 0, 0) m e.1
      let ma := Sparse.get 0 currents e.1
      Sparse.set (0, 0, 0) m e.1 (o.1 + crackExcess (x.supply.models.getD e.1 0) e.2 ma, o.2.1 + 1, o.2.2 + ma)) x.supply.crack } })
/-- The state in which the groups are judged: the next 100 ms begin. -/
def State.crackOver (s : State) (f : Nat) : State :=
  (s.crackTaken f [] []).modField f (fun x => { x with supply := { x.supply with crackNs := none, crack := [] } })

theorem exec_crackCheck (drops currents : List (Nat × Nat)) (hf : f < 10) (hv : (s.field f).supply.vfab = true) :
    exec (.crackCheck f drops currents) s = .next (if (s.field f).supply.crackNs.getD s.tNs + 100000000 ≤ s.tNs + 10000 then (s.crackTaken f drops currents).crackJudge f
      else s.crackTaken f drops currents) := by
  change execCrackCheck f drops currents s = _
  rw [execCrackCheck, s.onField_of_lt _ hf, if_neg (by simp [hv])]
  rfl

/-- The groups are judged on what was taken; one group alone is judged by its sums. -/
theorem State.crackJudge_one (hw : Sparse.wf Field.init s.fields = true) {e : Nat × Int × Nat × Nat} (h : (s.field f).supply.crack = [e]) :
    (s.crackTaken f [] []).crackJudge f =
      if crackOpen e.2 then (s.crackOver f).crackEvent f e.1 true else if crackSuspect e.2 then (s.crackOver f).crackEvent f e.1 false else s.crackOver f := by
  have hc : ((s.crackTaken f [] []).field f).supply.crack = [e] := by
    rw [State.crackTaken, State.field_modField hw]
    exact h
  rw [State.crackJudge, hc]
  rfl

theorem State.crackOver_field (hw : Sparse.wf Field.init s.fields = true) :
    ((s.crackOver f).field f).supply = { (s.field f).supply with crackNs := none, crack := [] } := by
  have hwt : Sparse.wf Field.init (s.crackTaken f [] []).fields = true := State.modField_wf hw _
  rw [State.crackOver, State.field_modField hwt, State.crackTaken, State.field_modField hw]

theorem State.crackEvent_suspect {g : Nat} (hr : s.plate.cmstRunning = true) (hno : g ∉ (s.field f).supply.suspectGroups) :
    s.crackEvent f g false = (s.modField f (fun x =>
      { x with supply := { x.supply with capA := min x.supply.capA 490, suspectGroups := x.supply.suspectGroups ++ [g] } })).supplyLog f 10 g false := by
  rw [State.crackEvent]
  simp only [Bool.false_eq_true, if_false, List.append_nil]
  rw [if_neg (by simp [hno]), State.modField_parcelOfField, State.pwrEvent_modField _ hr]
theorem State.crackEvent_open {g : Nat} (hr : s.plate.cmstRunning = true) (hno : g ∉ (s.field f).supply.openGroups) :
    s.crackEvent f g true = (s.modField f (fun x =>
      { x with supply := { x.supply with capA := min x.supply.capA 350, openGroups := x.supply.openGroups ++ [g], suspectGroups := x.supply.suspectGroups ++ [g] } })).supplyLog f 10 g false := by
  rw [State.crackEvent]
  simp only [if_true]
  rw [if_neg (by simp [hno]), State.modField_parcelOfField, State.pwrEvent_modField _ hr]

theorem exec_strutInject_above {b : BayId} {mv : Nat} (hb : b.ok = true) (h : s.vbent (fieldOf b) (bentOf b) < mv + 15) :
    exec (.strutInject { b := b, localMv := mv }) s = .next s := by
  have hno : decide (mv + 15 ≤ s.vbent (fieldOf b) (bentOf b)) = false := decide_eq_false (Nat.not_le.2 h)
  change execStrutInject _ s = _
  simp [execStrutInject, hb, hno]
theorem exec_strutInject_below {b : BayId} {mv : Nat} (hb : b.ok = true) (hv : (s.field (fieldOf b)).supply.vfab = true) (h : mv + 15 ≤ s.vbent (fieldOf b) (bentOf b)) :
    exec (.strutInject { b := b, localMv := mv }) s = .next ((({ s with freeCtr := s.freeCtr + 1 } : State).modField (fieldOf b) (fun x => { x with supply := { x.supply with
      strutLow := Sparse.set (0, 0) x.supply.strutLow (bayIx b)
        (if s.strutMv b < 900 then s.strutMv b else 900 + Config.freeNat s.freeCtr % (s.strutMv b - 899), s.tNs + 200) } })).emit (.strut b)) := by
  change execStrutInject _ s = _
  simp only [execStrutInject, hb, hv, h]
  rfl
end

/-- Settles O35: the rows of the supply one by one; each finding is recorded, then logged. -/
theorem fieldSupplyDegrades : Obligations.FieldSupplyDegrades := by
  intro s f hf hv hw hr
  refine ⟨fun k hk h => exec_phaseDegraded_first hf hv hw hr hk h, fun hl hvf => ?lateral, fun hvf hl hb => ?vertical,
    fun b sl hb hsl h => exec_trimDegraded_first hf hv hr hb hsl h, fun b sl hb hsl h => exec_trimDegraded_again hf hb hsl h,
    ⟨fun drops currents h => ?taken, fun g sum n ma hdue hone => ⟨fun hma hlow hhigh hno => ?suspect, fun hopen hno => ?open_, fun hma hlow => ?sound⟩⟩,
    fun b mv hb hfb => ⟨fun h => ?above, fun h => ?below⟩, fun b sl h => ?refused⟩
  case lateral =>
    refine ⟨_, exec_fallbackActive_first hf hv hw hr hl hvf, ?_, ?_, State.report_next _ _⟩
    · rw [State.supplyLog, State.report_field, State.field_modField hw]
    · rw [State.supplyLog, State.report_field, State.field_modField hw]
  case vertical =>
    refine ⟨_, exec_verticalDegraded_first hf hw hr hl hvf hb, ?_, ?_⟩
    · rw [State.supplyLog, State.report_field, State.field_modField hw]
    · rw [State.supplyLog, State.report_field, State.field_modField hw]
  case taken =>
    rw [exec_crackCheck drops currents hf hv, if_neg (Nat.not_le.2 h)]
    rfl
  case suspect =>
    have hno' : g ∉ ((s.crackOver f).field f).supply.suspectGroups := by rw [State.crackOver_field hw]; exact hno
    have h1 : crackOpen (sum, n, ma) = false := by simp [crackOpen, hma, Int.not_lt.2 hhigh]
    have h2 : crackSuspect (sum, n, ma) = true := decide_eq_true hlow
    rw [exec_crackCheck [] [] hf hv, if_pos hdue, State.crackJudge_one hw hone, h1, h2]
    exact congrArg _ (State.crackEvent_suspect (s := s.crackOver f) hr hno')
  case open_ =>
    have hno' : g ∉ ((s.crackOver f).field f).supply.openGroups := by rw [State.crackOver_field hw]; exact hno
    have h1 : crackOpen (sum, n, ma) = true := by simpa [crackOpen] using hopen
    rw [exec_crackCheck [] [] hf hv, if_pos hdue, State.crackJudge_one hw hone, h1]
    exact congrArg _ (State.crackEvent_open (s := s.crackOver f) hr hno')
  case sound =>
    have h1 : crackOpen (sum, n, ma) = false := by
      have hle : sum ≤ 600000 * (n : Int) := by omega
      simp [crackOpen, hma, Int.not_lt.2 hle]
    have h2 : crackSuspect (sum, n, ma) = false := decide_eq_false (Int.not_lt.2 hlow)
    rw [exec_crackCheck [] [] hf hv, if_pos hdue, State.crackJudge_one hw hone, h1, h2]
    rfl
  case above =>
    subst hfb
    exact exec_strutInject_above hb h
  case below =>
    subst hfb
    refine ⟨_, ?_, ?_, exec_strutInject_below hb hv h⟩
    · split
      · exact Nat.le_refl _
      · have hmod : Config.freeNat s.freeCtr % (s.strutMv b - 899) < s.strutMv b - 899 := Nat.mod_lt _ (by omega)
        omega
    · intro hfull
      rw [if_neg (by omega)]
      omega
  case refused =>
    change execTrimDegraded f b sl s = _
    rw [execTrimDegraded, if_pos h]

end Sys2Proof.Machine
end

section
/-! Module pins, links and the hardware commands: O37 -/

namespace Sys2Proof.Machine
open Sys2Proof

/-- An instruction of the scan path under a scope that allows it (21 R456). -/
theorem jtagAllowed_of {scope : Nat} {op : JtagOp}
    (h : op = .idcode ∨ op = .bypass ∨ (scope ≠ 0 ∧ (op = .extest ∨ op = .samplePreload)) ∨ 2 ≤ scope) : jtagAllowed scope op = true := by
  rcases h with rfl | rfl | ⟨hs, rfl | rfl⟩ | hs
  · rfl
  · rfl
  · exact decide_eq_true hs
  · exact decide_eq_true hs
  · have h0 : scope ≠ 0 := by omega
    cases op <;> simp [jtagAllowed, hs, h0]

/-- A link trains at speeds 1 to 6 and widths 1, 2, 4 and 8 (17 R353). -/
theorem linkOk_of {speed : Nat} {w : BitVec 4} (h1 : 1 ≤ speed) (h6 : speed ≤ 6) (hw : w = 1#4 ∨ w = 2#4 ∨ w = 4#4 ∨ w = 8#4) : linkOk speed w.toNat = true := by
  rcases hw with rfl | rfl | rfl | rfl <;> simp [linkOk, h1, h6]

theorem exec_linkUp {s : State} {p : Nat} (sp w : BitVec 4) (r : Bool) (hp : p < 4) : exec (.linkUp p sp w r) s =
    .next (if !s.plate.plateReset && linkOk sp.toNat w.toNat then s.linkTrained p sp.toNat w.toNat r else s) := s.onPort_of_lt _ hp
theorem exec_jtagInstruction {s : State} (op : JtagOp) (hr : s.plate.plateRails = true) :
    exec (.jtagInstruction op) s = .next (if jtagAllowed s.sealU.scope op then s.emit (.jtag op) else s) := by
  change execJtagInstruction op s = _
  rw [execJtagInstruction, hr, Bool.true_and]

/-- Settles O37: each row by the line or the register that it acts on. -/
theorem modulePinsAndLinks : Obligations.ModulePinsAndLinks := by
  intro s
  refine ⟨fun a e hp hr => ?setdasa, fun e hp hr h0 hff => ?endpoint, fun p sp w r hp hr h1 h6 hw hperst => ?linkUp, fun p hp hl => ?d3hot, fun p hp hl hd => ?d0,
    fun t a b c ht hr h => ?cage, fun n m hn hm => ?reg, fun hr hf hold => ?summary, fun t ht hsoon => ?summarySoon, fun op hr h => ?jtag, fun hr h0 => ?jtagClosed,
    fun f hfor hon hper hone hf hholds hv hh => ?stretch, fun hoff => ?noStretch⟩
  case setdasa =>
    change execSetdasa a e s = _
    cases hn : s.pins.i3cDyn <;> simp [execSetdasa, State.sideLive, hp, hr, hn]
  case endpoint =>
    have hlive : s.sideLive = true := by simp [State.sideLive, hp, hr]
    constructor
    · change execSetEndpointId .i3c e s = _
      simp [execSetEndpointId, hlive, h0, hff]
    · change execSetEndpointId .smbus e s = _
      simp [execSetEndpointId, hlive, h0, hff]
  case linkUp =>
    rw [exec_linkUp sp w r hp, hr, linkOk_of h1 h6 hw]
    simp [State.linkTrained, hperst]
  case d3hot =>
    change execD3hot p true s = _
    rw [execD3hot, s.onPort_of_lt _ hp]
    simp [hl]
  case d0 =>
    change execD3hot p false s = _
    rw [execD3hot, s.onPort_of_lt _ hp]
    simp [hl, hd]
  case cage =>
    have hup : (a && !b && !c) = false := by rcases h with rfl | rfl | rfl <;> simp
    change execPluggablePresence t a b c s = _
    rw [execPluggablePresence, if_neg (Nat.not_le.2 ht)]
    simp [hr, hup]
  case reg =>
    change execRegExchangeRetry n s = _
    simp [execRegExchangeRetry, hn, hm]
  case summary =>
    change execSummaryWrite s = _
    cases hl : s.flog.lastWrite with
    | none => simp [execSummaryWrite, hr, hf, hl]
    | some t => simp [execSummaryWrite, hr, hf, hl, Nat.not_lt.2 (hold t hl)]
  case summarySoon =>
    change execSummaryWrite s = _
    simp [execSummaryWrite, ht, hsoon]
  case jtag => rw [exec_jtagInstruction op hr, jtagAllowed_of h, if_pos rfl]
  case jtagClosed =>
    constructor
    · rw [exec_jtagInstruction _ hr, h0]
      rfl
    · rw [exec_jtagInstruction _ hr, h0]
      rfl
  case stretch =>
    subst hf
    change execStretchInjection s = _
    simp [execStretchInjection, hfor, hon, hper, hone, hholds, hv, hh, List.range_succ]
    rfl
  case noStretch =>
    change execStretchInjection s = _
    simp only [execStretchInjection, hoff, Bool.and_false, Bool.false_and]
    rfl

end Sys2Proof.Machine
end

section
/-! Requests: taken, checked and answered: O38 -/

namespace Sys2Proof.Machine
open Sys2Proof

section
variable {s : State} {rq : Requester} {m : MsgInfo} {p : Nat}

/-- A heard request that fails a check is answered with it (18 R373). -/
theorem State.request_away (hT : s.takes rq = true) {c : Nat} (hc : c ≠ 0) (ha : (s.received rq).admission rq m p = c) (h : Handler) (i : Instr) :
    s.request rq m p h i = s.withAnswer (s.received rq) rq m.code p (Ans.err c) := by
  rw [State.request_heard s rq m p h i hT, State.serve_eq s rq m p h c hT ha, if_pos hc]
  rfl

/-- The sender's side of the message comes first: nothing else is checked of a message that the sender may not make. -/
theorem State.admission_unknown (hT : s.takes rq = true) (h : ((isSideband rq && !m.side) || (!isSideband rq && m.sideOnly)) = true) :
    (s.received rq).admission rq m p = 0x0002 := by
  unfold State.admission
  rw [State.served_ok s rq m hT, if_pos h]
  rfl

/-- Of a message that a port may make, on a parcel number of the module, the parcel, the scope and the feature are checked in this order. -/
theorem State.admission_port (hT : s.takes rq = true) (hside : isSideband rq = false) (hso : m.sideOnly = false) (hp : p < 4 ∨ p = 0xFF) :
    (s.received rq).admission rq m p =
      if m.parcel && !(decide (p < 4) && (s.parcel p).live) then eNoParcel
      else if (s.received rq).inScope rq m p ≠ 0 then (s.received rq).inScope rq m p
      else match m.feature with
        | some k => if s.hasFeature k then 0 else eNoFeature
        | none => 0 := by
  have hserved : (s.received rq).served rq m = 0 := by rw [State.served_ok s rq m hT, hside, hso]; rfl
  have hp' : ¬ (4 ≤ p ∧ p ≠ 0xFF) := by omega
  unfold State.admission
  simp only [hserved, hp', State.received_parcel, State.received_feature]
  rfl

/-- A request that its port may not make, by the scope of the message. -/
theorem State.inScope_port {k : Nat} (hk : requesterPort rq = some k) :
    (s.received rq).inScope rq m p = match m.scope with
      | .any => 0
      | .principal => if s.isPrincipal k then 0 else 0x0E01
      | .owner => if (s.parcel p).owner = k then 0 else 0x0E02
      | .ownerOrPrincipal => if (s.parcel p).owner = k ∨ s.isPrincipal k = true then 0 else 0x0E02 := by
  unfold State.inScope
  rw [hk]
  cases m.scope <;> simp [State.received_parcel, State.received_principal]

theorem requesterPort_of_not_sideband (h : isSideband rq = false) : ∃ k, requesterPort rq = some k := by
  cases rq with
  | slot k n g => exact ⟨k, rfl⟩
  | entry k n a b c => exact ⟨k, rfl⟩
  | sideband e g => cases h
end

/-- Settles O38: a request is refused, dropped, kept or heard by deliver; a heard one is checked by admission, then served. -/
theorem requestsAreCheckedAndAnswered : Obligations.RequestsAreCheckedAndAnswered := by
  intro s rq m p h i
  refine ⟨fun hok => ?refused, fun k n g hrq hk hn hl hw hd => ?dropped, fun k n g hrq hk hn hh hw hd hq => ?waits, fun hT =>
    ⟨fun hside hm => ?sideways, fun hside hm => ?sideOnly, fun hside hso hp => ⟨fun hm hno => ?noParcel, fun hm => ?checked⟩⟩⟩
  case refused => simp [State.request, State.deliver, hok]
  case dropped =>
    subst hrq
    have htaken : s.takeSlot k n = (s.strayWrite k, false) := if_pos (by rcases hd with hd | hd <;> simp [hd])
    simp only [State.request, State.deliver, requesterOk, hk, hn, hl, hw, htaken]
    rfl
  case waits =>
    subst hrq
    exact s.request_waits k n g m p h i hh hd hw hq
  case sideways => exact State.request_away hT (by decide) (State.admission_unknown hT (by simp [hside, hm])) h i
  case sideOnly => exact State.request_away hT (by decide) (State.admission_unknown hT (by simp [hside, hm])) h i
  case noParcel =>
    have hgone : (m.parcel && !(decide (p < 4) && (s.parcel p).live)) = true := by
      rcases hno with h4 | hlive
      · simp [hm, h4]
      · simp [hm, hlive]
    refine State.request_away hT (by decide) ?_ h i
    rw [State.admission_port hT hside hso hp, if_pos hgone]
    rfl
  case checked =>
    have hthere : ¬ (m.parcel && !(decide (p < 4) && (s.parcel p).live)) = true := by
      cases hmp : m.parcel with
      | false => simp
      | true =>
        obtain ⟨hp4, hlive⟩ := hm hmp
        simp [hp4, hlive]
    obtain ⟨k, hk⟩ := requesterPort_of_not_sideband hside
    refine ⟨fun hsc hno => ?principal, fun hsc hno => ?owner, fun hin hfeat => ?feature, fun hin hfeat => ?served⟩
    case principal =>
      have hnot : ¬ s.isPrincipal k = true := by simpa [State.fromPrincipal, hT, hk] using hno
      have hin : (s.received rq).inScope rq m p = 0x0E01 := by rw [State.inScope_port hk, hsc]; exact if_neg hnot
      refine State.request_away hT (by decide) ?_ h i
      rw [State.admission_port hT hside hso hp, if_neg hthere, hin]
      rfl
    case owner =>
      have hnot : ¬ (s.parcel p).owner = k := by simpa [hk] using hno
      have hin : (s.received rq).inScope rq m p = 0x0E02 := by rw [State.inScope_port hk, hsc]; exact if_neg hnot
      refine State.request_away hT (by decide) ?_ h i
      rw [State.admission_port hT hside hso hp, if_neg hthere, hin]
      rfl
    case feature =>
      obtain ⟨j, hj, hnone⟩ := hfeat
      refine State.request_away hT (by decide) ?_ h i
      rw [State.admission_port hT hside hso hp, if_neg hthere, hin, hj]
      simp [hnone, eNoFeature]
    case served =>
      rw [State.request_ok s rq m p h i hT (by simp [hside]) (by simp [hso]) hp hm hin hfeat]
      cases (h (s.received rq)).2 <;> rfl

end Sys2Proof.Machine
end

section
/-! How a message that passes its checks is answered -/

namespace Sys2Proof.Machine
open Sys2Proof

/-- Serving a request changes ports only before its handler runs: the device owns the slot. -/
theorem State.received_eq (s : State) (rq : Requester) : ∃ ps, s.received rq = { s with ports := ps } := by
  cases rq with
  | slot k n g => exact ⟨_, rfl⟩
  | entry k n a b c => exact ⟨s.ports, rfl⟩
  | sideband e g => exact ⟨s.ports, rfl⟩
/-- So whatever does not read the ports is in that state what it was. -/
theorem State.of_received {α : Type} (f : State → α) (hf : ∀ (u : State) ps, f { u with ports := ps } = f u) (s : State) (rq : Requester) : f (s.received rq) = f s := by
  obtain ⟨ps, h⟩ := s.received_eq rq
  rw [h, hf]
theorem State.received_flog (s : State) (rq : Requester) : (s.received rq).flog = s.flog := s.of_received (fun u => u.flog) (fun _ _ => rfl) rq
theorem State.received_trellis (s : State) (rq : Requester) : (s.received rq).trellis = s.trellis := s.of_received (fun u => u.trellis) (fun _ _ => rfl) rq

/-- A request that is heard and passes its checks (17 R357, 18 R373). -/
def State.Admits (s : State) (rq : Requester) (m : MsgInfo) (p : Nat) : Prop := s.takes rq = true ∧ (s.received rq).admission rq m p = 0

section
variable {s : State} {rq : Requester} {m : MsgInfo} {p : Nat}

/-- It takes effect and is answered at once, when its handler answers … -/
theorem State.Admits.answer (ha : s.Admits rq m p) {h : Handler} {t : State} {a : Ans} (hh : h (s.received rq) = (t, some a)) (i : Instr) :
    s.request rq m p h i = s.withAnswer t rq m.code p a := by
  rw [State.request_heard s rq m p h i ha.1, State.serve_eq s rq m p h 0 ha.1 ha.2, hh]
  rfl
/-- … and otherwise its answer is left to an event. -/
theorem State.Admits.later (ha : s.Admits rq m p) {h : Handler} {t : State} (hh : h (s.received rq) = (t, none)) (i : Instr) :
    s.request rq m p h i = .next t := by
  rw [State.request_heard s rq m p h i ha.1, State.serve_eq s rq m p h 0 ha.1 ha.2, hh]
  rfl

/-- The checks in their order, once the sender may make the message (18 R373). -/
theorem State.admits_of (hT : s.takes rq = true) (hserved : ((isSideband rq && !m.side) || (!isSideband rq && m.sideOnly)) = false) (hp : p < 4 ∨ p = 0xFF)
    (hl : m.parcel = true → p < 4 ∧ (s.parcel p).live = true) (hs : (s.received rq).inScope rq m p = 0) (hfeat : ∀ k, m.feature = some k → s.hasFeature k = true) :
    s.Admits rq m p := by
  have hv : (s.received rq).served rq m = 0 := by rw [State.served_ok s rq m hT, hserved]; rfl
  have hp' : ¬ (4 ≤ p ∧ p ≠ 0xFF) := by omega
  have hthere : (m.parcel && !(decide (p < 4) && (s.parcel p).live)) = false := by
    cases hm : m.parcel with
    | false => rfl
    | true => simp [hl hm]
  refine ⟨hT, ?_⟩
  unfold State.admission
  simp only [hv, hp', State.received_parcel, hthere, hs]
  cases hk : m.feature with
  | none => rfl
  | some k => simp [State.received_feature, hfeat k hk]

theorem State.admits_any (hT : s.takes rq = true) (h0 : m.scope = .any) (hserved : ((isSideband rq && !m.side) || (!isSideband rq && m.sideOnly)) = false)
    (hp : p < 4 ∨ p = 0xFF) (hl : m.parcel = true → p < 4 ∧ (s.parcel p).live = true) (hfeat : ∀ k, m.feature = some k → s.hasFeature k = true) : s.Admits rq m p :=
  State.admits_of hT hserved hp hl (by simp only [State.inScope, h0]; split <;> rfl) hfeat
theorem State.admits_owner (ho : s.fromOwner rq p = true) (h0 : m.scope = .owner) (h2 : m.sideOnly = false) (hfeat : ∀ k, m.feature = some k → s.hasFeature k = true) :
    s.Admits rq m p := by
  obtain ⟨hT, hp, hl, hside, hport⟩ := State.takes_of_owner ho
  exact State.admits_of hT (by simp [hside, h2]) (.inl hp) (fun _ => ⟨hp, hl⟩) (by simp [State.inScope, hport, h0, State.received_parcel]) hfeat
theorem State.admits_either (he : s.fromEither rq p = true) (h0 : m.scope = .ownerOrPrincipal) (h2 : m.sideOnly = false)
    (hfeat : ∀ k, m.feature = some k → s.hasFeature k = true) : s.Admits rq m p := by
  obtain ⟨hT, hp, hl, hside, k, hport, hk⟩ := State.takes_of_either he
  refine State.admits_of hT (by simp [hside, h2]) (.inl hp) (fun _ => ⟨hp, hl⟩) ?_ hfeat
  rcases hk with hk | hk <;> simp [State.inScope, hport, h0, State.received_parcel, State.received_principal, hk]
theorem State.admits_principal (hf : s.fromPrincipal rq = true) (h0 : m.scope = .principal) (h2 : m.sideOnly = false) (hp : p < 4 ∨ p = 0xFF)
    (hl : m.parcel = true → p < 4 ∧ (s.parcel p).live = true) (hfeat : ∀ k, m.feature = some k → s.hasFeature k = true) : s.Admits rq m p := by
  obtain ⟨hT, hside, k, hport, hk⟩ := State.takes_of_principal hf
  exact State.admits_of hT (by simp [hside, h2]) hp hl (by simp [State.inScope, hport, h0, State.received_principal, hk]) hfeat
/-- A message of the module, about no parcel, that the principal makes. -/
theorem State.admits_module (hf : s.fromPrincipal rq = true) (h0 : m.scope = .principal) (h1 : m.parcel = false) (h2 : m.sideOnly = false) (h3 : m.feature = none) :
    s.Admits rq m 0xFF := State.admits_principal hf h0 h2 (.inr rfl) (s.parcelFree _ h1) (s.featureFree h3)
/-- A message of the module that any sender may make. -/
theorem State.admits_all (hT : s.takes rq = true) (h0 : m.scope = .any) (h1 : m.parcel = false) (hs : m.side = true) (h2 : m.sideOnly = false) (h3 : m.feature = none) :
    s.Admits rq m 0xFF := State.admits_any hT h0 (by simp [hs, h2]) (.inr rfl) (s.parcelFree _ h1) (s.featureFree h3)
/-- A message of the module that any port may make. -/
theorem State.admits_port (hf : s.fromPort rq = true) (h0 : m.scope = .any) (h1 : m.parcel = false) (h2 : m.sideOnly = false) (h3 : m.feature = none) : s.Admits rq m 0xFF := by
  obtain ⟨hT, hside⟩ := State.takes_of_port hf
  exact State.admits_any hT h0 (by simp [hside, h2]) (.inr rfl) (s.parcelFree _ h1) (s.featureFree h3)
end

end Sys2Proof.Machine
end

section
/-! Power, sounding and fault messages: O42 -/

namespace Sys2Proof.Machine
open Sys2Proof

theorem hCapSet_sets {t : State} {w : Nat} {f : Word} (hf : f.toNat < 2) (hw : w = 0 ∨ (900 ≤ w ∧ w ≤ t.licPower)) :
    hCapSet w f t = (t.modTrellis (fun x => x.setCap w (f.getLsbD 0)), some { status := 0, payload := natLe 4 (t.modTrellis (fun x => x.setCap w (f.getLsbD 0))).effCap }) := by
  have hcap : t.capOk w = true := by simpa [State.capOk] using hw
  simp [hCapSet, Nat.not_le.2 hf, hcap, replies]
theorem hShareSet_sets {t : State} {p w fl : Nat} (h1 : 1 ≤ w) (h2 : w ≤ 255) (h3 : fl ≤ 5000) :
    hShareSet p w fl t = (t.modTr p (fun x => { x with weight := w, floor := fl }), some Ans.ok) := if_neg (by omega)
theorem hLeaseSet_sets {t : State} {rq : Requester} {c d e : Nat} (hh : t.leaseHolder rq = true) (hc : t.capOk c = true) (he : t.capOk e = true) (h1 : 1 ≤ d) (h2 : d ≤ 86400) :
    hLeaseSet rq c d e t = (t.modTrellis (fun x => { x with lease := some (c, t.tNs + d * 1000000000, e), leaseCap := some c }), some Ans.ok) := by
  have hd : (!t.capOk c || decide (d = 0) || decide (86400 < d) || !t.capOk e) = false := by simp [hc, he, Nat.not_lt.2 h2, Nat.ne_of_gt h1]
  rw [hLeaseSet, hh, hd]
  rfl
theorem hContractSet_port {t : State} {rq : Requester} {w r d : Nat} (hs : isSideband rq = false) (h : t.contractRefusal w r d = 0) :
    hContractSet rq w r d t = (t.newContract false w r d, some { status := 0, payload := natLe 8 (t.tMin w r) }) := by
  rw [hContractSet]
  simp only [hs, h]
  rfl
/-- A sounding of a target that no running parcel holds, and that is no stress sounding, runs at once (15 R322). -/
theorem hSoundRun_runs {t : State} {rq : Requester} {p : Nat} {f : SoundF} (fnd : SoundFinding) {g : SoundTarget} (hwell : soundWell f = true)
    (hg : t.soundTarget p f = some g) (hsc : t.soundScope rq p g = true) (hheld : t.soundHeld g = false) (hstress : ∀ u, g ≠ .stress u)
    (hd : t.destructiveOk f g = true) (hrun : (t.targetParcel p g).any (fun k => (t.parcel k).running) = false) :
    hSoundRun rq p f fnd t = (t.soundRun f fnd g, some (soundAns f.pass t.flog.next (t.soundRun f fnd g).flog.next)) := by
  rw [hSoundRun]
  simp only [hwell, hg, hsc, hheld, Bool.not_true, Bool.false_eq_true, if_false]
  cases g with
  | stress u => exact absurd rfl (hstress u)
  | _ => simp only [hd, hrun, Bool.not_true, Bool.false_eq_true, if_false, replies]
theorem hFaultLog_inline {t : State} {rq : Requester} {n k : Nat} (h1 : 1 ≤ k) (h2 : k ≤ 62) :
    hFaultLog rq n k none t =
      let es := (t.flog.ring.filter (fun e => decide (n ≤ e.seq) && t.seesEntry rq e)).take k
      let next := match es.getLast? with
        | some e => e.seq + 1
        | none => max n t.flog.next
      (t, some { status := 0, payload := logHead next t.flog.lost.word es.length ++ es.flatMap (fun e => e.bytes) }) := by
  rw [hFaultLog, if_neg (by simp; omega)]
  rfl
theorem hLogClear_clears {t : State} {f : Word} (hf : f.toNat < 2) :
    hLogClear f t = ({ t with flog := { t.flog with ring := [], esc := if f.getLsbD 0 then Esc.init else t.flog.esc } }, some Ans.ok) := if_neg (Nat.not_le.2 hf)
theorem hFaultCounters_some {t : State} {p u x y i : Nat} {bs : Bytes} (h : t.unitCounters p u x y i = some bs) :
    hFaultCounters p u x y i t = (t, some { status := 0, payload := bs }) := by rw [hFaultCounters, h]; rfl

/-- Settles O42: each message passes the checks of its table row, and its handler does what the clause says. -/
theorem powerSoundAndFaultMessages : Obligations.PowerSoundAndFaultMessages := by
  intro s rq p
  refine ⟨fun w f hfrom hf hw => ?cap, fun w fl hfrom hp hl h1 h2 h3 => ?share, fun eid g c d e hrq hT hside h0 hc he h1 h2 => ?lease, fun w r d hfrom hok => ?contract,
    fun hT => ?forecast, fun hT => ?status, fun e hfrom he => ?sideband, fun f fnd g hfrom hp hl hwell hg hheld hstress hd hrun => ?sound, fun n k hT h1 h2 => ?log,
    fun hfrom => ?summary, fun f hfrom hf => ?clear, fun u x y i bs hfrom hbs => ?counters⟩
  case cap =>
    have hw' : w = 0 ∨ (900 ≤ w ∧ w ≤ (s.received rq).licPower) := by rwa [s.of_received State.licPower (fun _ _ => rfl) rq]
    exact (State.admits_module hfrom rfl rfl rfl rfl).answer (hCapSet_sets hf hw') _
  case share => exact (State.admits_principal hfrom rfl rfl (.inl hp) (fun _ => ⟨hp, hl⟩) (s.featureFree rfl)).answer (hShareSet_sets h1 h2 h3) _
  case lease =>
    subst hrq
    have hholder : s.leaseHolder (.sideband eid g) = true := by simp [State.leaseHolder, hside, h0]
    exact (State.admits_any hT rfl rfl (.inr rfl) (s.parcelFree _ rfl) (s.featureFree rfl)).answer (hLeaseSet_sets hholder hc he h1 h2) _
  case contract =>
    obtain ⟨_, hside, _⟩ := State.takes_of_principal hfrom
    exact (State.admits_module hfrom rfl rfl rfl rfl).answer (hContractSet_port hside hok) _
  case forecast =>
    have hh : hForecast (s.received rq) = (s.received rq, some { status := 0, payload := s.trellis.forecastBytes }) := by
      rw [hForecast, s.received_trellis]
      rfl
    exact (State.admits_all hT rfl rfl rfl rfl rfl).answer hh _
  case status => exact (State.admits_all hT rfl rfl rfl rfl rfl).answer rfl _
  case sideband => exact (State.admits_module hfrom rfl rfl rfl rfl).answer (if_neg (Nat.not_le.2 he)) _
  case sound =>
    obtain ⟨hT, hside, k, hport, hk⟩ := State.takes_of_principal hfrom
    have hsc : (s.received rq).soundScope rq p g = true := by simp [State.soundScope, hport, State.received_principal, hk]
    have ha : s.Admits rq (miSoundRun p) p :=
      State.admits_any hT rfl (by simp [hside, miSoundRun]) (.inl hp) (fun _ => ⟨hp, hl⟩) (s.featureFree rfl)
    have hrun' := hSoundRun_runs (rq := rq) fnd hwell hg hsc hheld hstress hd hrun
    rw [s.received_flog] at hrun'
    exact ha.answer hrun' _
  case log =>
    have hlog := hFaultLog_inline (t := s.received rq) (rq := rq) (n := n) h1 h2
    rw [s.received_flog] at hlog
    exact (State.admits_all hT rfl rfl rfl rfl rfl).answer hlog _
  case summary =>
    have hsum := (State.admits_port (m := miFaultSummary) hfrom rfl rfl rfl rfl).answer (h := hFaultSummary) rfl (.faultSummary rq)
    rw [s.received_flog] at hsum
    exact hsum
  case clear =>
    have hh := hLogClear_clears (t := s.received rq) hf
    rw [s.received_flog] at hh
    exact (State.admits_module hfrom rfl rfl rfl rfl).answer hh _
  case counters =>
    have hbs' : (s.received rq).unitCounters p u.toNat x y i = some bs := by rwa [s.of_received (fun t => t.unitCounters p u.toNat x y i) (fun _ _ => rfl) rq]
    exact (State.admits_either hfrom rfl rfl (s.featureFree rfl)).answer (hFaultCounters_some hbs') _

end Sys2Proof.Machine
end

section
/-! The trellis commands: O51 -/

namespace Sys2Proof.Machine
open Sys2Proof

section
variable {s : State}

/-- The measurement writes one sample into the window of the millisecond, then what it makes of the windows (14 R281, R282). -/
theorem foldl_modTr_trellis (g : State → Nat → PTrellis → PTrellis) : ∀ (l : List Nat) (u : State), (l.foldl (fun u p => u.modTr p (g u p)) u).trellis = u.trellis
  | [], _ => rfl
  | p :: l, u => by
    rw [List.foldl_cons]
    exact foldl_modTr_trellis g l _
/-- The sample of one loop. -/
def State.sampled (s : State) (t : TrellisInputs) : State :=
  let u := s.takeReadings t
  let v := u.modTrellis (fun x => { x with wins := addSample x.wins (u.plate.wall.toNat / 1000000) t.powerW (u.railMw (fun _ => true)), energyUj := x.energyUj + 10 * t.powerW })
  v.modTrellis (fun x => { x with power := x.lastWin.mean })
/-- With what each parcel draws. -/
def State.attributedAll (s : State) : State := (List.range 4).foldl (fun u p => u.modTr p (fun r => { r with power := u.attributed (u.parcel p) })) s
theorem State.attributedAll_trellis (s : State) : s.attributedAll.trellis = s.trellis :=
  foldl_modTr_trellis (fun u p r => { r with power := u.attributed (u.parcel p) }) (List.range 4) s
theorem State.measure_trellis (t : TrellisInputs) : ∃ b, (s.measure t).trellis = { (s.sampled t).trellis with base := b } := by
  have hbase : ∃ b, (s.measure t).trellis = { (s.sampled t).attributedAll.trellis with base := b } := ⟨_, rfl⟩
  rwa [State.attributedAll_trellis] at hbase

/-- What a publication does when the power of the window is not above the cap (14 R289, R295). -/
def State.publishCalm (s : State) : State :=
  let u := s.modTrellis (fun x => { x with overs := 0 })
  let f := u.aheadW
  let v := if s.trellis.bins = [] ∨ s.trellis.binsNs + 10000000 ≤ s.plate.wall.toNat then
      u.modTrellis (fun x => { x with bins := (List.range 10).map (fun k => let b := (f.drop (10 * k)).take 10; (maxOf b, meanOf b)), binsNs := s.plate.wall.toNat })
    else u
  v.modTrellis (fun x => { x with mirror := v.mirrorWords.foldl (fun m w => Sparse.set 0#32 m w.1 (BitVec.ofNat 32 w.2)) x.mirror })
theorem exec_forecastPublish_calm (hst : s.trellis.started = true) (hf : s.trellis.failed = false)
    (hlow : s.trellis.wins.length < 2 ∨ s.trellis.power ≤ s.effCap + max (s.effCap / 50) 25) : exec .forecastPublish s = .next s.publishCalm := by
  have hcalm : (decide (s.effCap + max (s.effCap / 50) 25 < s.trellis.power) && decide (2 ≤ s.trellis.wins.length)) = false := by
    rcases hlow with h | h
    · simp [h]
    · simp [Nat.not_lt.2 h]
  change execForecastPublish s = _
  rw [execForecastPublish, if_neg (by simp [hst, hf])]
  simp only [hcalm]
  rfl
theorem State.publishCalm_keeps : s.publishCalm.parcels = s.parcels ∧ s.publishCalm.fields = s.fields ∧ s.publishCalm.flog = s.flog ∧ s.publishCalm.trellis.overs = 0 := by
  unfold State.publishCalm
  extract_lets u f v
  have hv : v.parcels = s.parcels ∧ v.fields = s.fields ∧ v.flog = s.flog ∧ v.trellis.overs = 0 := by
    by_cases hbins : s.trellis.bins = [] ∨ s.trellis.binsNs + 10000000 ≤ s.plate.wall.toNat
    · rw [show v = _ from if_pos hbins]
      exact ⟨rfl, rfl, rfl, rfl⟩
    · rw [show v = _ from if_neg hbins]
      exact ⟨rfl, rfl, rfl, rfl⟩
  exact hv
theorem State.publishCalm_bins (h : s.trellis.bins = []) : s.publishCalm.trellis.bins.length = 10 ∧ s.publishCalm.trellis.binsNs = s.plate.wall.toNat := by
  unfold State.publishCalm
  extract_lets u f v
  have hv : v.trellis.bins.length = 10 ∧ v.trellis.binsNs = s.plate.wall.toNat := by
    rw [show v = _ from if_pos (.inl h)]
    exact ⟨by simp [State.modTrellis], rfl⟩
  exact hv

theorem exec_trellisControlLoop_off (t : TrellisInputs) (h : s.trellis.started = false ∨ s.trellis.failed = true ∨ s.trellis.reloading = true) :
    exec (.trellisControlLoop t) s = .next s := by
  have hoff : (!s.trellis.started || s.trellis.failed || s.trellis.reloading) = true := by rcases h with h | h | h <;> simp [h]
  exact congrArg _ (if_pos hoff)
end

/-- Settles O51: each command by the state of the trellis that it meets. -/
theorem trellisCommands : Obligations.TrellisCommands := by
  intro s
  refine ⟨fun t h => exec_trellisControlLoop_off t h, fun t hst hf hr => ⟨fun hc => ?disagree, fun hc => ?agree, ?wins, ?power, ?energy⟩, fun hr => ?noReload, fun hr hn => ?reload,
    fun hr hn => ?fails, fun h => ?noForecast, fun hst hf hlow => ?forecast, fun p hp ho => ?noLearn, fun p o hp hl hi hst ho hn => ?learn, fun e o hn => ?merge,
    fun p ph n hp hrun hst hf hfits => ?hint, fun cap ns ex hl => ?lease, fun c hc hle => ?missedP, fun c hc hle => ?missedL⟩
  case disagree =>
    change execTrellisControlLoop t s = _
    simp [execTrellisControlLoop, hst, hf, hr, hc]
  case agree =>
    have hon : ¬ (!s.trellis.started || s.trellis.failed || s.trellis.reloading) = true := by simp [hst, hf, hr]
    have hagree : ¬ (!t.copiesAgree) = true := by simp [hc]
    change execTrellisControlLoop t s = _
    rw [execTrellisControlLoop, if_neg hon, if_neg hagree]
  case wins =>
    obtain ⟨b, h⟩ := s.measure_trellis t
    rw [h]
    rfl
  case power =>
    obtain ⟨b, h⟩ := s.measure_trellis t
    rw [h]
    rfl
  case energy =>
    obtain ⟨b, h⟩ := s.measure_trellis t
    rw [h]
    rfl
  case noReload =>
    change execTrellisReload s = _
    simp [execTrellisReload, hr]
  case reload =>
    change execTrellisReload s = _
    rw [execTrellisReload, if_neg (by simp [hr])]
    exact congrArg _ (if_neg (Nat.not_le.2 hn))
  case fails =>
    change execTrellisReload s = _
    rw [execTrellisReload, if_neg (by simp [hr])]
    exact congrArg _ (if_pos hn)
  case noForecast =>
    have hoff : (!s.trellis.started || s.trellis.failed) = true := by rcases h with h | h <;> simp [h]
    exact congrArg _ (if_pos hoff)
  case forecast =>
    obtain ⟨hparcels, hfields, hlog, hovers⟩ := s.publishCalm_keeps
    exact ⟨_, exec_forecastPublish_calm hst hf hlow, hparcels, hfields, hlog, hovers, State.publishCalm_bins⟩
  case noLearn =>
    change execPhaseLearn p s = _
    simp [execPhaseLearn, Nat.not_le.2 hp, ho]
  case learn =>
    have hsome : (s.parcel p).image.isNone = false := by cases hi' : (s.parcel p).image <;> simp [hi'] at hi ⊢
    refine ⟨fun hshort => ?_, fun hlong => ?_⟩
    · change execPhaseLearn p s = _
      simp [execPhaseLearn, Nat.not_le.2 hp, ho, hshort]
    · change execPhaseLearn p s = _
      have hgo : ¬ (!(s.parcel p).live || (s.parcel p).image.isNone || !s.trellis.started || decide (o.n = 0) || decide (o.untilNs < o.sinceNs + 100000)) = true := by
        simp [hl, hsome, hst, Nat.ne_of_gt hn, hlong]
      rw [execPhaseLearn, if_neg (Nat.not_le.2 hp)]
      simp only [ho]
      exact congrArg _ (if_neg hgo)
  case merge =>
    have hmax : max 1 o.n = o.n := Nat.max_eq_right hn
    refine ⟨?_, ?_, ?_, rfl, fun hb => ?_⟩
    · simp only [PhaseEnt.learn, hmax]
    · simp only [PhaseEnt.learn, hmax]
    · simp only [PhaseEnt.learn, hmax]
    · simp only [PhaseEnt.learn, hb]
  case hint =>
    change execCrushHint p ph n s = _
    have hfits' : ¬ 1000 * (s.parcel p).tr.share < ((s.parcel p).phaseEnt ph.toNat (s.parcelTemp (s.parcel p))).forecastMw (s.fcode (s.parcel p)) (s.parcel p).tr.beta
        (s.parcelTemp (s.parcel p)) := Nat.not_lt.2 hfits
    rw [execCrushHint, if_neg (Nat.not_le.2 hp)]
    simp only [hrun, hst, hf, hfits', false_and]
    rfl
  case lease =>
    change execLeaseExpired s = _
    simp only [execLeaseExpired, hl]
  case missedP =>
    change execContractMissed false s = _
    simp [execContractMissed, hc, State.endContract, hle]
  case missedL =>
    change execContractMissed true s = _
    simp [execContractMissed, hc, State.endContract, hle]

end Sys2Proof.Machine
end

section
/-! The raising engine's commands (16): O48 -/

namespace Sys2Proof.Machine
open Sys2Proof

/-- What no turn of a fold changes, the fold does not change. -/
theorem foldl_kept {α β : Type} (π : State → β) (f : State → α → State) (hf : ∀ u a, π (f u a) = π u) (l : List α) (s : State) : π (l.foldl f s) = π s :=
  List.foldlRecOn (motive := fun t => π t = π s) l f rfl (fun t h a _ => (hf t a).trans h)
theorem State.report_raising (s : State) (r : Report) : (s.report r).raising = s.raising := by
  obtain ⟨_, _, _, _, _, _, h⟩ := s.report_eq r
  rw [h]

section
variable {s : State} {port : Nat}

/-- A write to the RAISE block by a port whose writes wait for nothing has its effect at once. -/
theorem State.raiseWrite_now (hp : port < 4) (hw : s.writeHeld port = false) (i : Instr) (g : State → State) : s.raiseWrite port i g = .next (g s) :=
  (s.onPort_of_lt _ hp).trans (by simp only [hw, Bool.and_false, Bool.false_eq_true, if_false])

/-- The RAISE block once it has accepted a command (16 R336). -/
def State.acceptedRaise (s : State) (port op : Nat) (m : BitVec 10) (mt : Bool) : Raising :=
  { s.raising with errCode := 0, errStep := 0, errField := 15, errOp := op, lastOp := op, cmd := some { op := op, port := port, fields := m, memtest := mt, atNs := s.tNs } }
theorem State.raiseAccept_raising {op : Nat} {m : BitVec 10} (h : s.raiseRefusal op m = 0) (mt : Bool) :
    (s.raiseAccept port op m mt).raising = s.acceptedRaise port op m mt := by
  simp only [State.raiseAccept, h, ne_eq, not_true_eq_false, if_false]
  split
  · exact foldl_kept State.raising _ (fun u f => u.modField_raising f _) _ _
  · exact foldl_kept State.raising _ (fun u f => u.modField_raising f _) _ _
  · rfl
/-- The commands that name no fields change the RAISE block alone. -/
theorem State.raiseAccept_verify (h : s.raiseRefusal 1 0#10 = 0) : s.raiseAccept port 1 0#10 false = { s with raising := s.acceptedRaise port 1 0#10 false } := by
  simp only [State.raiseAccept, h, ne_eq, not_true_eq_false, if_false]
  rfl
theorem State.raiseAccept_config (h : s.raiseRefusal 3 0#10 = 0) : s.raiseAccept port 3 0#10 false = { s with raising := s.acceptedRaise port 3 0#10 false } := by
  simp only [State.raiseAccept, h, ne_eq, not_true_eq_false, if_false]
  rfl
theorem State.raiseAccept_refused {op : Nat} {m : BitVec 10} {why : Nat} (h : s.raiseRefusal op m = why) (h0 : why ≠ 0) (mt : Bool) :
    s.raiseAccept port op m mt = { s with raising := { s.raising with errCode := why, errStep := 0, errField := 15, errOp := op, cmdRej := true } } := by
  simp only [State.raiseAccept, h, if_pos h0]
  rfl

section
variable (ho : s.raising.owner = some port) (hl : s.portLive port = true) (hc : s.raising.cmd = none)
include ho hl hc
theorem State.raiseTake_principal (op : Nat) (m : BitVec 10) (mt : Bool) :
    s.raiseTake port op m mt = (s.raiseAccept port op m mt, (s.raiseAccept port op m mt).raising.cmd) := by
  simp only [State.raiseTake, State.isPrincipal, ho, hc, hl, decide_true, Bool.not_true, Bool.false_eq_true, if_false, if_true]
theorem State.raiseTake_accepted {op : Nat} {m : BitVec 10} (h : s.raiseRefusal op m = 0) (mt : Bool) :
    s.raiseTake port op m mt = (s.raiseAccept port op m mt, some { op := op, port := port, fields := m, memtest := mt, atNs := s.tNs }) := by
  rw [State.raiseTake_principal ho hl hc, State.raiseAccept_raising h]
  rfl
end
theorem State.raiseTake_other (ho : s.raising.owner ≠ some port) (op : Nat) (m : BitVec 10) (mt : Bool) : s.raiseTake port op m mt = (s, none) :=
  if_pos (by simp [State.isPrincipal, ho])

theorem State.claimBy_free (h : s.raising.owner = none) : s.claimBy port =
    { s with raising := { s.raising with owner := some port, stage := 1 }
             sealU := { s.sealU with ready := true, identity := Config.pufReads s.freeCtr, mr := [extendMr 0 Config.sealRomDigest, 0, 0, 0, 0, 0, 0, 0] }
             freeCtr := s.freeCtr + 1 } := by
  rw [State.claimBy, if_neg (by simp [h])]
  rfl
theorem State.claimBy_held {k : Nat} (h : s.raising.owner = some k) : s.claimBy port = s := if_pos (by simp [h])

/-- The seal's verdict on the staged firmware takes effect (16 R331). -/
def State.firmwareVerified (s : State) : State :=
  let code := fwCheck s.raising.staging s.raising.fwLen s.sealU.fwFloor
  if code ≠ 0 then s.raiseErr code 0 15 1
  else
    let h := s.raising.staging.readBytes 0 352
    let d := fun k => BitVec.ofNat 384 (fwComp h k).2.2
    let x := ((s.sealU.extend 1 (sha384Val (h.take 256))).extend 2 (d 1)).extend 3 (d 2)
    let s := { s with sealU := { x with microDigest := d 1, sillDigest := d 2 } }
    s.modRaising (fun r => { r with stage := 2, fwVer := h.leAt 8 4, locked := true })
theorem State.firmwareVerified_good (h : fwCheck s.raising.staging s.raising.fwLen s.sealU.fwFloor = 0) :
    s.firmwareVerified.raising = { s.raising with stage := 2, fwVer := (s.raising.staging.readBytes 0 352).leAt 8 4, locked := true } ∧ s.firmwareVerified.sealU.fwFloor = s.sealU.fwFloor := by
  rw [State.firmwareVerified, if_neg (not_not_intro h)]
  exact ⟨rfl, rfl⟩
theorem State.firmwareVerified_bad (h : fwCheck s.raising.staging s.raising.fwLen s.sealU.fwFloor ≠ 0) :
    s.firmwareVerified = s.raiseErr (fwCheck s.raising.staging s.raising.fwLen s.sealU.fwFloor) 0 15 1 := if_pos h

section
variable (hp : port < 4) (hw : s.writeHeld port = false)
include hp hw
theorem exec_claim (hl : s.portLive port = true) : exec (.claim port) s = .next (s.claimBy port) :=
  (s.raiseWrite_now hp hw _ _).trans (congrArg _ (if_pos hl))

theorem exec_verifyFw_accepted (ho : s.raising.owner = some port) (hl : s.portLive port = true) (hc : s.raising.cmd = none) (h : s.raiseRefusal 1 0#10 = 0) :
    exec (.verifyFw port) s = .next ({ s with raising := { s.acceptedRaise port 1 0#10 false with cmd := none } } : State).firmwareVerified := by
  change execVerifyFw port s = _
  rw [execVerifyFw, State.raiseWrite_now hp hw]
  simp only [State.raiseTake_accepted ho hl hc h, State.raiseAccept_verify h]
  rfl
theorem exec_verifyFw_refused (ho : s.raising.owner = some port) (hl : s.portLive port = true) (hc : s.raising.cmd = none) {why : Nat} (h : s.raiseRefusal 1 0#10 = why) (h0 : why ≠ 0) :
    exec (.verifyFw port) s = .next { s with raising := { s.raising with errCode := why, errStep := 0, errField := 15, errOp := 1, cmdRej := true } } := by
  change execVerifyFw port s = _
  rw [execVerifyFw, State.raiseWrite_now hp hw]
  simp only [State.raiseTake_principal ho hl hc, State.raiseAccept_refused h h0, hc]
theorem exec_startCmst (ho : s.raising.owner = some port) (hl : s.portLive port = true) (hc : s.raising.cmd = none) (h : s.raiseRefusal 2 0#10 = 0) :
    exec (.startCmst port) s = .next (s.raiseAccept port 2 0#10 false) := by
  change execStartCmst port s = _
  rw [execStartCmst, State.raiseWrite_now hp hw, State.raiseTake_accepted ho hl hc h]
theorem exec_raise (ho : s.raising.owner = some port) (hl : s.portLive port = true) (hc : s.raising.cmd = none) (m : BitVec 10) (mt : Bool) (fnd : List FieldFindings) (h : s.raiseRefusal 4 m = 0) :
    exec (.raise port m mt fnd) s = .next ((raiseGo fnd mt (decide (s.raising.stage = 5)) 10
      (columnOrder ((maskFields m).filter (fun f => decide (((s.raiseAccept port 4 m mt).field f).st = .raising)))) (s.raiseAccept port 4 m mt)).raiseIdle) := by
  change execRaise port m mt fnd s = _
  rw [execRaise, State.raiseWrite_now hp hw]
  have hstage : (s.raiseAccept port 4 m mt).raising.stage = s.raising.stage := by
    rw [State.raiseAccept_raising h]
    rfl
  simp only [State.raiseTake_accepted ho hl hc h, hstage]
theorem exec_unpark (ho : s.raising.owner = some port) (hl : s.portLive port = true) (hc : s.raising.cmd = none) (m : BitVec 10) (fnd : List FieldFindings) (h : s.raiseRefusal 6 m = 0) :
    exec (.unpark port m fnd) s = .next (((columnOrder ((maskFields m).filter (fun f => decide (((s.raiseAccept port 6 m false).field f).st = .unparking)))).foldl
      (fun (u : State) f => (u.fastField f (findingOf fnd f)).1.noteRaise f 6 (u.fastField f (findingOf fnd f)).2) (s.raiseAccept port 6 m false)).raiseIdle) := by
  change execUnpark port m fnd s = _
  rw [execUnpark, State.raiseWrite_now hp hw]
  simp only [State.raiseTake_accepted ho hl hc h]
end

/-! The RAISE block stands while VERIFY_CONFIG applies what it has read. -/

theorem State.readGrain_raising (s : State) (g : GrainBody) : (s.readGrain g).raising = s.raising := by
  unfold State.readGrain
  refine (foldl_kept State.raising _ (fun u e => ?_) _ _).trans ((foldl_kept State.raising _ (fun u e => ?_) _ _).trans (foldl_kept State.raising _ (fun u e => ?_) _ _))
  · exact iteInduction (motive := fun t : State => t.raising = u.raising) (fun _ => rfl) (fun _ => rfl)
  · exact iteInduction (motive := fun t : State => t.raising = u.raising) (fun _ => rfl) (fun _ => rfl)
  · exact iteInduction (motive := fun t : State => t.raising = u.raising) (fun _ => rfl) (fun _ => rfl)
theorem State.applyEsc_raising (s : State) (f : Nat) : (s.applyEsc f).raising = s.raising := by
  unfold State.applyEsc
  rw [State.modField_raising]
  exact (foldl_kept State.raising _ (fun u c => u.modCask_raising c _) _ _).trans (foldl_kept State.raising _ (fun u k => u.modField_raising f _) _ _)
theorem State.releaseLath_raising (s : State) : s.releaseLath.raising = s.raising := by
  unfold State.releaseLath
  exact foldl_kept State.raising _ (fun u n => u.modSeam_raising n _) _ s
theorem State.reportTrips_raising (s : State) : s.reportTrips.raising = s.raising := by
  unfold State.reportTrips
  exact foldl_kept State.raising (fun (u : State) t => let v := u.report { code := 0x0803, detail := tripDetail t }
    { v with flog := { v.flog with trips := v.flog.trips ++ (v.flog.ring.getLast?).toList } }) (fun u t => u.report_raising _) s.pins.tripRec s

/-- The state in which VERIFY_CONFIG has checked the grain map and read keys and licence (16 R333 step 1). -/
def State.configRead (s : State) (ok : Bool) (g : Bytes) : State :=
  let x := if ok then s.sealU.extend 4 (sha384Val (g.take (g.length - 96))) else s.sealU
  let s := { s with sealU := { x with keys := x.keysFlash } }
  let s := s.readLicence
  { s with sealU := s.sealU.extend 6 (sha384Val (keyTableBytes s.sealU.keys)) }
/-- The grain map's body, the summary and the hubs take effect. -/
def State.configApplied (s : State) (ok : Bool) (body : GrainBody) (sh : List Nat) : State :=
  let s := if ok then s.readGrain body else s
  let s := (List.range 10).foldl (fun s f => s.applyEsc f) s
  let s := s.flog.esc.seams.foldl (fun s n => s.modSeam n (fun m => { m with retired := true })) s
  let dark := fun f => s.flog.esc.shorted.contains f || sh.contains f
  ((List.range 10).foldl (fun s f => s.modField f (fun y => { y with hub := !dark f })) s).releaseLath
theorem State.configApplied_raising (s : State) (ok : Bool) (body : GrainBody) (sh : List Nat) : (s.configApplied ok body sh).raising = s.raising := by
  unfold State.configApplied
  rw [State.releaseLath_raising]
  refine (foldl_kept State.raising _ (fun u f => u.modField_raising f _) _ _).trans ((foldl_kept State.raising _ (fun u n => u.modSeam_raising n _) _ _).trans ((foldl_kept State.raising _ (fun u f => u.applyEsc_raising f) _ _).trans ?_))
  cases ok with
  | false => rfl
  | true => exact s.readGrain_raising body

/-- The end of VERIFY_CONFIG. -/
def State.configDone (u : State) (ok : Bool) : State :=
  let u := { u with trellis := { u.trellis with started := true } }
  let u := u.modRaising (fun r => { r with stage := 4, grainOk := ok })
  u.raiseErr (if !ok then 0x0F09 else if !u.raising.licOk then 0x0F0A else 0) 0 15 3
/-- What VERIFY_CONFIG does once it has been accepted (16 R333). -/
def State.configVerified (s : State) (g : Bytes) (body : GrainBody) (sh : List Nat) : State :=
  let s := s.raiseIdle
  let ok := grainOk s.sealU.identity g
  ((s.configRead ok g).configApplied ok body sh).reportTrips.configDone ok

theorem State.configDone_answer {u : State} (hc : u.raising.cmd = none) (ht : u.pins.tripRec = []) (ok : Bool) :
    (u.configDone ok).raising.cmd = none ∧ (u.configDone ok).raising.stage = 4 ∧ (u.configDone ok).raising.grainOk = ok ∧ (u.configDone ok).trellis.started = true ∧
      (u.configDone ok).pins.tripRec = [] := ⟨hc, rfl, rfl, rfl, ht⟩
theorem State.reportTrips_tripRec (s : State) : s.reportTrips.pins.tripRec = [] := rfl
/-- Then no command runs any more, and the trips that the pins recorded have been reported. -/
theorem State.configVerified_answer (s : State) (g : Bytes) (body : GrainBody) (sh : List Nat) :
    (s.configVerified g body sh).raising.cmd = none ∧ (s.configVerified g body sh).raising.stage = 4 ∧ (s.configVerified g body sh).raising.grainOk = grainOk s.sealU.identity g ∧
      (s.configVerified g body sh).trellis.started = true ∧ (s.configVerified g body sh).pins.tripRec = [] := by
  refine State.configDone_answer ?_ (State.reportTrips_tripRec _) (grainOk s.sealU.identity g)
  rw [State.reportTrips_raising, State.configApplied_raising]
  rfl
theorem execVerifyConfig_taken (hp : port < 4) (hw : s.writeHeld port = false) {t : State} {c : RaiseCmd} (ht : s.raiseTake port 3 0#10 false = (t, some c)) (g : Bytes) (body : GrainBody) (sh : List Nat) :
    execVerifyConfig port g body sh s = .next (t.configVerified g body sh) := by
  rw [execVerifyConfig, State.raiseWrite_now hp hw, ht]
  rfl
theorem exec_verifyConfig_accepted (hp : port < 4) (hw : s.writeHeld port = false) (ho : s.raising.owner = some port) (hl : s.portLive port = true) (hc : s.raising.cmd = none)
    (g : Bytes) (body : GrainBody) (sh : List Nat) (h : s.raiseRefusal 3 0#10 = 0) :
    exec (.verifyConfig port g body sh) s = .next ((s.raiseAccept port 3 0#10 false).configVerified g body sh) :=
  execVerifyConfig_taken hp hw (State.raiseTake_accepted ho hl hc h false) g body sh
/-- The acceptance leaves the seal's identity as it was. -/
theorem State.raiseAccept_identity (h : s.raiseRefusal 3 0#10 = 0) : (s.raiseAccept port 3 0#10 false).sealU.identity = s.sealU.identity := by
  rw [State.raiseAccept_config h]

/-- What an accepted verification of the firmware leaves: the code, the stage, and the floor as it was. -/
theorem State.firmwareVerified_answer {u : State} (hu : u.raising.cmd = none) (hop : u.raising.lastOp = 1) (he : u.raising.errCode = 0) :
    let code := fwCheck u.raising.staging u.raising.fwLen u.sealU.fwFloor
    u.firmwareVerified.raising.cmd = none ∧ u.firmwareVerified.raising.lastOp = 1 ∧ u.firmwareVerified.raising.errCode = code ∧
      u.firmwareVerified.raising.stage = (if code = 0 then 2 else u.raising.stage) ∧ u.firmwareVerified.sealU.fwFloor = u.sealU.fwFloor := by
  intro code
  by_cases hcode : code = 0
  · obtain ⟨hraising, hfloor⟩ := State.firmwareVerified_good hcode
    rw [if_pos hcode, hcode, hraising]
    exact ⟨hu, hop, he, rfl, hfloor⟩
  · rw [if_neg hcode, State.firmwareVerified_bad hcode]
    exact ⟨hu, hop, rfl, rfl, rfl⟩

/-! A field that goes off, and the step that overruns. -/

/-- A field's VFAB that goes off writes that field alone. -/
theorem State.vfabDown_fields (s : State) (f : Nat) : (s.vfabDown f).fields =
    (s.modField f (fun x => { x with supply := { x.supply with vfab := false, mv := 0 }, island := Island.init, cellarUp := false })).fields := by
  have hfields : ∀ u : State, u.fields = s.fields → (u.modField f (fun x => { x with supply := { x.supply with vfab := false, mv := 0 }, island := Island.init, cellarUp := false })).fields =
      (s.modField f (fun x => { x with supply := { x.supply with vfab := false, mv := 0 }, island := Island.init, cellarUp := false })).fields := fun u hu => by
    simp only [State.modField, State.setField, State.field, hu]
  unfold State.vfabDown
  refine (foldl_kept State.fields _ (fun u c => u.modCask_fields c _) _ _).trans (hfields _ ?_)
  exact (foldl_kept State.fields _ (fun u (n : Nat × Nat) => u.modSeam_fields n.1 _) _ _).trans (foldl_kept State.fields _ (fun u b => u.modBay_fields b _) _ _)
theorem State.vfabDown_raising (s : State) (f : Nat) : (s.vfabDown f).raising = s.raising := by
  unfold State.vfabDown
  refine (foldl_kept State.raising _ (fun u c => u.modCask_raising c _) _ _).trans ?_
  exact (foldl_kept State.raising _ (fun u (n : Nat × Nat) => u.modSeam_raising n.1 _) _ _).trans (foldl_kept State.raising _ (fun u b => u.modBay_raising b _) _ _)
theorem State.fieldOff_raising (s : State) (f : Nat) (st : FState) : (s.fieldOff f st).raising = s.raising := s.vfabDown_raising f
theorem State.fieldOff_wf {f : Nat} (hw : Sparse.wf Field.init s.fields = true) (st : FState) : Sparse.wf Field.init (s.fieldOff f st).fields = true := by
  refine State.modField_wf ?_ _
  rw [State.vfabDown_fields]
  exact State.modField_wf hw _
theorem State.fieldOff_field {f : Nat} (hw : Sparse.wf Field.init s.fields = true) (st : FState) : ((s.fieldOff f st).field f).st = st := by
  have hdown : Sparse.wf Field.init (s.vfabDown f).fields = true := by
    rw [State.vfabDown_fields]
    exact State.modField_wf hw _
  rw [State.fieldOff, State.field_modField hdown]

/-- RAISE_DONE parks every field that is raised (16 R345). -/
def State.parkRaised (s : State) : State := (List.range 10).foldl (fun s f => if (s.field f).st = .raised then s.fieldOff f .parked else s) s
theorem State.parkRaised_raising (s : State) : s.parkRaised.raising = s.raising :=
  foldl_kept State.raising _ (fun u f => iteInduction (motive := fun t : State => t.raising = u.raising) (fun _ => u.fieldOff_raising f _) (fun _ => rfl)) _ s
theorem State.flushVectors_raising (s : State) (p : Nat) : (s.flushVectors p).raising = s.raising := by
  refine iteInduction (motive := fun t : State => t.raising = s.raising) (fun _ => rfl) (fun _ => foldl_kept State.raising _ (fun u v => ?_) _ _)
  exact iteInduction (motive := fun t : State => t.raising = u.raising) (fun _ => rfl) (fun _ => rfl)
theorem exec_raiseDone (hp : port < 4) (hw : s.writeHeld port = false) (ho : s.raising.owner = some port) (hl : s.portLive port = true) (hc : s.raising.cmd = none) (hs : s.raising.stage = 4) :
    ∃ t, exec (.raiseDone port) s = .next t ∧ t.raising = { s.raising with stage := 5, done := true, finishing := false } := by
  refine ⟨(List.range 4).foldl (fun s p => s.flushVectors p) (s.parkRaised.modRaising (fun r => { r with stage := 5, done := true, finishing := false })), ?_, ?_⟩
  · change execRaiseDone port s = _
    rw [execRaiseDone, State.raiseWrite_now hp hw, if_pos (by simp [State.isPrincipal, ho, hs, hc, hl])]
    rfl
  · exact (foldl_kept State.raising _ (fun u p => u.flushVectors_raising p) _ _).trans
      (congrArg (fun r : Raising => { r with stage := 5, done := true, finishing := false }) s.parkRaised_raising)
theorem exec_raiseDone_other (hp : port < 4) (hw : s.writeHeld port = false) (ho : s.raising.owner ≠ some port) : exec (.raiseDone port) s = .next s := by
  change execRaiseDone port s = _
  rw [execRaiseDone, State.raiseWrite_now hp hw, if_neg]
  simp [State.isPrincipal, ho]
/-- The step that overruns fails a field whose raising is not the fast one. -/
theorem RStep.finish_overrun (r : RStep) (f : Nat) (hcode : r.code = 0x0F18) :
    ∃ (fr : Field → Bool) (ca : Field → Bool), r.finish f false false = ((r.s.fieldOff f .failed).modField f (fun x => { x with code := 0x0F18, failRaise := fr x, calib := ca x }), 0x0F18, r.step) := by
  simp only [RStep.finish, hcode]
  exact ⟨_, _, rfl⟩
/-- The step of a field that overruns while its raising is not the fast one: the field fails, and RAISE_ERR takes it as the first failure (16 R338, R344). -/
theorem exec_raiseStepTimeout_full {f : Nat} (hf : f < 10) (hst : (s.field f).st = .raising) (hfast : (s.field f).fast = false) (herr : s.raising.errCode = 0)
    (hw : Sparse.wf Field.init s.fields = true) :
    ∃ t, exec (.raiseStepTimeout f) s = .next t ∧ (t.field f).st = .failed ∧ (t.field f).code = 0x0F18 ∧ t.raising.errCode = 0x0F18 ∧ t.raising.errField = f ∧
      t.raising.errStep = (s.field f).step := by
  obtain ⟨fr, ca, hfinish⟩ := RStep.finish_overrun { s := s, code := 0x0F18, step := (s.field f).step } f rfl
  let off : State := (s.fieldOff f .failed).modField f (fun x => { x with code := 0x0F18, failRaise := fr x, calib := ca x })
  have hoff : (off.field f).st = .failed ∧ (off.field f).code = 0x0F18 := by
    rw [State.field_modField (State.fieldOff_wf hw _)]
    exact ⟨State.fieldOff_field hw _, rfl⟩
  have herrOff : off.raising.errCode = 0 := (congrArg Raising.errCode (s.fieldOff_raising f .failed)).trans herr
  let noted : State := off.raiseErr 0x0F18 (s.field f).step f s.raising.lastOp
  have hnote : off.noteRaise f s.raising.lastOp (0x0F18, (s.field f).step) = noted := if_pos ⟨Nat.noConfusion, herrOff⟩
  have hexec : exec (.raiseStepTimeout f) s =
      .next (if (List.range 10).any (fun f => decide ((noted.field f).st = .raising) || decide ((noted.field f).st = .unparking)) then noted else noted.raiseIdle) := by
    change execRaiseStepTimeout f s = _
    rw [execRaiseStepTimeout, s.onField_of_lt _ hf, if_pos (.inl hst), hfast]
    simp only [hfinish]
    rw [hnote]
  refine ⟨_, hexec, ?_⟩
  split
  · exact ⟨hoff.1, hoff.2, rfl, rfl, rfl⟩
  · exact ⟨hoff.1, hoff.2, rfl, rfl, rfl⟩
end

/-- Settles O48: the claim, the staging window, each command of the principal by whether 16 R336 accepts it, RAISE_DONE, the firmware's report and the overrun of a step. -/
theorem raisingCommands : Obligations.RaisingCommands := by
  intro s port hp hl hw after
  refine ⟨fun h => ?claim, fun k h => ?held, fun ho => ⟨fun off bs => ?others, ?otherVerify, exec_raiseDone_other hp hw ho⟩,
    fun ho => ⟨fun off bs hs hlock => ?staging, fun hc => ⟨fun why h h0 => exec_verifyFw_refused hp hw ho hl hc h h0, fun h => ?verify, fun h => ⟨exec_startCmst hp hw ho hl hc h, ?lastOp⟩,
      fun g body sh h => ?config, fun m mt fnd h => exec_raise hp hw ho hl hc m mt fnd h, fun m fnd h => exec_unpark hp hw ho hl hc m fnd h, fun hs => ?done⟩⟩,
    fun c hc hop => ?ready, fun f hf hst hfast herr hwf => exec_raiseStepTimeout_full hf hst hfast herr hwf⟩
  case claim => rw [exec_claim hp hw hl, State.claimBy_free h]
  case held => rw [exec_claim hp hw hl, State.claimBy_held h]
  case others =>
    refine (s.barWrite_free port _ _ hp hw).trans ((congrArg _ (if_pos hl)).trans (congrArg _ (if_neg ?_)))
    simp [State.isPrincipal, ho]
  case otherVerify =>
    change execVerifyFw port s = _
    rw [execVerifyFw, State.raiseWrite_now hp hw]
    simp only [State.raiseTake_other ho]
  case staging =>
    refine (s.barWrite_free port _ _ hp hw).trans ((congrArg _ (if_pos hl)).trans (congrArg _ (if_pos ?_)))
    simp [State.isPrincipal, ho, hs, hlock]
  case verify => exact ⟨_, exec_verifyFw_accepted hp hw ho hl hc h, State.firmwareVerified_answer rfl rfl rfl⟩
  case lastOp => exact congrArg Raising.lastOp (State.raiseAccept_raising h false)
  case config =>
    have hans := (s.raiseAccept port 3 0#10 false).configVerified_answer g body sh
    rw [State.raiseAccept_identity h] at hans
    exact ⟨_, exec_verifyConfig_accepted hp hw ho hl hc g body sh h, hans⟩
  case done =>
    obtain ⟨t, hexec, hraising⟩ := exec_raiseDone hp hw ho hl hc hs
    refine ⟨t, hexec, ?_⟩
    rw [hraising]
    exact ⟨rfl, rfl, ho⟩
  case ready =>
    change ∃ t, execCmstReady s = .next t ∧ _
    simp only [execCmstReady, hc, hop, if_true]
    exact ⟨_, rfl, rfl, rfl, rfl, rfl⟩

end Sys2Proof.Machine
end

section
/-! The sys, parcel and image messages: O39 -/

namespace Sys2Proof.Machine
open Sys2Proof

section
variable {s : State} {p : Nat}

/-- A principal move under a fresh nonce, by a seal that runs, to a port whose link is up, rests on the signature alone; the nonce is used up (17 R366, 18 R377). -/
theorem hPrincipalMove_fresh {np id r g at_ : Nat} {nonce : Bytes} {k : RegKey} (hn : s.sealU.nonce = some ((nonce ++ zeroBytes 48).take 48, at_)) (ht : s.tNs < at_ + 60000000000)
    (hseal : s.sealU.halted = false) (hp : np < 4) (hl : (s.port np).linkUp = true) (hk : s.sealU.keys.find? (fun k => decide (k.id = id) && decide (k.use_ / 2 % 2 = 1)) = some k) :
    hPrincipalMove np nonce id r g s =
      let u : State := { s with sealU := { s.sealU with nonce := none } }
      if ecdsaVerify (bytesPoint k.pub) (sha384 (moveBody np nonce id)) r g then (u.movePrincipal np, some Ans.ok) else (u, some (Ans.err 0x0101)) := by
  have hup : ¬ (4 ≤ np ∨ !(s.port np).linkUp) := by simp [hl, hp]
  rw [hPrincipalMove]
  simp only [hn, ht, hk, hseal, decide_true, Bool.and_self, Bool.not_true, Bool.false_eq_true, Bool.false_or, if_false]
  cases ecdsaVerify (bytesPoint k.pub) (sha384 (moveBody np nonce id)) r g with
  | true => exact if_neg hup
  | false => rfl

/-- A rectangle that is free becomes a parcel once its fields are up (17 R364). -/
theorem hCreate_up {o c0 r0 w h : Nat} {taps : BitVec 8} {fnd : List FieldFindings} (hp : p < 4) (ho : o < 4) (hfree : s.createRefusal p c0 r0 w h taps = 0) :
    let u := ((s.setParcel p { Parcel.init with owner := o, c0 := c0, r0 := r0, w := w, h := h, taps := taps }).setPState p .resuming).bringUpAll (rectFields c0 r0 w h) fnd
    u.firstDown (rectFields c0 r0 w h) = none → hCreate p o c0 r0 w h taps fnd s = (u.setPState p .idle, some Ans.ok) := by
  intro u hu
  rw [hCreate, if_neg (by omega), if_neg (not_not_intro hfree)]
  exact (congrArg (fun d : Option Nat => match d with
    | some c => refuses ((((u.parkAgain (rectFields c0 r0 w h)).setPState p .none)).setParcel p Parcel.init) c
    | none => replies (u.setPState p .idle) Ans.ok) hu)
/-- A parcel that is not busy can be deleted; what its record was does not matter any more (18 R379). -/
theorem hDelete_free (hb : (s.parcel p).busy = false) (hpour : (s.parcel p).pour.serving = false) : ∃ u : State, hDelete p s = (u.setParcel p Parcel.init, some Ans.ok) :=
  ⟨_, if_neg (by simp [hb, hpour])⟩
theorem hResume_resumes {fnd : List FieldFindings} (hst : (s.parcel p).st = .parked) (hcool : s.stillHot p = false) (hlic : s.raisedCount + (s.parcel p).fields.length ≤ s.licFields) :
    hResume p fnd s = ((s.resumeParcel p fnd).1, some { status := (s.resumeParcel p fnd).2 }) := by
  rw [hResume, if_neg (by simp [hst, hcool]), if_neg (Nat.not_lt.2 hlic)]
  rfl
theorem Parcel.loadable_of {q : Parcel} (hb : q.busy = false) (hpour : q.pour.serving = false) : q.loadable = true := by simp [Parcel.loadable, hb, hpour]
/-- With no message of the load lost, an image is loaded exactly when the loader has no reason to refuse it (18 R380, R381). -/
theorem hImageLoad_none {n : Nat} {bs : Bytes} (hl : (s.parcel p).loadable = true) :
    hImageLoad p n bs [] s = match s.loadRefusal p bs n with
      | none => (s.installImage p (imgBytes bs n), some { status := 0, payload := digestBytes (imgDigest (imgBytes bs n)) })
      | some a => (s, some a) := by
  rw [hImageLoad, hl]
  cases s.loadRefusal p bs n with
  | none => rfl
  | some a => rfl
theorem hUnload_unloads (hl : (s.parcel p).loadable = true) (hi : (s.parcel p).image.isSome = true) :
    hUnload p s = ((s.parcel p).casks.foldl (fun u c => u.modCask c (fun k => { k with regions := [], windows := [], period := 0 }))
      ((s.clearResident p).modParcel p (fun q => { q with image := none, awaits := [], tr := { q.tr with learned := [], hint := none } })), some Ans.ok) := by
  have hnone : (s.parcel p).image.isNone = false := by rwa [← Option.not_isSome, Bool.not_eq_false']
  rw [hUnload]
  simp only [hl, hnone, Bool.not_true, Bool.false_eq_true, if_false]
  rfl
theorem hImageInfo_inline {rq : Requester} (hi : (s.parcel p).image.isSome = true) (hfew : (s.parcelRegions p).length ≤ 165) :
    hImageInfo rq p none s = (s, some { status := 0, payload := imageDigestBytes (s.parcel p) ++ natLe 4 (s.parcelRegions p).length ++ (s.parcelRegions p).flatMap (s.regionEntry p) }) := by
  have hnone : (s.parcel p).image.isNone = false := by rwa [← Option.not_isSome, Bool.not_eq_false']
  rw [hImageInfo]
  simp only [hnone, Bool.false_eq_true, if_false, Nat.not_lt.2 hfew]
  rfl
theorem hImageInfo_cut {rq : Requester} (e : CutEntry) (hi : (s.parcel p).image.isSome = true) : ∃ u a, hImageInfo rq p (some e) s = (u, some a) := by
  have hnone : (s.parcel p).image.isNone = false := by rwa [← Option.not_isSome, Bool.not_eq_false']
  rw [hImageInfo]
  simp only [hnone, Bool.false_eq_true, if_false]
  exact ⟨_, _, rfl⟩
end

/-- Settles O39: each message passes the checks of its table row, and its handler does what the clause says. -/
theorem sysParcelAndImageMessages : Obligations.SysParcelAndImageMessages := by
  intro s rq p
  refine ⟨fun hT => (State.admits_all hT rfl rfl rfl rfl rfl).answer rfl _, fun np nonce id r g hT hside hnonce hseal hp hl k hk => ?move,
    fun o c0 r0 w h taps fnd hfrom hp ho hfree hup => ?create, fun hfrom hp hl hb hpour => ?delete, fun o hfrom hp hl ho => ?assign, fun he hst => ?park,
    fun fnd he hst hcool hlic => ?resume, fun he => (State.admits_either he rfl rfl (s.featureFree rfl)).answer rfl _, fun n bs ho hb hpour => ?load,
    fun ho hb hpour hi => ?unload, fun ho hi hfew => ?info, fun e ho hi => ?infoCut⟩
  case move =>
    obtain ⟨at_, hn, ht⟩ := hnonce
    cases rq with
    | slot => cases hside
    | entry => cases hside
    | sideband e tag =>
      have hmove := hPrincipalMove_fresh (r := r) (g := g) hn ht hseal hp hl hk
      have ha : s.Admits (.sideband e tag) miPrincipalMove 0xFF := State.admits_any hT rfl rfl (.inr rfl) (s.parcelFree _ rfl) (s.featureFree rfl)
      by_cases hsig : ecdsaVerify (bytesPoint k.pub) (sha384 (moveBody np nonce id)) r g = true
      · simp only [hsig, if_true] at hmove ⊢
        exact ha.answer hmove _
      · simp only [hsig, Bool.false_eq_true, if_false] at hmove ⊢
        exact ha.answer hmove _
  case create => exact (State.admits_principal hfrom rfl rfl (.inl hp) (s.parcelFree _ rfl) (s.featureFree rfl)).answer (hCreate_up hp ho hfree hup) _
  case delete =>
    rw [← s.received_parcel rq] at hb hpour
    obtain ⟨u, hdel⟩ := hDelete_free hb hpour
    exact ⟨u, (State.admits_principal hfrom rfl rfl (.inl hp) (fun _ => ⟨hp, hl⟩) (s.featureFree rfl)).answer hdel _⟩
  case assign => exact (State.admits_principal hfrom rfl rfl (.inl hp) (fun _ => ⟨hp, hl⟩) (s.featureFree rfl)).answer (if_neg (Nat.not_le.2 ho)) _
  case park =>
    rw [← s.received_parcel rq] at hst
    exact (State.admits_either he rfl rfl (s.featureFree rfl)).later (h := hPark rq p) (if_pos hst) _
  case resume =>
    rw [← s.received_parcel rq] at hst
    rw [← s.received_parcel rq, ← s.of_received State.licFields (fun _ _ => rfl) rq] at hlic
    exact (State.admits_either he rfl rfl (s.featureFree rfl)).answer (hResume_resumes hst hcool hlic) _
  case load =>
    have ha : s.Admits rq miImageLoad p := State.admits_owner ho rfl rfl (s.featureFree rfl)
    rw [← s.received_parcel rq] at hb hpour
    have hload := hImageLoad_none (n := n) (bs := bs) (Parcel.loadable_of hb hpour)
    cases hr : (s.received rq).loadRefusal p bs n with
    | none =>
      rw [hr] at hload
      exact ha.answer hload _
    | some a =>
      rw [hr] at hload
      exact ha.answer hload _
  case unload =>
    rw [← s.received_parcel rq] at hb hpour hi ⊢
    exact (State.admits_owner ho rfl rfl (s.featureFree rfl)).answer (hUnload_unloads (Parcel.loadable_of hb hpour) hi) _
  case info =>
    rw [← s.received_parcel rq] at hi ⊢
    exact (State.admits_owner ho rfl rfl (s.featureFree rfl)).answer (hImageInfo_inline hi hfew) _
  case infoCut =>
    rw [← s.received_parcel rq] at hi
    obtain ⟨u, a, hinfo⟩ := hImageInfo_cut (rq := rq) e hi
    exact ⟨u, a, (State.admits_owner ho rfl rfl (s.featureFree rfl)).answer hinfo _⟩

end Sys2Proof.Machine
end

section
/-! The seal and perturbation messages: O44 -/

namespace Sys2Proof.Machine
open Sys2Proof

section
variable {s : State} {p : Nat}

theorem hAttest_signs {rq : Requester} (n : Bytes) (hseal : s.sealU.halted = false) :
    hAttest rq n s =
      let dev := natLe 48 s.fresh.1
      let b := s.attestBody ((n ++ zeroBytes 48).take 48) dev (isSideband rq)
      let g := Config.signature s.cdiName (sha384Val b).toNat
      (if isSideband rq then { s.fresh.2 with sealU := { s.fresh.2.sealU with nonce := some (dev, s.tNs) } } else s.fresh.2,
        some { status := 0, payload := b ++ natLe 48 g.1 ++ natLe 48 g.2 }) := if_neg (by simp [hseal])
theorem hLicence_unsound {l : Bytes} (hseal : s.sealU.halted = false) (h : licSound l = false) : hLicence l s = (s, some (Ans.err 0x0D01)) := by
  rw [hLicence]
  simp only [hseal, h, Bool.false_eq_true, if_false, Bool.not_false, if_true]
  rfl
theorem hLicence_elsewhere {l : Bytes} (hseal : s.sealU.halted = false) (h : licSound l = true) (hb : licBound s.sealU.identity l = false) : hLicence l s = (s, some (Ans.err 0x0D02)) := by
  rw [hLicence]
  simp only [hseal, h, hb, Bool.false_eq_true, if_false, Bool.not_false, Bool.not_true, if_true]
  rfl
/-- The state in which a licence that is sound and bound to this module has been installed (21 R453). -/
def State.licensed (s : State) (l : Bytes) : State :=
  let x := s.sealU.extend 5 (sha384Val l)
  ({ s with sealU := { x with licence := some (licOf l), licFlash := l, storeEpoch := x.storeEpoch + 1 }, raising := { s.raising with licOk := true } } : State).featuresLost
theorem hLicence_installs {l : Bytes} (hseal : s.sealU.halted = false) (h : licSound l = true) (hb : licBound s.sealU.identity l = true) :
    hLicence l s =
      let n := licOf l
      (s.licensed l, some { status := 0, payload := natLe 1 (s.licensed l).bundle ++ natLe 1 n.fields ++ natLe 1 n.parcels ++ natLe 1 n.tapLanes ++ natLe 4 n.powerMax }) := by
  rw [hLicence]
  simp only [hseal, h, hb, Bool.false_eq_true, if_false, Bool.not_true]
  rfl
theorem hKeysAdd_adds {id u : Nat} {pub : Bytes} (hu : u < 4) (hseal : s.sealU.halted = false) (hroom : s.sealU.keys.length < 16) (hnew : s.sealU.keys.any (fun k => decide (k.id = id)) = false)
    (hpoint : keyPointOk pub = true) : hKeysAdd id u pub s = (s.setKeys (s.sealU.keys ++ [{ id := id, use_ := u, pub := pub }]), some Ans.ok) := by
  rw [hKeysAdd]
  simp only [Nat.not_le.2 hu, hseal, Nat.not_le.2 hroom, hnew, hpoint, Bool.not_true, Bool.or_false, Bool.false_eq_true, if_false]
  rfl
theorem hKeysRemove_removes {id : Nat} (hseal : s.sealU.halted = false) (hthere : s.sealU.keys.any (fun k => decide (k.id = id)) = true) :
    hKeysRemove id s = (s.setKeys (s.sealU.keys.filter (fun k => decide (k.id ≠ id))), some Ans.ok) := by
  rw [hKeysRemove]
  simp only [hseal, hthere, Bool.not_true, Bool.false_eq_true, if_false]
  rfl
theorem hUnlock_bad {tok : Bytes} (hseal : s.sealU.halted = false) (h : s.tokenOk tok = false) : hUnlock tok s = (s, some (Ans.err 0x0D05)) := by
  rw [hUnlock]
  simp only [hseal, h, Bool.not_false, Bool.false_eq_true, if_false, if_true]
  rfl
/-- The state in which a valid debug token has opened its scope (21 R456). -/
def State.unlocked (s : State) (tok : Bytes) : State :=
  let k := tok.leAt 6 1
  let x := s.sealU.extend 7 (sha384Val (natLe 1 k))
  let u : State := { s with sealU := { x with debugCounter := x.debugCounter + 1, scope := x.scope ||| k } }
  if k = 2 then u.unsignLabels else u
theorem hUnlock_opens {tok : Bytes} (hseal : s.sealU.halted = false) (h : s.tokenOk tok = true) : hUnlock tok s = (s.unlocked tok, some Ans.ok) := by
  rw [hUnlock]
  simp only [hseal, h, Bool.not_true, Bool.false_eq_true, if_false]
  rfl
theorem hPerturbEnable_enters (hb : (s.parcel p).busy = false) (ht : (s.parcel p).test = false) :
    hPerturbEnable p s = (s.modParcel p (fun q => { q with test := true }), some Ans.ok) := by
  rw [hPerturbEnable]
  simp only [hb, ht, Bool.false_eq_true, if_false]
  rfl
theorem hPerturbDisable_leaves (ht : (s.parcel p).test = true) (hc : fieldBits s.prt.ctrl 2 1 ≠ p) :
    hPerturbDisable p s = (s.modParcel p (fun q => { q with test := false }), some Ans.ok) := by
  rw [hPerturbDisable]
  simp only [ht, Bool.not_true, Bool.false_eq_true, if_false, State.modParcel_prt, hc]
  rfl
theorem hPerturbDisable_disarms (ht : (s.parcel p).test = true) (hc : fieldBits s.prt.ctrl 2 1 = p) :
    hPerturbDisable p s = ((s.modParcel p (fun q => { q with test := false })).modPrt (fun x => { x with ctrl := x.ctrl &&& ~~~1#32, armed := none }), some Ans.ok) := by
  rw [hPerturbDisable]
  simp only [ht, Bool.not_true, Bool.false_eq_true, if_false, State.modParcel_prt, hc, if_true]
  rfl
end

/-- Settles O44: each message passes the checks of its table row, and its handler does what the clause says. -/
theorem sealAndPerturbMessages : Obligations.SealAndPerturbMessages := by
  intro s rq p
  have hsealU := s.received_sealU rq
  refine ⟨fun n hT hseal => ?attest, fun hfrom => ?cert, fun e hfrom => ⟨_, _, (State.admits_port hfrom rfl rfl rfl rfl).answer (h := hCertGet rq (some e)) rfl _⟩, fun l hfrom hseal => ?licence,
    fun id u pub hfrom hseal hu hroom hnew hpoint => ?add, fun id hfrom hseal hthere => ?remove, fun hfrom => ?list, fun tok hfrom hseal => ?unlock, fun he hf hb ht => ?enable,
    fun he ht hc => ?disable, fun he ht hc => ?disarm⟩
  case attest =>
    have hattest := hAttest_signs (rq := rq) n (hsealU ▸ hseal)
    rw [s.of_received State.tNs (fun _ _ => rfl) rq] at hattest
    exact (State.admits_all hT rfl rfl rfl rfl rfl).answer hattest _
  case cert =>
    have ha : s.Admits rq miCertGet 0xFF := State.admits_port hfrom rfl rfl rfl rfl
    intro chain
    by_cases hlong : 4024 < chain.length
    · rw [if_pos hlong]
      exact ha.answer (h := hCertGet rq none) (if_pos hlong) _
    · rw [if_neg hlong]
      exact ha.answer (h := hCertGet rq none) (if_neg hlong) _
  case licence =>
    have ha : s.Admits rq miLicence 0xFF := State.admits_module hfrom rfl rfl rfl rfl
    intro x u
    rw [← hsealU] at hseal ⊢
    cases hs : licSound l with
    | false => exact ha.answer (hLicence_unsound hseal hs) _
    | true =>
      cases hb : licBound (s.received rq).sealU.identity l with
      | false => exact ha.answer (hLicence_elsewhere hseal hs hb) _
      | true =>
        have hu : u.featuresLost = (s.received rq).licensed l := by rw [State.licensed, hsealU]
        simp only [hu, Bool.not_true, Bool.false_eq_true, if_false]
        exact ha.answer (hLicence_installs hseal hs hb) _
  case add =>
    rw [← hsealU] at hseal hroom hnew ⊢
    exact (State.admits_module hfrom rfl rfl rfl rfl).answer (hKeysAdd_adds hu hseal hroom hnew hpoint) _
  case remove =>
    rw [← hsealU] at hseal hthere ⊢
    exact (State.admits_module hfrom rfl rfl rfl rfl).answer (hKeysRemove_removes hseal hthere) _
  case list =>
    rw [← hsealU]
    exact (State.admits_port hfrom rfl rfl rfl rfl).answer rfl _
  case unlock =>
    have ha : s.Admits rq miUnlock 0xFF := State.admits_module hfrom rfl rfl rfl rfl
    intro k x u
    have htok : s.tokenOk tok = (s.received rq).tokenOk tok := (s.of_received (fun v => v.tokenOk tok) (fun _ _ => rfl) rq).symm
    rw [← hsealU] at hseal
    rw [htok]
    cases hok : (s.received rq).tokenOk tok with
    | false => exact ha.answer (hUnlock_bad hseal hok) _
    | true =>
      have hu : (if k = 2 then u.unsignLabels else u) = (s.received rq).unlocked tok := by rw [State.unlocked, hsealU]
      rw [hu]
      exact ha.answer (hUnlock_opens hseal hok) _
  case enable =>
    rw [← s.received_parcel rq] at hb ht
    have hfeat : ∀ k, miPerturbEnable.feature = some k → s.hasFeature k = true := fun k hk => by
      cases hk
      exact hf
    exact (State.admits_either he rfl rfl hfeat).answer (hPerturbEnable_enters hb ht) _
  case disable =>
    rw [← s.received_parcel rq] at ht
    rw [← s.of_received State.prt (fun _ _ => rfl) rq] at hc
    exact (State.admits_either he rfl rfl (s.featureFree rfl)).answer (hPerturbDisable_leaves ht hc) _
  case disarm =>
    rw [← s.received_parcel rq] at ht
    rw [← s.of_received State.prt (fun _ _ => rfl) rq] at hc
    exact (State.admits_either he rfl rfl (s.featureFree rfl)).answer (hPerturbDisable_disarms ht hc) _

end Sys2Proof.Machine
end

section
/-! The rack, tap and Pour messages: O43 -/

namespace Sys2Proof.Machine
open Sys2Proof

section
variable {s : State} {rq : Requester} {p : Nat}

theorem State.rack_of_received (s : State) (rq : Requester) (p n : Nat) : (s.received rq).rack p n = s.rack p n := s.of_received (fun u => u.rack p n) (fun _ _ => rfl) rq

/-- A stream that nothing stands against is opened: READ_REQ, then CREDIT (19 R412). -/
theorem hRackOpen_opens {f : RackOpenF} {tp u : Nat} (ht : tapOf f.tap = some (tp, u)) (hk : f.key = 0xFF ∨ (f.key ≤ 15 ∧ ((s.parcel p).keyOf f.key).isSome = true))
    (hnew : s.rack p f.stream = none) (htap : s.rackTapOk p tp u = true) (hreg : s.rackRegionOk p f = true) :
    hRackOpen p f s =
      let r : Rack :=
        { f := f, state := 1, session := BitVec.ofNat 64 s.fresh.1, landed := [], arrived := [], retry := [], credit := 0, sentCredit := 0, unsacked := []
          busy := false, retries := EvCnt.init, crcErrors := EvCnt.init }
      (((s.fresh.2.modParcel p (fun q => { q with racks := q.racks ++ [(f.stream, r)] })).sendReadReq r 0 (segCount f.len)).sendCredit p f.stream, some Ans.ok) := by
  have hkey : ¬ (15 < f.key ∧ f.key ≠ 0xFF) := by omega
  have hkeyed : ¬ (f.key ≠ 0xFF ∧ ((s.parcel p).keyOf f.key).isNone = true) := by
    rintro ⟨hne, hnone⟩
    obtain ⟨-, hsome⟩ := hk.resolve_left hne
    rw [Option.isNone_iff_eq_none.1 hnone] at hsome
    cases hsome
  rw [hRackOpen, ht]
  simp only [hnew, htap, hreg, Option.isSome_none, Bool.not_true, Bool.false_eq_true, if_false]
  rw [if_neg hkey, if_neg hkeyed]
  rfl
theorem hRackClose_some {n : Nat} {r : Rack} (h : s.rack p n = some r) :
    hRackClose p n s = (s.modParcel p (fun q => { q with racks := q.racks.filter (fun e => decide (e.1 ≠ n)) }), some { status := 0, payload := natLe 8 r.landedBytes ++ natLe 8 r.retries.word }) := by
  rw [hRackClose, h]
  rfl
theorem hRackStatus_some {n : Nat} {r : Rack} (h : s.rack p n = some r) :
    hRackStatus p n s = (s, some { status := 0, payload := natLe 1 r.state ++ zeroBytes 7 ++ natLe 8 r.landedBytes ++ natLe 8 r.retries.word ++ natLe 8 r.crcErrors.word }) := by
  rw [hRackStatus, h]
  rfl
theorem State.tapRefusal_own {tp : Nat} (h : (s.parcel p).taps.getLsbD tp = true) : s.tapRefusal p tp = 0 := if_pos h
/-- The state in which a tap port has its new configuration (18 R396). -/
def State.tapSet (s : State) (f : TapConfigF) : State :=
  (s.tapDown f.tap.toNat).modTap f.tap.toNat (fun x => { x with mode := f.mode.toNat, mtu := f.mtu, mac := f.mac, ipv6 := f.ipv6, ipv4 := f.ipv4, subs := [] })
theorem hTapConfig_sets {f : TapConfigF} (ht : f.tap.toNat < 8) (hown : (s.parcel p).taps.getLsbD f.tap.toNat = true) (hm : f.mode.toNat ≤ 3) (hlo : 1500 ≤ f.mtu) (hhi : f.mtu ≤ 9216) :
    hTapConfig rq p f s = if f.mode.toNat = 0 then (s.tapSet f, some Ans.ok) else ((s.tapSet f).await rq 0x0B01 p (.tapLink f.tap.toNat), none) := by
  rw [hTapConfig, if_neg (Nat.not_le.2 ht)]
  simp only [State.tapRefusal_own hown]
  rw [if_neg (not_not_intro rfl), if_neg (by omega)]
  rfl
theorem hTapKeySet_sets {k : Nat} {bs : Bytes} (hk : k ≤ 15) (hseal : s.sealU.halted = false) :
    hTapKeySet p k bs s = (s.modParcel p (fun q => { q with keys := (k, (bs ++ zeroBytes 32).take 32) :: q.keys.filter (fun e => decide (e.1 ≠ k)) }), some Ans.ok) := by
  rw [hTapKeySet, if_neg (Nat.not_lt.2 hk), if_neg (by simp [hseal])]
  rfl
theorem hTapStatus_own {b : BitVec 8} {tp u : Nat} (ht : tapOf b = some (tp, u)) (hown : (s.parcel p).taps.getLsbD tp = true) :
    hTapStatus p b s = (s, some { status := 0, payload := natLe 1 (b1 (s.subLink tp u).link) ++ natLe 1 (s.tap tp).mode ++ zeroBytes 6 ++ (s.subLink tp u).counterBytes 4 }) := by
  rw [hTapStatus, ht]
  simp only [State.tapRefusal_own hown]
  rfl
theorem hPourStart_starts {port n : Nat} {taps : BitVec 8} (h : (s.parcel p).pourRefusal n taps = 0) :
    hPourStart p port n taps s =
      ((s.modParcel p (fun q => { q with pour := { Pour.init with serving := true, udpPort := port, maxSeq := n, taps := taps, kept := q.pour.kept } })).clearMap p, some Ans.ok) :=
  if_neg (not_not_intro h)
theorem hPourStop_now (h : (s.parcel p).pour.serving = true) :
    hPourStop rq p 0#8 s = (((s.await rq 0x0C02 p .pourStop).modParcel p (fun q => { q with pour := { q.pour with stopping := true } })).pourSettle p, none) := by
  rw [hPourStop]
  simp only [h]
  rfl
/-- Of the frames of a cut list each is accepted or refused. -/
theorem foldl_counts {α : Type} (f : State → α → State × Bool) : ∀ (l : List α) (s : State) (a r : Nat),
    ∃ u a' r', l.foldl (fun (x : State × Nat × Nat) e => let o := f x.1 e
      if o.2 then (o.1, x.2.1 + 1, x.2.2) else (o.1, x.2.1, x.2.2 + 1)) (s, a, r) = (u, a', r') ∧ a' + r' = a + r + l.length
  | [], s, a, r => ⟨s, a, r, rfl, rfl⟩
  | e :: l, s, a, r => by
    rw [List.foldl_cons, List.length_cons]
    cases h : (f s e).2 with
    | true =>
      obtain ⟨u, a', r', hfold, hsum⟩ := foldl_counts f l (f s e).1 (a + 1) r
      exact ⟨u, a', r', by simpa only [h, if_true] using hfold, by omega⟩
    | false =>
      obtain ⟨u, a', r', hfold, hsum⟩ := foldl_counts f l (f s e).1 a (r + 1)
      exact ⟨u, a', r', by simpa only [h, Bool.false_eq_true, if_false] using hfold, by omega⟩
theorem hPourSubmit_counts (bs : Bytes) :
    ∃ u a r, a + r = (splitFrames bs.length bs).length ∧ hPourSubmit rq p bs s = (u, some { status := 0, payload := natLe 4 a ++ natLe 4 r }) := by
  obtain ⟨u, a, r, hfold, hsum⟩ := foldl_counts (fun (u : State) f => if u.pourHears p (.cutList ((requesterPort rq).getD 0)) then u.pourIn p (.cutList ((requesterPort rq).getD 0)) f none else (u, false))
    (splitFrames bs.length bs) s 0 0
  refine ⟨u, a, r, by omega, ?_⟩
  rw [hPourSubmit]
  simp only [hfold]
  rfl
theorem hPourCancel_none {ids : List Nat} (hne : ids ≠ []) (hlen : ids.length ≤ 500) (hstep : (s.parcel p).stepping = false) (hno : ∀ y, y ∈ (s.parcel p).pour.seqs → ids.contains y.id = false) :
    hPourCancel rq p ids s = (s, some { status := 0, payload := natLe 4 0 }) := by
  have hhere : (s.parcel p).pour.seqs.filter (fun q => ids.contains q.id) = [] := List.filter_eq_nil_iff.2 (fun y hy => Bool.eq_false_iff.1 (hno y hy))
  rw [hPourCancel, if_neg (by simp [hne, hlen])]
  simp only [hhere, hstep, List.foldl_nil, Bool.false_eq_true, if_false]
  rfl
theorem hPourCancel_one {y : PourSeq} (hhere : (s.parcel p).pour.seqs.filter (fun z => [y.id].contains z.id) = [y]) (hstep : (s.parcel p).stepping = false) :
    hPourCancel rq p [y.id] s = ((s.pourEnd p y 3 none).pourSettle p, some { status := 0, payload := natLe 4 1 }) := by
  have hcancel : s.pourCancelSeq p y = (s.pourEnd p y 3 none).pourSettle p := if_neg (by simp [hstep])
  rw [hPourCancel, if_neg (by simp)]
  simp only [hhere, hstep, List.foldl_cons, List.foldl_nil, hcancel, Bool.false_eq_true, if_false]
  rfl
theorem hPourLabel_kept {id : Nat} {y : PourSeq} {l : Bytes} (hy : (s.parcel p).pour.kept.reverse.find? (fun z => decide (z.id = id)) = some y) (hw : y.waits = false) (hl : y.label = some l) :
    hPourLabel p id s = (s, some { status := 0, payload := l }) := by
  rw [hPourLabel, hy]
  simp only [Option.bind_some, hw, hl, Bool.false_eq_true, if_false]
  rfl
end

/-- Settles O43: each message passes the checks of its table row, and its handler does what the clause says. -/
theorem rackTapAndPourMessages : Obligations.RackTapAndPourMessages := by
  intro s rq p ho t q
  have hq : t.parcel p = q := s.received_parcel rq p
  have hown : ∀ {m : MsgInfo}, m.scope = .owner → m.sideOnly = false → m.feature = none → s.Admits rq m p := fun h0 h2 h3 => State.admits_owner ho h0 h2 (s.featureFree h3)
  refine ⟨fun f tp u ht hk hnew htap hreg => ?rackOpen, fun n r hr => ⟨?close, ?status⟩, fun f ht htaps hm hlo hhi => ?config, fun k bs hk hseal => ?key, fun b tp u ht htaps => ?tapStatus,
    fun hf => ?pour⟩
  case rackOpen => exact (hown (m := miRackOpen) rfl rfl rfl).answer (hRackOpen_opens ht (hq.symm ▸ hk) ((s.rack_of_received rq p _).trans hnew) htap hreg) _
  case close => exact (hown (m := miRackClose) rfl rfl rfl).answer (hRackClose_some ((s.rack_of_received rq p n).trans hr)) _
  case status => exact (hown (m := miRackStatus) rfl rfl rfl).answer (hRackStatus_some ((s.rack_of_received rq p n).trans hr)) _
  case config =>
    have ha : s.Admits rq miTapConfig p := hown rfl rfl rfl
    have hset := hTapConfig_sets (s := t) (rq := rq) (p := p) ht (hq.symm ▸ htaps) hm hlo hhi
    intro u
    by_cases hoff : f.mode = 0#8
    · rw [if_pos hoff]
      rw [if_pos (by simp [hoff])] at hset
      exact ha.answer hset _
    · rw [if_neg hoff]
      have hmode : ¬ f.mode.toNat = 0 := fun h => hoff (BitVec.eq_of_toNat_eq h)
      rw [if_neg hmode] at hset
      exact ha.later hset _
  case key => exact (hown (m := miTapKeySet) rfl rfl rfl).answer (hTapKeySet_sets hk ((congrArg Seal.halted (s.received_sealU rq)).trans hseal)) _
  case tapStatus =>
    have hstat := hTapStatus_own (s := t) ht (hq.symm ▸ htaps)
    rw [s.of_received (fun u => u.subLink) (fun _ _ => rfl) rq, s.of_received (fun u => u.tap tp) (fun _ _ => rfl) rq] at hstat
    exact (hown (m := miTapStatus) rfl rfl rfl).answer hstat _
  case pour =>
    have ha : ∀ {m : MsgInfo}, m.scope = .owner → m.sideOnly = false → m.feature = some 0 → s.Admits rq m p := fun h0 h2 h3 =>
      State.admits_owner ho h0 h2 (fun k hk => by
        cases h3.symm.trans hk
        exact hf)
    refine ⟨fun port n taps hr => ?start, fun hserve => ?stop, fun bs => ?submit, fun ids hne hlen hstep hno => ?cancelNone, fun y hy hstep => ?cancel, ?pourStatus, fun id y l hy hw hl => ?label⟩
    case start => exact (ha (m := miPour 0x0C01) rfl rfl rfl).answer (hPourStart_starts (hq.symm ▸ hr)) _
    case stop => exact (ha (m := miPour 0x0C02) rfl rfl rfl).later (hPourStop_now (hq.symm ▸ hserve)) _
    case submit =>
      obtain ⟨u, a, r, hsum, hh⟩ := hPourSubmit_counts (s := t) (rq := rq) (p := p) bs
      exact ⟨u, a, r, hsum, (ha (m := { miPour 0x0C03 with cut := true }) rfl rfl rfl).answer hh _⟩
    case cancelNone => exact (ha (m := miPour 0x0C04) rfl rfl rfl).answer (hPourCancel_none hne hlen (hq.symm ▸ hstep) (hq.symm ▸ hno)) _
    case cancel => exact (ha (m := miPour 0x0C04) rfl rfl rfl).answer (hPourCancel_one (hq.symm ▸ hy) (hq.symm ▸ hstep)) _
    case pourStatus =>
      rw [← hq]
      exact (ha (m := miPour 0x0C05) rfl rfl rfl).answer rfl _
    case label => exact (ha (m := miPour 0x0C06) rfl rfl rfl).answer (hPourLabel_kept (hq.symm ▸ hy) hw hl) _

end Sys2Proof.Machine
end

section
/-! Tap links and frames: O45 -/

namespace Sys2Proof.Machine
open Sys2Proof

section
variable {s : State} {t u : Nat}

/-- A row of a sub-link that the module has. -/
theorem sub_there {α : Type} {a b : α} (ht : t < 8) (hu : u < 4) : (if 8 ≤ t ∨ 4 ≤ u then a else b) = b := if_neg (by omega)

theorem exec_tapLinkChange_up (ht : t < 8) (hu : u < 4) (hl : (s.subLink t u).link = false) (hm : s.mayLink t u = true) : exec (.tapLinkChange t u true) s = .next (s.subUp t u) := by
  change execTapLinkChange t u true s = _
  rw [execTapLinkChange, sub_there ht hu, if_pos rfl, if_neg (by simp [hl, hm])]
theorem exec_tapLinkChange_stays (ht : t < 8) (hu : u < 4) (hl : (s.subLink t u).link = true) : exec (.tapLinkChange t u true) s = .next s := by
  change execTapLinkChange t u true s = _
  rw [execTapLinkChange, sub_there ht hu, if_pos rfl, if_pos (by simp [hl])]
theorem exec_tapLinkChange_down (ht : t < 8) (hu : u < 4) : exec (.tapLinkChange t u false) s = .next (s.subDown t u) := sub_there ht hu

/-- The counters of a frame that a sub-link receives whole (19 R407). -/
def State.frameCounted (s : State) (f : Frame) : State :=
  ((s.subCount f.tap f.sub skFecCorrected f.fecCorrected).subCount f.tap f.sub skFecUncorrected f.fecUncorrected).subCount f.tap f.sub skFramesIn 1
theorem exec_frameReceive_whole {f : Frame} (ht : f.tap < 8) (hu : f.sub < 4) (hl : (s.subLink f.tap f.sub).link = true) (hfcs : f.fcsOk = true) :
    exec (.frameReceive f) s =
      let c := s.frameCounted f
      if c.macDiscards f then .next (c.rxDiscard f.tap f.sub) else if !(c.tap f.tap).accepts f.len then .next c else c.frameUp f := by
  change execFrameReceive f s = _
  rw [execFrameReceive, sub_there ht hu, if_neg (by simp [hl])]
  simp only [hfcs, if_true]
  rfl
/-- The MAC takes no tagged frame. -/
theorem State.macDiscards_tagged {f : Frame} (h : f.vlan = true ∨ f.etherType = 0x8100#16) : s.macDiscards f = true := by
  rcases h with h | h
  · simp [State.macDiscards, h]
  · simp [State.macDiscards, h]
theorem State.frameUp_arp {f : Frame} (h : f.etherType = 0x0806#16) : s.frameUp f = .next (s.arpFrame f) := by
  rw [State.frameUp, h]
  rfl
theorem State.arpIn_own {mac : BitVec 48} {ip dst : BitVec 32} (hl : (s.subLink t u).link = true) (h0 : (s.tap t).ipv4 ≠ 0#32) (hd : dst = (s.tap t).subIpv4 u) :
    s.arpIn t u mac ip dst = (s.modSub t u (fun l => l.learn (mapped4 ip) mac)).sendOut t u (.arpReply t u mac ip ((s.tap t).subMac u)) := if_pos (by simp [hl, h0, hd])
theorem State.ndpIn_own {mac : BitVec 48} {ip dst : BitVec 128} (hl : (s.subLink t u).link = true) (h0 : (s.tap t).ipv6 ≠ 0#128) (hd : dst = (s.tap t).subIpv6 u) :
    s.ndpIn t u mac ip dst = (s.modSub t u (fun l => l.learn ip mac)).sendOut t u (.ndpAdvert t u mac ip ((s.tap t).subMac u)) := if_pos (by simp [hl, h0, hd])
theorem State.sendOut_up (hl : (s.subLink t u).link = true) (o : OutEv) : s.sendOut t u o = (s.emit o).subCount t u skFramesOut 1 := if_pos hl
theorem State.echoIn_own {ip : BitVec 128} {bs : Bytes} (hl : (s.subLink t u).link = true) (h0 : (s.tap t).ipv6 ≠ 0#128) :
    s.echoIn t u true ip ((s.tap t).subIpv6 u) bs = (s.emit (.echoReply t u true ip bs)).subCount t u skFramesOut 1 := by
  rw [State.echoIn, if_pos (by simp [hl, State.ownIp, h0]), State.sendOut_up hl]

/-! What a rack datagram is for. -/

/-- A datagram whose header CRC holds on a link that is up. -/
theorem State.rackIn_heard {a : PeerAddr} {h : RackHdr} (ht : a.tap < 8) (hu : a.sub < 4) (hl : (s.subLink a.tap a.sub).link = true) (hcrc : hdrCrcOk h = true) (type : Nat)
    (f : RackTo → State → State) :
    s.rackIn a h type f = .next (if !hdrFormOk h || decide (h.type.toNat ≠ type) then s.rxDiscard a.tap a.sub
      else match (s.sessions h.session).find? (fun x => addrMatches x.2 a) with
        | some x => f x.1 s
        | none => s.rxDiscard a.tap a.sub) :=
  (sub_there ht hu).trans (congrArg _ ((if_neg (by simp [hl])).trans (if_neg (by simp [hcrc]))))
theorem State.rackIn_malformed {a : PeerAddr} {h : RackHdr} (ht : a.tap < 8) (hu : a.sub < 4) (hl : (s.subLink a.tap a.sub).link = true) (hcrc : hdrCrcOk h = true) {type : Nat}
    (hbad : hdrFormOk h = false ∨ h.type.toNat ≠ type) (f : RackTo → State → State) : s.rackIn a h type f = .next (s.rxDiscard a.tap a.sub) := by
  rw [State.rackIn_heard ht hu hl hcrc, if_pos (by simpa using hbad)]
theorem State.rackIn_nobody {a : PeerAddr} {h : RackHdr} (ht : a.tap < 8) (hu : a.sub < 4) (hl : (s.subLink a.tap a.sub).link = true) (hcrc : hdrCrcOk h = true) (hform : hdrFormOk h = true)
    {type : Nat} (htype : h.type.toNat = type) (hnone : s.sessions h.session = []) (f : RackTo → State → State) : s.rackIn a h type f = .next (s.rxDiscard a.tap a.sub) := by
  rw [State.rackIn_heard ht hu hl hcrc, if_neg (by simp [hform, htype]), hnone]
  rfl
theorem State.rackIn_reaches {a : PeerAddr} {h : RackHdr} {d : RackTo} {o : RackOpenF} (ht : a.tap < 8) (hu : a.sub < 4) (hl : (s.subLink a.tap a.sub).link = true) (hcrc : hdrCrcOk h = true)
    (hform : hdrFormOk h = true) {type : Nat} (htype : h.type.toNat = type) (hfind : (s.sessions h.session).find? (fun x => addrMatches x.2 a) = some (d, o)) (f : RackTo → State → State) :
    s.rackIn a h type f = .next (f d s) := by
  rw [State.rackIn_heard ht hu hl hcrc, if_neg (by simp [hform, htype]), hfind]
end

/-- Settles O45: the rows of the sub-links, the frames that the MAC takes or discards, and a CREDIT that reaches nobody. -/
theorem tapLinksAndFrames : Obligations.TapLinksAndFrames := by
  intro s t u ht hu
  refine ⟨exec_tapLinkChange_up ht hu, exec_tapLinkChange_stays ht hu, exec_tapLinkChange_down ht hu, fun f hft hfu hl hfcs => ?frame,
    fun mac ip dst hl h0 hd => (sub_there ht hu).trans (congrArg _ (State.arpIn_own hl h0 hd)), fun mac ip dst hl h0 hd => (sub_there ht hu).trans (congrArg _ (State.ndpIn_own hl h0 hd)),
    fun ip bs hl h0 => (sub_there ht hu).trans (congrArg _ (State.echoIn_own hl h0)), fun a h hat hau hl hcrc => ?credit⟩
  case frame =>
    subst hft hfu
    have hexec := exec_frameReceive_whole ht hu hl hfcs
    refine ⟨fun htag => ?tagged, fun hmac hlen => ?short, fun hmac hlen harp => ?arp⟩
    case tagged => exact hexec.trans (if_pos (State.macDiscards_tagged htag))
    case short => exact hexec.trans ((if_neg (Bool.eq_false_iff.1 hmac)).trans (if_pos (by simpa [State.frameCounted] using hlen)))
    case arp => exact hexec.trans ((if_neg (Bool.eq_false_iff.1 hmac)).trans ((if_neg (by simpa [State.frameCounted] using hlen)).trans (State.frameUp_arp harp)))
  case credit =>
    subst hat hau
    refine ⟨fun hbad => State.rackIn_malformed ht hu hl hcrc (hbad.imp_right (fun hne he => hne (BitVec.eq_of_toNat_eq he))) _,
      fun hform htype hnone => State.rackIn_nobody ht hu hl hcrc hform (congrArg BitVec.toNat htype) hnone _⟩

end Sys2Proof.Machine
end

section
/-! The rack transport: O46 -/

namespace Sys2Proof.Machine
open Sys2Proof

section
variable {s : State} {p n : Nat}

/-! What a datagram does where it arrives: at one of the streams or exports. -/

theorem State.dataIn_good {h : RackHdr} {body b : Bytes} {r : Rack} (hr : s.rack p n = some r) (ha : r.accepts h body = true) (hb : (s.parcel p).segData r h body = some b) :
    State.dataIn h body (.stream p n) s = s.modRack p n (fun r => { r with arrived := r.arrived ++ [(h.seq, b)] }) := by
  rw [State.dataIn]
  simp only [hr, ha, hb, Bool.not_true, Bool.false_eq_true, if_false]
theorem State.dataIn_bad {h : RackHdr} {body : Bytes} {r : Rack} (hr : s.rack p n = some r) (ha : r.accepts h body = true) (hb : (s.parcel p).segData r h body = none) :
    State.dataIn h body (.stream p n) s = s.modRack p n (fun r => { r with crcErrors := r.crcErrors.add 1 }) := by
  rw [State.dataIn]
  simp only [hr, ha, hb, Bool.not_true, Bool.false_eq_true, if_false]
  rfl
theorem State.failIn_running {h : RackHdr} {r : Rack} (hr : s.rack p n = some r) (hst : r.state = 1) :
    State.failIn h (.stream p n) s =
      if h.arg = 4 then s.modRack p n (fun r => { r with busy := true }) else s.modRack p n (fun r => { r with state := 3, arrived := [], busy := false }) := by
  rw [State.failIn]
  simp only [hr, Rack.running, hst, decide_true, Bool.not_true, Bool.false_eq_true, if_false]
  rfl
theorem State.creditIn_export {h : RackHdr} (hx : h.rflag.getLsbD 2 = true) :
    State.creditIn h (.export_ p) s = (s.modExport p (fun e => { e with credit := max e.credit h.arg })).exportPump p := if_pos hx
theorem State.sackIn_last {h : RackHdr} {e : Export} (hx : h.rflag.getLsbD 2 = true) (he : (s.parcel p).exp = some e) (hst : e.started = true) (hall : segCount e.bytes.length ≤ h.arg) :
    State.sackIn h (.export_ p) s = s.exportOver p { status := 0, payload := natLe 8 e.bytes.length } := by
  rw [State.sackIn]
  simp only [he, hx, hst, hall, decide_true, Bool.and_self, if_true]
theorem State.readReqIn_range {h : RackHdr} {e : Export} {k : Nat} (hx : h.rflag.getLsbD 2 = true) (he : (s.parcel p).exp = some e) (ho : e.offers ≠ 0) (hrange : h.arg + k ≤ segCount e.bytes.length) :
    State.readReqIn h e.bytes.length k (.export_ p) s =
      (s.modExport p (fun x => { x with started := true, requested := x.requested ++ ((List.range k).map (fun i => h.arg + i)).filter (fun j => !e.requested.contains j) })).exportPump p := by
  rw [State.readReqIn]
  simp only [he, hx, ho, decide_false, Bool.not_true, Bool.or_self, Bool.false_eq_true, if_false, ne_eq, not_true_eq_false, false_or, Nat.not_lt.2 hrange]

/-! What streams and exports do of their own accord. -/

/-- A row of a parcel that the module has. -/
theorem parcel_there {α : Type} {a b : α} (hp : p < 4) : (if 4 ≤ p then a else b) = b := if_neg (Nat.not_le.2 hp)
theorem exec_segmentLanded_open {r : Rack} {k c : Nat} {b : Bytes} {beats : List Ecc} (hp : p < 4) (hr : s.rack p n = some r) (hb : r.arrived.find? (fun e => e.1 = k) = some (k, b))
    (hc : (s.parcel p).absCask r.f.rcask = some c) :
    exec (.segmentLanded p n { seq := k, beats := beats }) s = .next (if s.gwOpen c then s.segmentLands p n k r c b beats else s) := by
  change execSegmentLanded p n { seq := k, beats := beats } s = _
  rw [execSegmentLanded, parcel_there hp]
  simp only [hr, hb, hc]
theorem exec_rackCreditTimer_up {r : Rack} (hp : p < 4) (hr : s.rack p n = some r) (hst : r.state = 1) (hup : s.rackUp r.f = true) (sack : Bool) :
    exec (.rackCreditTimer p n sack) s = .next (if sack then s.sendSack p n else s.sendCredit p n) := by
  change execRackCreditTimer p n sack s = _
  rw [execRackCreditTimer, parcel_there hp]
  simp only [hr, Rack.running, hst, hup, decide_true, Bool.not_true, Bool.or_self, Bool.false_eq_true, if_false]
theorem exec_rackRerequest_due {r : Rack} {k : Nat} (hp : p < 4) (hr : s.rack p n = some r) (hst : r.state = 1) (hup : s.rackUp r.f = true) (hl : r.hasLanded k = false) (hk : k < segCount r.f.len) :
    exec (.rackRerequest p n k) s = .next (if 16 ≤ Sparse.get 0 r.retry k then s.modRack p n (fun r => { r with state := 3, arrived := [], busy := false })
      else (s.modRack p n (fun r => { r with retry := Sparse.modify 0 r.retry k (fun x => x + 1), retries := r.retries.add 1 })).sendReadReq r k 1) := by
  change execRackRerequest p n k s = _
  rw [execRackRerequest, parcel_there hp, State.rerequest]
  simp only [hr, Rack.running, hst, hup, hl, Nat.not_le.2 hk, decide_true, decide_false, Bool.not_true, Bool.or_self, Bool.false_eq_true, if_false]
  rfl
theorem exec_rackBusyRetry_busy {r : Rack} (hp : p < 4) (hr : s.rack p n = some r) (hst : r.state = 1) (hb : r.busy = true) :
    exec (.rackBusyRetry p n) s = .next ((s.modRack p n (fun r => { r with busy := false })).sendReadReq r 0 (segCount r.f.len)) := by
  change execRackBusyRetry p n s = _
  rw [execRackBusyRetry, parcel_there hp]
  simp only [hr, Rack.running, hst, hb, decide_true, Bool.and_self, if_true]
section
variable {e : Export}
theorem State.offering_self (he : (s.parcel p).exp = some e) (hst : e.started = false) (hb : e.bytes ≠ []) : s.offering p e.stream = some e := by
  simp [State.offering, he, hst, hb]
theorem State.sendOffer_eq (he : (s.parcel p).exp = some e) :
    s.sendOffer p = (s.modExport p (fun e => { e with offers := e.offers + 1 })).rackSend e.f 6 rfExport e.session 0 (natLe 8 e.bytes.length ++ zeroBytes 8) := by
  rw [State.sendOffer]
  simp only [he]
theorem exec_offer_first (hp : p < 4) (ho : s.offering p e.stream = some e) (h0 : e.offers = 0) : exec (.offer p e.stream) s = .next (s.sendOffer p) := by
  change execOffer p e.stream s = _
  rw [execOffer, parcel_there hp]
  simp only [ho, h0, if_true]
theorem exec_offerResend_again (hp : p < 4) (ho : s.offering p e.stream = some e) (h1 : 1 ≤ e.offers) (h100 : e.offers < 100) : exec (.offerResend p e.stream) s = .next (s.sendOffer p) := by
  change execOfferResend p e.stream s = _
  rw [execOfferResend, parcel_there hp]
  simp only [ho, Nat.ne_of_gt h1, Nat.not_le.2 h100, if_false]
theorem exec_offerResend_gives_up (hp : p < 4) (ho : s.offering p e.stream = some e) (h100 : 100 ≤ e.offers) : exec (.offerResend p e.stream) s = .next (s.exportOver p (Ans.err 0x0502)) := by
  change execOfferResend p e.stream s = _
  have h0 : e.offers ≠ 0 := by omega
  rw [execOfferResend, parcel_there hp]
  simp only [ho, h0, h100, if_false, if_true]
end
end

/-- Settles O46: what each datagram does where its SESSION and address send it, and what the timers and a landed segment do. -/
theorem rackTransport : Obligations.RackTransport := by
  refine ⟨fun s a h d o hta hua hl hcrc hform hfind => ?datagrams, fun s p n r hp hr => ?alone⟩
  case datagrams =>
    have hreach : ∀ {type : BitVec 8}, h.type = type → ∀ f : RackTo → State → State, s.rackIn a h type.toNat f = .next (f d s) := fun htype f =>
      State.rackIn_reaches hta hua hl hcrc hform (congrArg BitVec.toNat htype) hfind f
    refine ⟨fun p n r body hd htype hr ha => ⟨fun b hb => ?good, fun hb => ?bad⟩, fun p n r hd htype hr hst => ?fail, fun p hd hx e he => ⟨fun htype => ?credit, fun htype bm hst hall => ?sack,
      fun htype ob k ho hrange => ?readReq⟩⟩
    case good =>
      subst hd
      exact (hreach htype _).trans (congrArg _ (State.dataIn_good hr ha hb))
    case bad =>
      subst hd
      exact (hreach htype _).trans (congrArg _ (State.dataIn_bad hr ha hb))
    case fail =>
      subst hd
      exact (hreach htype _).trans (congrArg _ (State.failIn_running hr hst))
    case credit =>
      subst hd
      exact (hreach htype _).trans (congrArg _ (State.creditIn_export hx))
    case sack =>
      subst hd
      exact (hreach htype _).trans (congrArg _ (State.sackIn_last hx he hst hall))
    case readReq =>
      subst hd
      exact (hreach htype _).trans (congrArg _ (State.readReqIn_range hx he ho hrange))
  case alone =>
    refine ⟨fun k b c beats hb hc => ⟨fun hopen => ?lands, fun hopen => ?waits⟩, fun hst hup => ⟨exec_rackCreditTimer_up hp hr hst hup true, exec_rackCreditTimer_up hp hr hst hup false⟩,
      fun k hst hup hl hk => ⟨fun hfew => ?again, fun hmany => ?fails⟩, fun hst hb => exec_rackBusyRetry_busy hp hr hst hb, fun e he hst hb => ?offers⟩
    case lands => exact (exec_segmentLanded_open hp hr hb hc).trans (congrArg _ (if_pos hopen))
    case waits => exact (exec_segmentLanded_open hp hr hb hc).trans (congrArg _ (if_neg (Bool.eq_false_iff.1 hopen)))
    case again => exact (exec_rackRerequest_due hp hr hst hup hl hk).trans (congrArg _ (if_neg (Nat.not_le.2 hfew)))
    case fails => exact (exec_rackRerequest_due hp hr hst hup hl hk).trans (congrArg _ (if_pos hmany))
    case offers =>
      have ho := State.offering_self he hst hb
      have hsend := congrArg (Host.Outcome.next (φ := Fault) (ρ := Refusal)) (State.sendOffer_eq he)
      exact ⟨fun h0 => (exec_offer_first hp ho h0).trans hsend, fun h1 h100 => (exec_offerResend_again hp ho h1 h100).trans hsend, exec_offerResend_gives_up hp ho⟩

end Sys2Proof.Machine
end

section
/-! Pour frames, steps and labels (20): O47 -/

namespace Sys2Proof.Machine
open Sys2Proof

section
variable {s : State} {p : Nat} {src : PourSource} {b : Bytes} {d : PourDecl} {f : PFrame}

/-! A frame that the service hears (20 R422). -/

theorem State.pourFrameRow_heard (hp : p < 4) (hsrc : sourceOk src = true) (hh : s.pourHears p src = true) (type : Nat) :
    s.pourFrameRow p src b type = .next (s.pourIn p src b (some type)).1 := by
  rw [State.pourFrameRow, if_neg (by simp [hp, hsrc]), if_pos hh]
theorem State.pourFrameRow_unheard (hp : p < 4) (hsrc : sourceOk src = true) (hh : s.pourHears p src = false) (type : Nat) : s.pourFrameRow p src b type = .next s := by
  rw [State.pourFrameRow, if_neg (by simp [hp, hsrc]), if_neg (by simp [hh])]
theorem State.pourIn_unparsed (hparse : pourParse b (srcMaxLen src) = none) (only : Option Nat) : s.pourIn p src b only = (s.pourDiscard src, false) := by
  rw [State.pourIn, hparse]
section
variable (hd : (s.parcel p).decl = some d) (hparse : pourParse b (srcMaxLen src) = some f)
include hd hparse
theorem State.pourIn_request (ht : f.type = 1) : s.pourIn p src b (some 1) = s.pourRequest p d src f := by
  simp [State.pourIn, hparse, hd, ht]
theorem State.pourIn_append (ht : f.type = 2) : s.pourIn p src b (some 2) = s.pourAppend p d src f := by
  simp [State.pourIn, hparse, hd, ht]
theorem State.pourIn_cancel (ht : f.type = 3) : s.pourIn p src b (some 3) = s.pourCancelFrame p src f := by
  simp [State.pourIn, hparse, hd, ht]
theorem State.pourIn_fetch (ht : f.type = 4) : s.pourIn p src b (some 4) = s.pourFetch p src f := by
  simp [State.pourIn, hparse, hd, ht]
end

theorem State.pourRequest_good (h : (s.parcel p).pour.requestReason d src f = (0, 0)) :
    s.pourRequest p d src f = ((s.setPour p { (s.parcel p).pour with seqs := (s.parcel p).pour.seqs ++ [seqOf src f] }).pourQueue p f.id, true) := by
  rw [State.pourRequest]
  simp only [h]
  rfl
theorem State.pourRequest_refused {w v : Nat} (hw : 0 < w) (h : (s.parcel p).pour.requestReason d src f = (w, v)) : s.pourRequest p d src f = (s.pourRefuse p src f.id w v, false) := by
  rw [State.pourRequest]
  simp only [h]
  exact if_pos (Nat.ne_of_gt hw)
/-- What an APPEND that holds adds to its sequence (20 R424). -/
def appendTokens (f : PFrame) (y : PourSeq) : PourSeq :=
  if y.st = .incomplete then
    let m := setTokens y.prompt (f.body.leAt 0 4) ((List.range (f.body.leAt 4 4)).map (frameToken (f.body.drop 8)))
    { y with prompt := m, got := m.length }
  else y
theorem State.pourAppend_good (h : (s.parcel p).pour.appendReason d src f = (0, 0)) :
    s.pourAppend p d src f = ((s.modParcel p (fun q => { q with pour := (s.parcel p).pour.modSeq f.id (appendTokens f) })).pourQueue p f.id, true) := by
  rw [State.pourAppend]
  simp only [h]
  rfl
theorem State.pourCancelFrame_live {y : PourSeq} (hb : f.body = []) (hid : f.id ≠ 0) (hy : (s.parcel p).pour.named f.id src = some y) (hst : y.st ≠ .ended) :
    s.pourCancelFrame p src f = (s.pourCancelSeq p y, true) := by
  rw [State.pourCancelFrame, if_neg (by simp [hb, hid]), hy]
  exact if_neg hst
/-- A FETCH of a sequence that has not ended is answered with RESULT (20 R426). -/
theorem State.pourFetch_live {y : PourSeq} (hlen : f.body.length = 8) (hz : allZero (f.body.drop 4) = true) (hy : (s.parcel p).pour.named f.id src = some y) (hst : y.st ≠ .ended)
    (hfirst : f.body.leAt 0 4 ≤ y.tokens.length) :
    s.pourFetch p src f =
      let n := min (min 2045 (y.tokens.length - f.body.leAt 0 4)) (s.resultRoom (s.parcel p).pour y)
      (s.pourSend p y 0x15 (natLe 4 (f.body.leAt 0 4) ++ natLe 4 n ++ natLe 1 0 ++ zeroBytes 3 ++ ((y.tokens.drop (f.body.leAt 0 4)).take n).flatMap (natLe 4)), true) := by
  have hnamed : ((s.parcel p).pour.named f.id src).filter (fun q => decide (q.st ≠ .ended) || q.label.isSome) = some y := by simp [hy, hst]
  rw [State.pourFetch]
  simp only [hlen, hz, hnamed, hst, Nat.not_lt.2 hfirst, ne_eq, not_true_eq_false, Bool.not_true, Bool.false_eq_true, if_false, decide_false, Bool.false_and]
  rfl

/-! Timeouts, steps and labels. -/

theorem exec_pourIncompleteTimeout_due {y : PourSeq} (hp : p < 4) (hy : (s.parcel p).pour.find y.id = some y) (hst : y.st = .incomplete) :
    exec (.pourIncompleteTimeout p y.id) s =
      .next ((s.pourRefuse p y.src y.id 7 y.got).setPour p { (s.parcel p).pour with seqs := (s.parcel p).pour.seqs.filter (fun z => decide (z.id ≠ y.id)) }) := by
  change execPourIncompleteTimeout p y.id s = _
  rw [execPourIncompleteTimeout, s.onParcel_ok _ hp]
  simp only [hy, hst, if_true]
theorem exec_pourStepStart_ready {m : Image} (hp : p < 4) (hd : (s.parcel p).decl = some d) (hm : (s.parcel p).image = some m) (hserve : (s.parcel p).pour.serving = true)
    (hstop : (s.parcel p).pour.stopping = false) (hinv : (s.parcel p).inv = none) (hidle : (s.parcel p).st = .idle)
    (hup : (s.parcel p).fields.all (fun f => decide ((s.field f).st = .raised)) = true) : exec (.pourStepStart p) s = .next (s.pourStep p d m) := by
  change execPourStepStart p s = _
  rw [execPourStepStart, s.onParcel_ok _ hp]
  simp only [hd, hm, hserve, hstop, hinv, hidle, hup, Option.isNone_none, decide_true, Bool.not_false, Bool.and_self, if_true]
/-- A step whose END checks hold ends its run and reaches the boundary (20 R429). -/
theorem exec_pourStepEnd_ends {m : Image} {i j : Inv} {u t : State} {x : Bool} (hp : p < 4) (hd : (s.parcel p).decl = some d) (hm : (s.parcel p).image = some m) (hi : (s.parcel p).inv = some i)
    (hend : (i.started && i.endSeen && i.fault.isNone && i.ofPour) = true) (hu : (s.settleBays p).settleData i = (u, x))
    (ht : (u.parcel p).casks.foldl (fun (u : State) c => u.modCask c (fun k => k.commit none)) u = t) (hj : (t.parcel p).inv = some j) (hfault : j.fault = none) (hpark : j.parkReq = false) :
    exec (.pourStepEnd p) s = .next ((t.endRun p 0 0).pourBoundary p d m j.holdCount (j.digestsHeld && t.weightsValid p)) := by
  change execPourStepEnd p s = _
  rw [execPourStepEnd, s.onParcel_ok _ hp]
  simp only [hd, hm, hi, hend, hu, ht, hj, hfault, hpark, Option.isSome_none, Bool.false_eq_true, if_false, if_true]
theorem exec_labelSigned_halted (h : s.sealU.halted = true) : exec .labelSigned s = .next s := if_pos h
theorem exec_labelSigned_seq {w id : Nat} (h : s.sealU.halted = false) (hw : s.waitingLabels = [(w, p, true, id)]) : exec .labelSigned s = .next (s.signSeq p id) := by
  change execLabelSigned s = _
  rw [execLabelSigned, if_neg (by simp [h]), hw]
  rfl
theorem exec_labelSigned_run {w n : Nat} (h : s.sealU.halted = false) (hw : s.waitingLabels = [(w, p, false, n)]) :
    exec .labelSigned s = .next ((s.modParcel p (fun q =>
      { q with records := q.records.map (fun r => if r.serial = n then { r with label := labelSign r.label, signed := true } else r) })).eventOwner p 3) := by
  change execLabelSigned s = _
  rw [execLabelSigned, if_neg (by simp [h]), hw]
  rfl
end

/-- Settles O47: the frames by their type and what holds of them, the timeout, the start and the end of a step, and the labels that wait. -/
theorem pourFramesStepsAndLabels : Obligations.PourFramesStepsAndLabels := by
  intro s p src b d hp hsrc hd
  have hrow : s.pourHears p src = true → ∀ {type : Nat} {r : State × Bool}, s.pourIn p src b (some type) = r → s.pourFrameRow p src b type = .next r.1 := fun hh _ _ hr => by
    rw [State.pourFrameRow_heard hp hsrc hh, hr]
  refine ⟨fun f hh hparse => ?frames, fun hh hparse => ?unparsed, fun hh => State.pourFrameRow_unheard hp hsrc hh 1, fun y hy hst => exec_pourIncompleteTimeout_due hp hy hst,
    fun m hm hserve hstop hinv hidle hup => exec_pourStepStart_ready hp hd hm hserve hstop hinv hidle hup, fun i m hi hm hend j hj hfault hpark => exec_pourStepEnd_ends hp hd hm hi hend rfl rfl hj hfault hpark,
    exec_labelSigned_halted, fun w id h hw => exec_labelSigned_seq h hw, fun w n h hw => exec_labelSigned_run h hw⟩
  case unparsed => exact hrow hh (State.pourIn_unparsed hparse _)
  case frames =>
    refine ⟨fun ht hr => ?request, fun ht w v hw hr => ?refused, fun ht hr => ?append, fun y ht hb hid hy hst => ?cancel, fun y ht hlen hz hy hst hfirst => ?fetch⟩
    case request => exact hrow hh ((State.pourIn_request hd hparse ht).trans (State.pourRequest_good hr))
    case refused => exact hrow hh ((State.pourIn_request hd hparse ht).trans (State.pourRequest_refused hw hr))
    case append => exact hrow hh ((State.pourIn_append hd hparse ht).trans (State.pourAppend_good hr))
    case cancel => exact hrow hh ((State.pourIn_cancel hd hparse ht).trans (State.pourCancelFrame_live hb hid hy hst))
    case fetch => exact hrow hh ((State.pourIn_fetch hd hparse ht).trans (State.pourFetch_live hlen hz hy hst hfirst))

end Sys2Proof.Machine
end
